-- ==== Sys2Proof/Word.lean ====
section
/-! DEFINITION. The words of the module: bytes, 32-bit control-space words, 64-bit store words. -/

namespace Sys2Proof

/-- One byte. -/
abbrev Byte := BitVec 8

/-- A word of control space (R9). -/
abbrev Word := BitVec 32

/-- A word of 64 bits: a data word of an array row (R24) or of a tile store (R126). -/
abbrev DWord := BitVec 64

/-- A string of bytes, lowest address first. -/
abbrev Bytes := List Byte

end Sys2Proof
end

