-- ==== Sys2Proof/Machine/RegKind.lean ====
section
/-! DEFINITION. The registers of the module by name: one constructor of `RegKind` for each register (or indexed family of
registers) of the register tables of spec/, and `Reg`, one register of a family. Where each lies, and its fields, are in
Machine/RegTable.lean. -/

namespace Sys2Proof.Machine

/-- A block of control space (Table 0.3); `ctr…` are the parts of the counter block (Table 17.2) and `bar` is the BAR0 of a
bridge function (R251), which lies outside control space. -/
inductive Block where
  | glb | tile | port | part | hk | sec | ctrTile | ctrPort | ctrSeam | ctrCtl | bar
  deriving DecidableEq, Repr

/-- The registers of the register tables; the docstring of a constructor is the name the spec gives it. -/
inductive RegKind where
  /-- ARR_CFG (R68) -/
  | arrCfg
  /-- ARR_STATUS (R68) -/
  | arrStatus
  /-- ARR_PORT_CMD (R68) -/
  | arrPortCmd
  /-- ARR_CAL_STATUS (R68) -/
  | arrCalStatus
  /-- ARR_SKIP_CNT (R68) -/
  | arrSkipCnt
  /-- ARR_SAT_CNT (R68) -/
  | arrSatCnt
  /-- ARR_SCRUB (R68) -/
  | arrScrub
  /-- ARR_CHK_CNT (R68) -/
  | arrChkCnt
  /-- ARR_CANARY (R68) -/
  | arrCanary
  /-- ARR_SPARE_MAPk (R68) -/
  | arrSpareMap
  /-- ARR_PORT_DATA (R68) -/
  | arrPortData
  /-- ARR_PORT_CHECK (R68) -/
  | arrPortCheck
  /-- VU_QEVENTk (R88) -/
  | vuQevent
  /-- VU_OEVENTk (R125) -/
  | vuOevent
  /-- VU_REVENTk (R125) -/
  | vuRevent
  /-- TILE_ACC_CFG (R125) -/
  | tileAccCfg
  /-- TILE_ID (R154) -/
  | tileId
  /-- TILE_STATUS (R154) -/
  | tileStatus
  /-- TILE_REGION (R154) -/
  | tileRegion
  /-- TILE_STORE_ERR (R154) -/
  | tileStoreErr
  /-- TILE_TC_MODE (R154) -/
  | tileTcMode
  /-- TILE_PC_HITS (R154) -/
  | tilePcHits
  /-- TILE_PC_MISSES (R154) -/
  | tilePcMisses
  /-- DE_STATUS (R154) -/
  | deStatus
  /-- DE_SPARE (R154) -/
  | deSpare
  /-- DE_CHK_CNT, VU_CHK_CNT (R154) -/
  | deChkCnt
  /-- DE_CHK_CNT, VU_CHK_CNT (R154) -/
  | vuChkCnt
  /-- VU_SPARE_MAPg (R154) -/
  | vuSpareMap
  /-- PF_DESC0–PF_DESC6 (R154) -/
  | pfDesc
  /-- PF_CTRL (R154) -/
  | pfCtrl
  /-- PF_STATUS (R154) -/
  | pfStatus
  /-- CQ_CFGk (R154) -/
  | cqCfg
  /-- CQ_STATEk (R154) -/
  | cqState
  /-- CAD_CFG (R191) -/
  | cadCfg
  /-- CAD_STRETCH (R191) -/
  | cadStretch
  /-- CAD_AVS (R191) -/
  | cadAvs
  /-- CAD_BEAT_LO (R191) -/
  | cadBeatLo
  /-- CAD_BEAT_HI (R191) -/
  | cadBeatHi
  /-- GLB_TMAP_CTRL (R191) -/
  | glbTmapCtrl
  /-- GLB_TMAP_CURk (R191) -/
  | glbTmapCur
  /-- GLB_TMAP_NEXTk (R191) -/
  | glbTmapNext
  /-- PART_PROG_BASE_LO, _HI (R191) -/
  | partProgBaseLo
  /-- PART_PROG_BASE_LO, _HI (R191) -/
  | partProgBaseHi
  /-- PART_PROG_CTRL (R191) -/
  | partProgCtrl
  /-- PART_PROG_STATUS (R191) -/
  | partProgStatus
  /-- PART_PROG_START (R191) -/
  | partProgStart
  /-- TILE_TC_ENTRYk (R191) -/
  | tileTcEntry
  /-- TILE_SEQ_POS (R191) -/
  | tileSeqPos
  /-- TILE_SEQ_LAG (R191) -/
  | tileSeqLag
  /-- TILE_SEQ_STATUS (R191) -/
  | tileSeqStatus
  /-- NET_STATUS (R216) -/
  | netStatus
  /-- NET_COMPAT (R216) -/
  | netCompat
  /-- NET_RIDn (R216) -/
  | netRid
  /-- NET_SEAMr (R216) -/
  | netSeam
  /-- RIME_STATUS (R216) -/
  | rimeStatus
  /-- NET_RSTAT (R216) -/
  | netRstat
  /-- NET_CREDd (R216) -/
  | netCred
  /-- NET_RCTXk (R216) -/
  | netRctx
  /-- NET_RCTX_NEXTk (R216) -/
  | netRctxNext
  /-- PORT_CFG (R257) -/
  | portCfg
  /-- PORT_STATUS (R257) -/
  | portStatus
  /-- PORT_FEC (R257) -/
  | portFec
  /-- PORT_REPLAY (R257) -/
  | portReplay
  /-- PORT_LAT (R257) -/
  | portLat
  /-- PORT_RETRY (R257) -/
  | portRetry
  /-- PORT_CREDk (R257) -/
  | portCred
  /-- CAD_ALIGN (R257) -/
  | cadAlign
  /-- CAD_MASTER (R257) -/
  | cadMaster
  /-- CAD_MARKS (R257) -/
  | cadMarks
  /-- GLB_BRIDGE (R257) -/
  | glbBridge
  /-- GLB_BRIDGE_CNT (R257) -/
  | glbBridgeCnt
  /-- PART_WGT_EPOCH_LO (R290) -/
  | partWgtEpochLo
  /-- PART_WGT_EPOCH_HI (R290) -/
  | partWgtEpochHi
  /-- PART_WGT_STATUS (R290) -/
  | partWgtStatus
  /-- PART_WGT_CNT (R290) -/
  | partWgtCnt
  /-- PART_WGT_HOLD (R290) -/
  | partWgtHold
  /-- PART_WGT_LEPOCHk (R290) -/
  | partWgtLepoch
  /-- GLB_RING_CMD_BASE_LO (R297) -/
  | ringCmdBaseLo
  /-- GLB_RING_CMD_BASE_LO (R297) -/
  | ringCmdBaseHi
  /-- GLB_RING_CMD_SIZE (R297) -/
  | ringCmdSize
  /-- GLB_RING_CMD_TAIL (R297) -/
  | ringCmdTail
  /-- GLB_RING_CMD_HEAD (R297) -/
  | ringCmdHead
  /-- GLB_RING_RPL_BASE_LO (R297) -/
  | ringRplBaseLo
  /-- GLB_RING_RPL_BASE_LO (R297) -/
  | ringRplBaseHi
  /-- GLB_RING_RPL_SIZE (R297) -/
  | ringRplSize
  /-- GLB_RING_RPL_HEAD (R297) -/
  | ringRplHead
  /-- GLB_RING_RPL_TAIL (R297) -/
  | ringRplTail
  /-- GLB_RING_STATUS (R297) -/
  | ringStatus
  /-- FUNC_IRQ_CAUSEv (R345) -/
  | funcIrqCause
  /-- MOULIN_BASE_LO (R381) -/
  | moulinBaseLo
  /-- MOULIN_BASE_HI (R381) -/
  | moulinBaseHi
  /-- MOULIN_SIZE (R381) -/
  | moulinSize
  /-- MOULIN_HEAD (R381) -/
  | moulinHead
  /-- MOULIN_TAIL (R381) -/
  | moulinTail
  /-- MBX_SEND_DATAk (R301) -/
  | mbxSendData
  /-- MBX_SEND_DATAk (R301) -/
  | mbxHostSendData
  /-- MBX_SEND_CTRL (R301) -/
  | mbxSendCtrl
  /-- MBX_SEND_CTRL (R301) -/
  | mbxHostSendCtrl
  /-- MBX_RECV_DATAk (R301) -/
  | mbxRecvData
  /-- MBX_RECV_DATAk (R301) -/
  | mbxHostRecvData
  /-- MBX_RECV_CTRL (R301) -/
  | mbxRecvCtrl
  /-- MBX_RECV_CTRL (R301) -/
  | mbxHostRecvCtrl
  /-- MBX_CFGc (R301) -/
  | mbxCfg
  /-- SYNC_PARTn (R305) -/
  | syncPart
  /-- SYNC_STATUS (R307) -/
  | syncStatus
  /-- SYNC_OBJk (R305) -/
  | syncObj
  /-- SYNC_CFGk (R305) -/
  | syncCfg
  /-- PART_SVC_STATUS (R331) -/
  | partSvcStatus
  /-- PART_SVC_CNT (R331) -/
  | partSvcCnt
  /-- PART_KV_FREE (R331) -/
  | partKvFree
  /-- PART_KV_LENT (R331) -/
  | partKvLent
  /-- PART_KV_BORROWED (R331) -/
  | partKvBorrowed
  /-- PART_SVC_EVT (R331) -/
  | partSvcEvt
  /-- PART_CFG (R351) -/
  | partCfg
  /-- PART_TILES0–2 (R351) -/
  | partTiles
  /-- PART_HBM_W, PART_HBM_E (R351) -/
  | partHbm
  /-- PART_QOS (R351) -/
  | partQos
  /-- PART_ISO (R351) -/
  | partIso
  /-- PART_LINK_SHAREp (R351) -/
  | partLinkShare
  /-- PART_IRQ_CFGv (R351) -/
  | partIrqCfg
  /-- PART_IRQ_ROUTE (R351) -/
  | partIrqRoute
  /-- PART_IRQ_PEND (R351) -/
  | partIrqPend
  /-- CAD_EXT (R383) -/
  | cadExt
  /-- LOG_STATUS (R383) -/
  | logStatus
  /-- LOG_FILL (R383) -/
  | logFill
  /-- LOG_LOST (R383) -/
  | logLost
  /-- LOG_MOULIN (R383) -/
  | logMoulin
  /-- LOG_SPILL_BASE (R383) -/
  | logSpillBase
  /-- LOG_SPILL_LEN (R383) -/
  | logSpillLen
  /-- GLB_HOLD (R383) -/
  | glbHold
  /-- GLB_RESERVE (R383) -/
  | glbReserve
  /-- GLB_REDIRECTk (R383) -/
  | glbRedirect
  /-- PWR_DOMk (R414) -/
  | pwrDom
  /-- PWR_STATUS (R414) -/
  | pwrStatus
  /-- PWR_INSTALL (R414) -/
  | pwrInstall
  /-- THM_CFG (R414) -/
  | thmCfg
  /-- THM_STATUS (R414) -/
  | thmStatus
  /-- THM_SENSs (R414) -/
  | thmSens
  /-- SUP_CFG (R414) -/
  | supCfg
  /-- SUP_STATUS (R414) -/
  | supStatus
  /-- SUP_RAILr (R414) -/
  | supRail
  /-- HK_TIMER (R414) -/
  | hkTimer
  /-- HK_MASK_LO, HK_MASK_HI (R414) -/
  | hkMask
  /-- HK_URGENT (R414) -/
  | hkUrgent
  /-- HK_STATUS (R414) -/
  | hkStatus
  /-- HK_FIFO (R414) -/
  | hkFifo
  /-- HK_CMP_EVT (R414) -/
  | hkCmpEvt
  /-- HK_PWMk (R414) -/
  | hkPwm
  /-- HK_VALUEk (R414) -/
  | hkValue
  /-- HK_CMPc_BND (R414) -/
  | hkCmpBnd
  /-- HK_CMPc_CFG (R414) -/
  | hkCmpCfg
  /-- GLB_RST (R433) -/
  | glbRst
  /-- PWR_MODE (R433) -/
  | pwrMode
  /-- PWR_WAKE (R433) -/
  | pwrWake
  /-- PWR_SLOT (R433) -/
  | pwrSlot
  /-- SEC_STATUS (R452) -/
  | secStatus
  /-- SEC_SESS_CTRL (R452) -/
  | secSessCtrl
  /-- SEC_SESS_NONCEk (R452) -/
  | secSessNonce
  /-- SEC_DBG_NONCEk (R452) -/
  | secDbgNonce
  /-- SEC_DBG (R452) -/
  | secDbg
  /-- SEC_FW (R452) -/
  | secFw
  /-- SEC_SESS_RESPk (R452) -/
  | secSessResp
  /-- CTR_PCk_LO (R464) -/
  | ctrPcLo
  /-- CTR_PCk_LO (R464) -/
  | ctrPcLoSh
  /-- CTR_PCk_HI (R464) -/
  | ctrPcHi
  /-- CTR_PCk_HI (R464) -/
  | ctrPcHiSh
  /-- CTR_PCk_CFG (R464) -/
  | ctrPcCfg
  /-- CTR_TILE_STATUS (R464) -/
  | ctrTileStatus
  /-- CTR_TILE_STATUS (R464) -/
  | ctrTileStatusSh
  /-- TDLO (R464) -/
  | ctrTdLo
  /-- TDLO (R464) -/
  | ctrTdLoSh
  /-- TDHI (R464) -/
  | ctrTdHi
  /-- TDHI (R464) -/
  | ctrTdHiSh
  /-- PORTLO (R464) -/
  | ctrPortLo
  /-- PORTLO (R464) -/
  | ctrPortLoSh
  /-- PORTHI (R464) -/
  | ctrPortHi
  /-- PORTHI (R464) -/
  | ctrPortHiSh
  /-- PORTWIN (R464) -/
  | ctrPortWin
  /-- PORTWIN (R464) -/
  | ctrPortWinSh
  /-- SEAMLO (R464) -/
  | ctrSeamLo
  /-- SEAMLO (R464) -/
  | ctrSeamLoSh
  /-- SEAMHI (R464) -/
  | ctrSeamHi
  /-- SEAMHI (R464) -/
  | ctrSeamHiSh
  /-- SEAMWIN (R464) -/
  | ctrSeamWin
  /-- SEAMWIN (R464) -/
  | ctrSeamWinSh
  /-- CTR_CTRL (R464) -/
  | ctrCtrl
  /-- CTR_SNAP_BEAT_LO, _HI (R464) -/
  | ctrSnapBeatLo
  /-- CTR_SNAP_BEAT_LO, _HI (R464) -/
  | ctrSnapBeatHi
  /-- CTR_SNAP_CAUSE (R464) -/
  | ctrSnapCause
  deriving DecidableEq, Repr

/-- One register: its kind, the block it lies in (tile, port, partition, function: `i`), its second index (array of the tile,
channel, prefetcher, unit: `j`) and its own index `k`. -/
structure Reg where
  kind : RegKind
  i : Nat
  j : Nat
  k : Nat
  deriving DecidableEq, Repr

/-- A field of a register: bits hi down to lo. -/
structure FieldRef where
  reg : Reg
  hi : Nat
  lo : Nat
  deriving DecidableEq, Repr

/-- The access codes of Table 0.4 (R11). -/
inductive Access where
  | ro | rw | wo | w1c | rc | rs
  deriving DecidableEq, Repr

/-- The Cleared-by letters of Table 0.5 (R12). -/
inductive Letter where
  | o | m | w | x | t | p | d | s
  deriving DecidableEq, Repr

/-- One row of a register table: the bits, the access, the reset value and the Cleared-by letters. -/
structure FieldRow where
  hi : Nat
  lo : Nat
  access : Access
  reset : Nat
  cleared : List Letter
  deriving DecidableEq, Repr

/-- Where the registers of a kind lie in their block: at off + j * js + k * ks for j < jc and k < kc. -/
structure Geom where
  block : Block
  off : Nat
  jc : Nat
  js : Nat
  kc : Nat
  ks : Nat
  deriving DecidableEq, Repr

end Sys2Proof.Machine
end

