-- ==== Sys2Proof/Machine/Units.lean ====
section
/-! DEFINITION. The state of the module's units as plain data, one structure a unit: lamlet array, tile (store, prefetchers,
credit queues, DE, VU, tile cores, sequencer), fabric router, link port, partition, log, firn and the rest. State.lean puts
them together. Every field has the value it holds at reset as its default (R12, R427); what the spec leaves open is named
in the assumption log. A register's bits stand in `State.regs` alone and are not repeated here. -/

namespace Sys2Proof.Machine

/-- What the checks of an action's digital results say (R150 to R152, R207, R357): they pass; they fail and the replay passes;
or both fail, and the third computation agrees with the main result (the checker of the element is faulty), with the checker
(the main element is faulty) or with neither. The element is numbered in its unit. -/
inductive Chk where
  | pass
  | replayPassed
  | checker (el : Nat)
  | main (el : Nat)
  | neither
  deriving DecidableEq, Repr

/-- A sparse table: keys strictly rising, no entry equal to what an unlisted key reads as (see Machine/Sparse.lean). -/
abbrev Sparse (α : Type) := List (Nat × α)

/-! ## Lamlet array (chapters 2 to 4) -/

/-- The array whose promotion a command ends, and the check of its outlier adder's results (R152). -/
structure ArrEnd where
  arr : Fin 128
  chk : Chk := .pass
  deriving DecidableEq, Repr

/-- How an HBM4 burst goes: whether its data pass their parity (R356), and whether it is scheduled traffic of its partition's program
(R185). -/
structure BurstNote where
  ok : Bool := true
  sched : Bool := false
  deriving DecidableEq, Repr

/-- A 64-bit word with its parity bit (R60, R126). The word is sound when word and parity hold an even number of ones. -/
structure PWord where
  data : DWord := 0
  par : Bool := false
  deriving DecidableEq, Repr

/-- One physical row of an array (R23, R24): the 1,024 data bits, the 16 word parity bits, the 12 check bits, the 64 spare
bits and the 4 calibration reference bits. -/
structure Row where
  data : BitVec 1024 := 0
  parity : BitVec 16 := 0
  check : BitVec 12 := 0
  spare : BitVec 64 := 0
  refs : BitVec 4 := 0
  deriving DecidableEq, Repr

/-- The coefficients of one converter at one range (R34), both signed. -/
structure Coef where
  o : BitVec 8 := 0
  g : BitVec 8 := 0
  deriving DecidableEq, Repr

/-- An operand entry (R54, R76, R179): the A4 vector (element i in bits 4i + 3 to 4i), its block scales (byte b in bits 8b + 7
to 8b), the descriptor count of each segment, the residual vector, its scales and its mask, the descriptors in segment order,
and the byte offset of the record it was copied from, from which it is replayed (R80). -/
structure OpEntry where
  vec : BitVec 4096 := 0
  scales : BitVec 128 := 0
  counts : List Nat := []
  resid : BitVec 4096 := 0
  rscales : BitVec 128 := 0
  rmask : BitVec 16 := 0
  descs : List (Nat × BitVec 16) := []
  src : Nat := 0
  deriving DecidableEq, Repr

/-- A result entry (R55): fp32 values in column order, and whether NET drains it (RES of R176). -/
structure ResEntry where
  vals : List Word := []
  net : Bool := false
  lslot : Nat := 0
  deriving DecidableEq, Repr

/-- How a waiting segment of a multiply goes on. -/
inductive SegWait where
  | none | scaleLine (line : Nat) | arbitration | replay
  deriving DecidableEq, Repr

/-- A multiply in progress (R40): its operand, the read under way (segment, residual or main, phase L or H, range), the range
reserve left (R51), the snapped values of both phases of the read (R33), the coarsest range among its conversions (R99) and,
over the reads made so far of the segment, their number and the sums of the narrow values, of Δ and of the check accumulator
(R106). -/
structure MulSt where
  lslot : Nat := 0
  acc : Bool := false
  net : Bool := false
  entry : OpEntry := {}
  seg : Nat := 0
  residual : Bool := false
  phaseH : Bool := false
  range : Nat := 0
  curRange : Nat := 0
  reserve : Nat := 0
  snapL : List Nat := []
  snapH : List Nat := []
  /-- columns that saturated and are being re-read (R51), and whether some conversion of this read saturated at the coarsest
  range (R53) -/
  pend : List Nat := []
  failed : Bool := false
  /-- the read used a coarser-range re-read -/
  reread : Bool := false
  closing : Bool := false
  coarsest : Nat := 0
  reads : Nat := 0
  sumN : List Int := []
  sumD : Int := 0
  sumC : Int := 0
  wait : SegWait := .none
  heldN : List Int := []
  /-- the outlier terms d_j of a segment that waits for a scale line (R50, R121) -/
  heldD : List Word := []
  /-- some phase of the read was left to the DE (R62, R115): the segment is promoted from the DE's exact values -/
  exactRead : Bool := false
  /-- the DE computes columns of a failed canary for the read, as priority work (R119, R144) -/
  driftRead : Bool := false
  deriving DecidableEq, Repr

/-- The kinds of full calibration (R113): routine, forced and initial. -/
inductive CalKind where
  | routine | forced | initial
  deriving DecidableEq, Repr

/-- A full calibration that fills the inactive bank; `low` holds the codes of the low point of the range and quarter under
way, by physical bit-column (R113). ARR_CAL_STATUS.SETS_DONE counts its sets. -/
structure CalSt where
  kind : CalKind := .routine
  low : Sparse Nat := []
  deriving DecidableEq, Repr

/-- A spare being filled (R66, R360). `stop` marks a release that takes effect at the next beat boundary (R70). -/
structure FillSt where
  spare : Nat
  target : Nat
  release : Bool := false
  deriving DecidableEq, Repr

/-- A canary in progress (R118): multiplies made, the sums of the narrow values of the reads by segment and column, whether
it repeats a failed one, and the coarsest range of each segment's conversions (R99). -/
structure CanarySt where
  made : Nat := 0
  sums : List Int := []
  /-- sums of the snapped values by segment, phase and bit-column -/
  snaps : List Int := []
  again : Bool := false
  coarse : List Nat := []
  deriving DecidableEq, Repr

/-- Who waits for the row port, in the order of R57: accesses that firmware requests through ARR_PORT_CMD in request order,
scrub reads last. The beat program's row operations, the loader's writes and the DE's reads are whole commands here. -/
inductive PortReq where
  | readRow (row : Nat)
  | writeRow (row : Nat)
  | readLine (line : Nat)
  | writeLine (line : Nat)
  | scrub (row : Nat)
  deriving DecidableEq, Repr

/-- One lamlet array. -/
structure ArrSt where
  /-- the cells (R23), by row -/
  rows : Sparse Row := []
  /-- the scale file (R60): 256 words, eight a line -/
  scale : Sparse PWord := []
  /-- the weight-sum file (R29): entry (q, j) at 512 q + j -/
  wsum : Sparse (BitVec 10) := []
  /-- coefficient banks 0 and 1 (R65): converter (quarter q, column c) at range r of bank b at ((b * 4 + r) * 4 + q) * 1120 + c -/
  coefs : Sparse Coef := []
  /-- the operand queue, head first, at most two entries (R54) -/
  opQ : List OpEntry := []
  /-- the result queue, head first, at most two entries (R55) -/
  resQ : List ResEntry := []
  /-- the 512 wide accumulators (R39) -/
  wide : Sparse Word := []
  mul : Option MulSt := none
  cal : Option CalSt := none
  /-- rows marked suspect (R62), ascending -/
  suspects : List Nat := []
  /-- logical columns computed by the DE while a spare fills (R360) -/
  cover : List Nat := []
  /-- logical columns that a failed canary has handed to the DE (R119) -/
  failCols : List Nat := []
  /-- columns came under cover whose weights the DE does not hold yet (R361) -/
  coverNew : Bool := false
  /-- the placement of the resident manifest whose image the cells hold, when the loader or a rotation has written one (R284) -/
  held : Option Nat := none
  /-- every segment recomputed by the DE (R115, R358, R360) -/
  exact : Bool := false
  fills : List FillSt := []
  /-- the spares that have gone live since the last loading of the repair map, in that order (R66) -/
  liveSeq : List Nat := []
  canary : Option CanarySt := none
  /-- a forced calibration that waits for the end of a supply warning and its hold (R359) -/
  calDue : Bool := false
  /-- the calibration that waits recomputes every segment while it runs (R358, R359) -/
  exactDue : Bool := false
  /-- beat of the last passing canary (R119) -/
  canaryPass : BitVec 64 := 0
  portWait : List PortReq := []
  /-- the first scrub pass after the reset has ended (R287) -/
  scrubPass : Bool := false
  /-- the slot holding the current image has passed its hash (R287) -/
  hashOk : Bool := false
  /-- rows that differed from the current image, still to be rewritten (R287) -/
  rewrite : List Nat := []
  deriving DecidableEq, Repr

/-! ## Tile engines (chapters 5 and 6) -/

/-- A prefetcher descriptor, words 0 to 6 (Table 5.4), and whether it is a program-load descriptor (R130, R189). -/
structure PfDesc where
  w0 : Word := 0
  w1 : Word := 0
  w2 : Word := 0
  w3 : Word := 0
  w4 : Word := 0
  w5 : Word := 0
  w6 : Word := 0
  load : Bool := false
  deriving DecidableEq, Repr

/-- A chunk in flight (R137): its number in the descriptor, its queue, its source (kind, tile or port, offset or stream), where it
lands and its size; whether it has landed, the latest window in which its scheduled flits were sent (R138), and the object that
its becoming READY signals when it is the descriptor's last. -/
structure Chunk where
  num : Nat
  cq : Nat
  kind : Nat
  unit : Nat
  src : Nat
  dst : Nat
  size : Nat
  /-- the descriptor is a program-load descriptor (R130) -/
  load : Bool := false
  landed : Bool := false
  sched : Option Nat := none
  done : Option Nat := none
  deriving DecidableEq, Repr

/-- A prefetcher (R135): the queued descriptors, the current one first, whether the current one has been checked (R136), the
chunks issued of it, and the chunks in flight. -/
structure PfSt where
  queue : List PfDesc := []
  started : Bool := false
  issued : Nat := 0
  flight : List Chunk := []
  deriving DecidableEq, Repr

/-- What CQ_STATE does not say of a credit queue (R137): the number of its next slot, the READY slots in order (store offset and
size), and how many HELD slots fed a result written to scratch in the current window (R354). -/
structure CqSt where
  next : Nat := 0
  ready : List (Nat × Nat) := []
  heldScratch : Nat := 0
  deriving DecidableEq, Repr

/-- A DE weight block buffer (R142): its class (R177) and the record's bytes. -/
structure DeBuf where
  cls : Nat := 0
  bytes : Bytes := []
  deriving DecidableEq, Repr

/-- A tile core (R149, R180): its registers (x0 reads as 0), the program counter of a free-mode core, whether it runs, and
whether it is in free mode now. -/
structure TcSt where
  regs : Sparse Word := []
  /-- the parity bit of each register (R149) -/
  par : Sparse Bool := []
  pc : Nat := 0
  run : Bool := false
  free : Bool := false
  deriving DecidableEq, Repr

/-- A line of the page cache (R133, R134): HBM4 line number, set, way, and the stamp of its last use. -/
structure PcLine where
  line : Nat
  set : Nat
  way : Nat
  stamp : Nat
  deriving DecidableEq, Repr

/-- A page cache fill in flight (R134): `stale` when a store has hit the line, so the fill is discarded and reissued. -/
structure PcFill where
  line : Nat
  pf : Nat
  stale : Bool := false
  deriving DecidableEq, Repr

/-- A writer record (R355): the beat word position and the slot of the action that last wrote the scratch line, the scratch
lines that the action read, and the bytes that it wrote in the line, from a store offset on, as its repetition from the held inputs
writes them again. -/
structure Writer where
  pos : Nat
  slot : Nat
  ins : List Nat := []
  at_ : Nat := 0
  bytes : Bytes := []
  deriving DecidableEq, Repr

/-- The RUN that the DE computes (R142, R177): its operands, the runs taken into the input queue and those computed, and how the check
of its results comes out. -/
structure DeRun where
  cls : Nat
  buf : Bool
  lslot : Nat
  vbase : Nat
  nruns : Nat
  cq : Nat
  chk : Chk
  pulled : Nat := 0
  done : Nat := 0
  deriving DecidableEq, Repr

/-- The tile sequencer: the partition whose slice it runs, the byte offset of its next record in the slice, the beats left of
the run it is in, the program window of the image that it holds and that window's number on the domain's timeline, hold windows
left out (R367). -/
structure SeqSt where
  part : Nat := 0
  off : Nat := 0
  runLeft : Nat := 0
  progWin : Nat := 0
  win : Nat := 0
  /-- all beat words of the window have issued -/
  ended : Bool := false
  /-- the tile has lagged in the window (R167) -/
  lagged : Bool := false
  /-- releases that the next beat word has waited, and the condition of the last wait: 1 input, 2 output, 3 unit busy (R459) -/
  waits : Nat := 0
  waitLast : Nat := 0
  /-- the beat word of the current release has issued (R163) -/
  paced : Bool := false
  /-- the mask file (R189) -/
  masks : List (BitVec 128) := []
  /-- the program buffer (R189): the credit queue of the program loads, the number of the ring slot at which the pass under way
  begins, the slice offset of its first byte, and the slots that the sequencer has left behind -/
  cq : Nat := 31
  slot0 : Nat := 0
  passOff : Nat := 0
  freed : Nat := 0
  deriving DecidableEq, Repr

/-- One tile, its arrays apart. -/
structure TileSt where
  /-- the tile store (R126): 64-bit words with parity, by word number -/
  store : Sparse PWord := []
  /-- the VU's vector registers (R146): lane l of register r at 1024 r + l -/
  vregs : Sparse Word := []
  /-- the parity bit of each 64-bit lane pair (R146): pair p of register r at 512 r + p -/
  vpar : Sparse Bool := []
  deBuf0 : DeBuf := {}
  deBuf1 : DeBuf := {}
  /-- the DE's wide accumulator file (R143), 4,096 entries -/
  deWide : Sparse Word := []
  tc : Sparse TcSt := []
  pf : Sparse PfSt := []
  cq : Sparse CqSt := []
  pcache : List PcLine := []
  pfills : List PcFill := []
  pstamp : Nat := 0
  seq : SeqSt := {}
  writers : Sparse Writer := []
  /-- next line of the store scrub (R132) -/
  scrubLine : Nat := 0
  /-- the scrub read that waits for the store, and the words under restore (R131) -/
  restoring : List Nat := []
  /-- codes logged in the current window, for entries written once a window -/
  logged : List Nat := []
  /-- the logical columns under column cover, by array, in the order in which they came under it (R361) -/
  covers : List (Nat × Nat) := []
  /-- quantiser event counts at the last window end (R88): slot k's underflows and saturations -/
  statBase : Sparse (BitVec 32) := []
  /-- clamps of the window by layer slot (R124) -/
  winClamps : Sparse Nat := []
  /-- scheduled unit-beats of the window by unit (R458), and those classified wasted, front and back -/
  sched : Sparse Nat := []
  wasted : Sparse Nat := []
  front : Sparse Nat := []
  back : Sparse Nat := []
  /-- the DE's input queue (R143): run records with their scale bytes, oldest first; and the RUN that they belong to -/
  deIn : List Bytes := []
  deRun : Option DeRun := none
  /-- the integer sums of the segments under way of layers placed on the DE in exact int4 mode, by wide file entry, and their runs so far
  by vector (R92) -/
  deSum : Sparse Int := []
  deCnt : Sparse Nat := []
  /-- priority work of R144 in the DE -/
  dePrio : Nat := 0
  /-- the tile stops issuing after a permanent failure (R362) -/
  failed : Bool := false
  /-- the reserve tile that takes this failed tile's place (R364) -/
  heir : Option Nat := none
  /-- waiting synchronisation operations, by unit and object, that have gone to their home on VC3 (R215) -/
  asked : List (Nat × Nat) := []
  /-- acknowledgements of waiting synchronisation operations by unit and object (R306): sent by the home, and arrived -/
  ackDue : List (Nat × Nat) := []
  acks : List (Nat × Nat) := []
  deriving DecidableEq, Repr

/-! ## Fabric (chapter 7) -/

/-- A fabric flit (R192, R193): header, 128-byte payload, and the parity bits: bits 0 to 15 of the payload's words, bit 16 of the
header. -/
structure Flit where
  hdr : BitVec 64 := 0
  payload : BitVec 1024 := 0
  par : BitVec 17 := 0
  deriving DecidableEq, Repr

/-- A router with its buffers: input d (0 local, 1 north, 2 east, 3 south, 4 west), channel v at key 4 d + v, oldest flit
first; the round-robin pointer of each output and channel (R196); the senders' retry counts (R203); the spare wires left on
each output (R204). A hub is a router too. -/
structure RouterSt where
  bufs : Sparse (List Flit) := []
  rr : Sparse Nat := []
  /-- beats that a channel of an output has waited with a flit and a credit (R196), at key 4 o + v -/
  waited : Sparse Nat := []
  retries : Sparse Nat := []
  wires : Sparse Nat := []
  /-- channels that discard until the flit that failed comes again (R203) -/
  discarding : List (Nat × Flit) := []
  /-- the flits that NET has still to inject (R182) -/
  inj : List Flit := []
  /-- inputs at whose head a sum waits in the place of the flit that came in there (R206) -/
  added : List (Nat × Flit) := []
  /-- flits sent on an output and held until their credit comes back (R202): output, flit. Output 5 is the trunk -/
  sent : List (Nat × Flit) := []
  /-- reduction flits in the ejection queue, waiting for their landing object (R208) -/
  eject : List Flit := []
  /-- the landing line of a reduction ID at its destination (R205, R208) -/
  landing : Sparse Nat := []
  deriving DecidableEq, Repr

/-- A rime message (R213): type, destination, source, partition and the words after word 0. -/
structure RimeMsg where
  type : Nat
  dest : Nat
  src : Nat
  part : Nat
  words : List Word := []
  deriving DecidableEq, Repr

/-- A synchronisation operation held at its object's home until its condition holds (R306). -/
structure SyncWait where
  op : Nat
  obj : Nat
  value : Nat
  src : Nat
  part : Nat
  /-- the unit of the tile that waits: 9 SYN, 3 to 6 a tile core -/
  unit : Nat := 9
  deriving DecidableEq, Repr

/-! ## Links and domains (chapter 8) -/

/-- A link flit (R222): header, 240 payload bytes, and the trailer: the parity of words 0 to 30 with that of the trailer's upper half
in bit 31, the sequence number and the credit return. -/
structure LFlit where
  hdr : BitVec 64 := 0
  payload : BitVec 1920 := 0
  par : BitVec 32 := 0
  seq : BitVec 16 := 0
  ret : BitVec 16 := 0
  deriving DecidableEq, Repr

/-- What the lanes' codewords and markers say with a flit that arrives (R220, R232): whether a word of the flit lies in a codeword that
is uncorrectable; and, of the time since the flit before it, the lane of each uncorrectable codeword, lane and symbols of each corrected
one, and for each marker due its lane and whether it came. -/
structure FecNote where
  hit : Bool := false
  bad : List (Fin 4) := []
  fixed : List (Fin 4 × Nat) := []
  markers : List (Fin 4 × Bool) := []
  deriving DecidableEq, Repr

/-- A message for a port (R223): class, partition, destination slot, stream or subtype, and payload bytes. -/
structure LinkMsg where
  cls : Nat
  part : Nat := 0
  dest : Nat
  stream : Nat
  payload : Bytes := []
  deriving DecidableEq, Repr

/-- A link port. Pools are 0 to 5. `sent`, `peerFreed`, `freed` are the cumulative counts of R225. -/
structure PortSt where
  txQ : List LFlit := []
  retry : List LFlit := []
  txSeq : BitVec 16 := 0
  rxSeq : BitVec 16 := 0
  sent : Sparse Nat := []
  peerFreed : Sparse Nat := []
  freed : Sparse Nat := []
  retTurn : Nat := 0
  rxBuf : List LFlit := []
  gap : Bool := false
  /-- the sequence number last named by a REPLAY and how often (R228) -/
  replaySeq : BitVec 16 := 0
  replayCnt : Nat := 0
  control : List (Nat × Bytes) := []
  ecMin : Option Nat := none
  ecCount : Nat := 0
  drained : Bool := false
  drainWait : Bool := false
  resending : Nat := 0
  retraining : Bool := false
  /-- bytes sent and accepted in the window by class and direction (R461) -/
  winBytes : Sparse Nat := []
  grant : Sparse Nat := []
  badPartLogged : List Nat := []
  /-- the lanes in use, as a mask (R233), and the words sent on each lane, oldest first (R221) -/
  lanesOn : Nat := 0
  /-- the lane set that the masters know of (R234): all four until a change is reported -/
  lanesTold : Nat := 15
  laneOut : Sparse (List (BitVec 64)) := []
  /-- uncorrectable codewords by time in ps and lane, corrected ones with their symbols, and markers missed in a row by lane (R232) -/
  badAt : List (Nat × Nat) := []
  fixedAt : List (Nat × Nat × Nat) := []
  missed : Sparse Nat := []
  /-- messages of which some flits have arrived, by header bits 43 to 0 (R223) -/
  asm : List (Nat × Bytes) := []
  /-- bytes of the oldest accepted flit of a stream that a prefetcher has taken, by partition and stream (65,536 × partition + stream) -/
  skip : List (Nat × Nat) := []
  /-- the partition whose turn it is in a class and the flits that its weight still gives it (R338), by class -/
  wrr : Sparse (Nat × Nat) := []
  deriving DecidableEq, Repr

/-- A slot entry of the topology table in force (Table 8.5). -/
structure SlotEntry where
  slot : Nat := 0
  group : Nat := 0
  master : Bool := false
  standbyMaster : Bool := false
  bridge : Bool := false
  standby : Bool := false
  pcieWired : Bool := false
  present : Bool := false
  buddy : Nat := 0
  latMaster : Nat := 0
  latStandby : Nat := 0
  /-- ports with a peer (USED) and their hop latencies in taps: t_rt, one way -/
  used : List Bool := []
  hopRt : List Nat := []
  hopOne : List Nat := []
  deriving DecidableEq, Repr

/-- A pair record of the topology table (Table 8.5). -/
structure PairRec where
  src : Nat := 0
  dest : Nat := 0
  tm : Nat := 0
  trt : Nat := 0
  deriving DecidableEq, Repr

/-- The topology table as far as the module acts on it, with its bytes (Table 8.5). -/
structure Topo where
  bytes : Bytes := []
  epoch : Nat := 0
  domain : Nat := 0
  n : Nat := 40
  l256 : Nat := 16
  master : Nat := 0
  standbyMaster : Nat := 0
  slots : List SlotEntry := []
  pairs : List PairRec := []
  deriving DecidableEq, Repr

/-- A stretch request held by the master (R245). -/
structure Req where
  slot : Nat
  pct : Nat
  deriving DecidableEq, Repr

/-- A window extension in progress or announced (R366): first hold window, hold windows, and the largest lag that asked. -/
structure Ext where
  x : Nat
  e : Nat
  lag : Nat
  deriving DecidableEq, Repr

/-- A piece of another module's mirror record (R372): its slot, the kind (0 partition descriptor, 1 program bytes, 2 service
descriptor, 3 request table state), partition, window, offset and bytes. -/
structure MirrorRec where
  slot : Nat
  kind : Nat
  part : Nat
  window : Nat := 0
  off : Nat := 0
  data : Bytes := []
  deriving DecidableEq, Repr

/-- The cadence and the domain. -/
structure CadSt where
  /-- the time gone by in picoseconds, each beat at the period that was in force (R156, R232) -/
  ps : Nat := 0
  /-- the domain beat count (R159), 64 bits -/
  beat : BitVec 64 := 0
  nextStretch : Nat := 0
  stretchAt : Option Nat := none
  /-- window boundaries in a row at which the margin exceeded the target by more than 3 points (R160) -/
  above : Nat := 0
  /-- the rail before Idle (R423) -/
  idleRail : Nat := 40
  reqs : List Req := []
  alignedRun : Nat := 0
  takeover : Nat := 0
  masterNow : Bool := false
  joined : List Nat := []
  leftOut : List Nat := []
  running : Bool := false
  joining : Bool := false
  pairMin : Sparse Nat := []
  pairCnt : Sparse Nat := []
  ext : Option Ext := none
  /-- hold windows of the episode, and on-time windows since (R368) -/
  episode : Nat := 0
  onTime : Nat := 16
  held : Nat := 0
  failedSlots : List Nat := []
  vacated : List Nat := []
  lateSent : List Nat := []
  /-- overruns of this boundary's deadline check: the window, the largest lag and whether supply-caused (R365) -/
  lateNotes : List (Nat × Nat × Bool) := []
  /-- program windows shifted by extensions so far (R367) -/
  shift : Nat := 0
  /-- the window whose boundary took place last (R168) -/
  edge : Nat := 0
  /-- redirects to install: the stop window, the failed slot and its standby (R371) -/
  redirects : List (Nat × Nat × Nat) := []
  /-- bring-up waits until the ports have trained (R241, R247) -/
  waitPorts : Bool := false
  /-- the status of a table that failed its verification: the module stays out of every domain (R240) -/
  topoFault : Option Nat := none
  /-- a newer topology table being fetched from the bridge: its epoch, size and bytes (R241) -/
  fetch : Option (Nat × Nat × Bytes) := none
  /-- the mirror records that this module holds for others (R372) -/
  mirrors : List MirrorRec := []
  deriving DecidableEq, Repr

/-! ## Programs, weights, services, partitions (chapters 6, 9 to 12) -/

/-- A layer slot entry (Table 6.2). -/
structure LayerSlot where
  mode : Nat := 0
  seg : Nat := 0
  range : Nat := 0
  reserve : Nat := 0
  k : Nat := 0
  rr : Nat := 0
  l : Nat := 0
  flags : Nat := 0
  g : Word := 0
  f : Word := 0
  layer : Nat := 0
  /-- the activation tensor scale that the program carries (R81), for which Table 6.2 has no field -/
  ta : Word := 0
  deriving DecidableEq, Repr

/-- A slice of a loaded program (R172, R174): its target and variant, its byte offset from the image base and its length, its
mask table, the slice offset of the first record of each window, and the credit queue of its program loads. -/
structure Slice where
  kind : Nat
  num : Nat
  variant : Nat
  off : Nat := 0
  len : Nat := 0
  masks : List (BitVec 128) := []
  wins : List Nat := []
  cq : Nat := 31
  deriving DecidableEq, Repr

/-- A loaded program (R171 to R175): with its reductions (variant, reduction ID, sending and receiving logical tile, R205) and the
largest HBM4 grants of a window (R340). -/
structure Prog where
  base : Nat := 0
  size : Nat := 0
  windows : Nat := 1
  loopTo : Option Nat := none
  slackMin : Nat := 0
  variants : Nat := 1
  epoch : Nat := 0
  compat : Bool := false
  layers : List LayerSlot := []
  slices : List Slice := []
  sends : List (Nat × Nat × Nat × Nat) := []
  hbmPeak : Nat := 0
  deriving DecidableEq, Repr

/-- A placement entry of a manifest (Table 9.4). -/
structure Place where
  slot : Nat
  ltile : Nat
  array : Nat
  rowBlock : Nat := 0
  colBlock : Nat := 0
  shard : Nat
  offset : Nat
  length : Nat
  dest : Nat
  deriving DecidableEq, Repr

/-- A layer entry of a manifest (Table 9.3). -/
structure ManLayer where
  layer : Nat
  order : Nat
  kind : Nat
  format : Nat
  seg : Nat
  sensitive : Bool
  persistent : Bool
  tw : Word
  rows : Nat := 0
  cols : Nat := 0
  firstPlace : Nat
  placeCount : Nat
  deriving DecidableEq, Repr

/-- A shard entry of a manifest (Table 9.5). -/
structure ManShard where
  length : Nat
  slot : Nat
  digest : BitVec 512
  entry : Bytes := []
  deriving DecidableEq, Repr

/-- A manifest (Table 9.2). -/
structure Manifest where
  bytes : Bytes := []
  encrypted : Bool := false
  epoch : Nat := 0
  keyId : Nat := 0
  layers : List ManLayer := []
  places : List Place := []
  shards : List ManShard := []
  svc : Bytes := []
  nonceBase : Nat := 0
  deriving DecidableEq, Repr

/-- A shard on its way (R263 to R265): the bytes that have arrived by offset, whether it is verified, how often it was asked
for, and whether the module only mirrors it. -/
structure ShardSt where
  num : Nat
  segs : List (Nat × Bytes) := []
  verified : Bool := false
  asked : Nat := 0
  mirror : Bool := false
  deriving DecidableEq, Repr

/-- An image slot (R258): the epoch, the manifest and the images by placement number. -/
structure ImageSlot where
  man : Option Manifest := none
  images : Sparse Bytes := []
  /-- the canary table's entries (R117), one an array image, by placement number -/
  canary : Sparse Bytes := []
  deriving DecidableEq, Repr

/-- A swap in progress (R273 to R279). -/
structure SwapSt where
  epoch : Nat
  coord : Bool := false
  limit : Nat := 1000
  reports : List Nat := []
  done : List Nat := []
  fronts : List Nat := []
  /-- the cutover is fixed (R274), the front has gone, and the window it is tagged with -/
  cutover : Bool := false
  frontWin : Option Nat := none
  drained : List Nat := []
  rewriting : List Nat := []
  /-- layers whose rewrite is verified, to change at the next boundary -/
  change : List Nat := []
  cause : Nat := 0
  rolling : Bool := false
  /-- the layer slot entries before the swap (R279), and the commit has gone out -/
  saved : List LayerSlot := []
  committed : Bool := false
  deriving DecidableEq, Repr

/-- The weights of a partition (chapter 9). -/
structure WgtSt where
  epoch : BitVec 64 := 0
  resident : ImageSlot := {}
  staging : ImageSlot := {}
  mirrorRes : ImageSlot := {}
  mirrorStg : ImageSlot := {}
  stream : Sparse Byte := []
  collect : Bytes := []
  manifest : Option Manifest := none
  shards : List ShardSt := []
  /-- the shards of the resident and its mirror slot -/
  resShards : List ShardSt := []
  staged : List Nat := []
  failed : List (Nat × Nat) := []
  loading : List (Nat × Nat) := []
  swap : Option SwapSt := none
  firstLoad : Bool := false
  /-- the coordinator of the last SWAP_CTRL QUERY -/
  coordSlot : Nat := 0
  /-- the loader reads its images from the resident slot: a restore, a retirement or a rollback -/
  fromResident : Bool := false
  /-- a rewrite has failed (R279) -/
  rewriteFail : Bool := false
  /-- the resident slot is image slot B and mirror slot B (R258) -/
  slotB : Bool := false
  /-- read-backs of a placement's current line that have differed (R270) -/
  tries : List (Nat × Nat) := []
  /-- the service's current epoch, which the restored one is behind (R288) -/
  behind : Option Nat := none
  /-- the module has reported ready after it loaded the service's epoch (R288, R371) -/
  ready : Bool := false
  deriving DecidableEq, Repr

/-- The states of a request (Table 11.3). -/
inductive ReqState where
  | queued | prefill | decode | wait (from_ : Nat) | restart | finish | done
  deriving DecidableEq, Repr

/-- A request at the front module (R312, R320). -/
structure Request where
  tag : Nat
  cmdTag : BitVec 32 := 0
  sender : Nat := 0
  state : ReqState := .queued
  epoch : Nat := 0
  prompt : Bytes := []
  maxTokens : Nat := 0
  deadline : Nat := 0
  start : Nat := 0
  stops : List Bytes := []
  seed : Nat := 0
  temp : Word := 0
  topP : Word := 0
  topK : Nat := 0
  tokens : List Nat := []
  promptLen : Nat := 0
  /-- prompt positions that have passed, those of the step under way with them, and those that had passed before that step (R363) -/
  passed : Nat := 0
  redo : Nat := 0
  outBytes : Bytes := []
  sentBytes : Nat := 0
  outTokens : Nat := 0
  inFlight : Bool := false
  /-- windows that the decode entry under way still stays at a layer module (R318) -/
  stay : Nat := 0
  records : Nat := 0
  endCode : Option Nat := none
  clamps : Nat := 0
  late : Bool := false
  degraded : Bool := false
  restarted : Bool := false
  rolledBack : Bool := false
  cancelled : Bool := false
  held : Bool := false
  pages : Nat := 0
  /-- it is admitted (R317), and its FINAL record is formed (R325) -/
  entered : Bool := false
  closed : Bool := false
  admitted : Nat := 0
  firstRec : Nat := 0
  deriving DecidableEq, Repr

/-- An open service (R310, R311). -/
structure Svc where
  id : Nat
  kind : Nat := 0
  out : Nat := 0
  front : Nat := 0
  last : Nat := 0
  maxActive : Nat := 1
  queueDepth : Nat := 1
  deadline : Nat := 1
  maxContext : Nat := 0
  kvPool : Nat := 0
  opening : Bool := false
  /-- SVC_CLOSE has ended every request, and the service goes with the last of them (R320) -/
  closing : Bool := false
  /-- the service tables (R311) -/
  vocab : Nat := 0
  bos : Nat := 0xFFFFFFFF
  eos : Nat := 0xFFFFFFFF
  batch : Nat := 1
  prefill : Nat := 64
  kvW : Nat := 64
  budget : Nat := 256
  classes : Nat := 0
  pool : Nat := 0
  dict : List (Bytes × Bool) := []
  /-- the stream ring (R325): address, size, WRITE, READ -/
  ringAddr : Nat := 0
  ringSize : Nat := 0
  ringWrite : Nat := 0
  ringRead : Nat := 0
  reqs : List Request := []
  /-- records formed and not yet written: REQ_TAG, flags, bytes -/
  outQ : List (Nat × Nat × Bytes) := []
  /-- records that the mirror holder has acknowledged (R372) -/
  outReady : List (Nat × Nat × Bytes) := []
  passed : List (Nat × Nat) := []
  cancels : List Nat := []
  /-- requests that were active and have ended, with the beat (R369) -/
  ended : List (Nat × BitVec 64) := []
  deriving DecidableEq, Repr

/-- Coalescing of one vector (R344): pending count, contributing classes, timer running. -/
structure IrqSt where
  count : Nat := 0
  classes : Nat := 0
  timer : Bool := false
  deriving DecidableEq, Repr

/-- A share override (R342). -/
structure Override where
  share : Nat
  weight : Nat
  deriving DecidableEq, Repr

/-- A KV pool (R327, R328): pages by index with the request that holds them (slot, tag). -/
structure KvSt where
  pages : Nat := 0
  used : Sparse Nat := []
  data : Sparse Bytes := []
  borrowed : List (Nat × Nat) := []
  asking : List (Nat × Nat) := []
  pageSize : Nat := 36864
  deriving DecidableEq, Repr

/-- A partition (chapter 12). `desc` is the 64-byte descriptor it was created from (Table 12.2). -/
structure PartSt where
  desc : Bytes := []
  share : Nat := 0
  bucketW : Nat := 0
  bucketE : Nat := 0
  override : Option Override := none
  overrideNext : Option (Option Override) := none
  irq : Sparse IrqSt := []
  prog : Option Prog := none
  /-- start window accepted and not begun, program window in force, and a stop asked for -/
  startWin : Option Nat := none
  progWin : Nat := 0
  stopWin : Option Nat := none
  /-- the partition reset in progress: the apply beat of PART_END, and whether it destroys -/
  endAt : Option Nat := none
  resetting : Bool := false
  discard : Bool := false
  wgt : WgtSt := {}
  svcs : List Svc := []
  kv : KvSt := {}
  /-- hold of R363: cause, and whether requests wait -/
  hold : Option Nat := none
  coordHold : Bool := false
  isoLogged : Bool := false
  usable : Bool := true
  hbmGrantW : Nat := 0
  hbmGrantE : Nat := 0
  /-- bursts already served of the requests that wait for the rest (R339), by request -/
  hbmPaid : Sparse Nat := []
  active : Bool := false
  irqOff : Bool := false
  /-- a variant announced for a window (R234) -/
  variantAt : Option (Nat × Nat) := none
  /-- quantiser clamps of the window (R124), and whether scheduled data of it crossed a port on fewer than four lanes (R235) -/
  clamps : Nat := 0
  slow : Bool := false
  deriving DecidableEq, Repr

/-! ## Commands (chapter 10) -/

/-- Who sent a command (R293, R299, R438): the host through bridge function f, or firmware of another slot. -/
inductive Sender where
  | host (fn : Nat) | slot (n : Nat)
  deriving DecidableEq, Repr

/-- The reply to a command (Table 10.2). -/
structure Reply where
  to_ : Sender
  tag : BitVec 32
  status : Nat
  source : Nat
  detail : Nat
  payload : Bytes := []
  deriving DecidableEq, Repr

/-- A command outstanding (R294). -/
structure Outst where
  sender : Sender
  tag : BitVec 32
  part : Nat
  tenant : Nat := 0
  opcode : Nat
  rbuf : Nat := 0
  started : Bool := false
  arg : Nat := 0
  /-- a function level reset drops its reply (R253) -/
  dropped : Bool := false
  deriving DecidableEq, Repr

/-- A command relayed to another slot (R299). -/
structure Relay where
  rtag : Nat
  fn : Nat
  tag : BitVec 32
  slot : Nat
  rbuf : Nat := 0
  dropped : Bool := false
  deriving DecidableEq, Repr

/-- The bridge: what it holds beyond its ring registers. -/
structure BridgeSt where
  outst : List Outst := []
  relays : List Relay := []
  nextTag : Nat := 0
  linkUp : Bool := false
  /-- the vectors that the host has unmasked -/
  msixMask : List (Nat × Nat) := []
  /-- the words that the host has written: of configuration space at 1,024 f + word, of the MSI-X tables at 256 f + word (R249, R251) -/
  config : Sparse Word := []
  msixTable : Sparse Word := []
  msixPend : List (Nat × Nat) := []
  /-- tenants whose interrupts were discarded, logged once a window (R336) -/
  irqLogged : List Nat := []
  deriving DecidableEq, Repr

/-! ## Event log (chapter 13) -/

/-- A log entry (Table 13.6). -/
structure Entry where
  beat : BitVec 64 := 0
  subns : Nat := 0
  source : Nat := 0
  code : Nat := 0
  part : Nat := 0xFF
  flags : Nat := 0
  seq : BitVec 16 := 0
  tag : Nat := 0
  detail : BitVec 64 := 0
  deriving DecidableEq, Repr

/-- An entry of the summary table (R378). -/
structure Summary where
  first : Entry
  count : Nat := 1
  last : BitVec 64 := 0
  deriving DecidableEq, Repr

/-- The event log and the moulin (R377 to R381). -/
structure LogSt where
  ingest : List Entry := []
  /-- written entries, oldest first; the last LOG_FILL.UNDRAINED of them are not drained -/
  ring : List Entry := []
  summary : List Summary := []
  seq : BitVec 16 := 0
  alternate : Bool := false
  /-- records that wait for the host moulin ring: source slot and entry -/
  batch : List (Nat × Entry) := []
  spill : List Entry := []
  /-- the place of the spill ring that the next spilled entry takes -/
  spillNext : Nat := 0
  counts : Sparse Nat := []
  lastWritten : Option Entry := none
  deriving DecidableEq, Repr

/-! ## Power, thermal, supply, converter (chapters 14 and 15) -/

/-- The resets in rank order (R416). -/
inductive ResetKind where
  | powerOn | supply | module | warm | partition | tile | port
  deriving DecidableEq, Repr

/-- Power, pins and resets. -/
structure PwrSt where
  inputGood : Bool := false
  railsOn : Bool := false
  hotSwap : Bool := false
  presA : Bool := false
  presB : Bool := false
  presCount : Bool := false
  island : Bool := false
  cores : Bool := false
  resetPin : Bool := false
  stopped : Bool := false
  hbmRefresh : Bool := false
  holdUp : Bool := false
  recovering : Bool := false
  heldOff : Bool := false
  running : Option ResetKind := none
  heldAt2 : Bool := false
  domWait : List (Nat × Nat) := []
  domRamp : List (Nat × Nat) := []
  oldSet : Option Nat := none
  supplyTimes : List Nat := []
  warned : List Nat := []
  failedModule : Bool := false
  /-- a thaw from Deep runs, until the module is admitted (Table 15.3, R453) -/
  thawing : Bool := false
  ejecting : Bool := false
  ejected : Bool := false
  /-- eject-prepare has passed its second step (R431) -/
  ejectOn : Bool := false
  idleWanted : Bool := false
  keptDescs : List (Nat × Bytes) := []
  /-- a reset by the pin that waits for a debug opening or a firmware activation (R444, R449): 2, as GLB_RST.LAST names it -/
  deferred : List Nat := []
  railArr : Nat := 900
  railSram : Nat := 750
  booted : Bool := false
  admitted : Bool := false
  /-- the failed slot whose role this standby module has taken (R371) -/
  serves : Option Nat := none
  deriving DecidableEq, Repr

/-- A temperature sensor beyond its register (R389, R390, R395). -/
structure SensSt where
  deviant : Nat := 0
  overShut : Nat := 0
  seen : Bool := false
  deriving DecidableEq, Repr

/-- Thermal control (R392, R393): requests computed in the last millisecond (time in µs, percent). -/
structure ThmSt where
  sens : Sparse SensSt := []
  hist : List (Nat × Nat) := []
  deriving DecidableEq, Repr

/-- The housekeeping converter (R404 to R408). Sources: 0 timer, 1 PWM, 2 urgent. -/
structure HkSt where
  scan : Option (Nat × List Nat) := none
  scanNo : Nat := 0
  pendingTrig : Option Nat := none
  conv : Option (Nat × Nat) := none
  urgent : List Nat := []
  fifo : List Word := []
  delays : List Nat := []
  /-- MISSED, FIFO_LOST and URG_REFUSED as they stood at the last window boundary (Table 14.5) -/
  shown : List Nat := [0, 0, 0]
  deriving DecidableEq, Repr

/-! ## Firn and security (chapters 13 and 16) -/

/-- The configuration record (R3, R362): grade, tiles marked bad, reserve, and the repair map's register words by address. -/
structure ConfigRec where
  grade : Nat := 96
  bad : List Nat := []
  reserve : Nat := 4
  repair : Sparse Word := []
  /-- spare wires in use (R204), of input i of router or hub k at 128 k + i -/
  wires : Sparse Nat := []
  pufDigest : BitVec 512 := 0
  helperVersion : Nat := 0
  /-- the record as the firn holds it -/
  bytes : Bytes := []
  deriving DecidableEq, Repr

/-- A firmware image slot (R442). -/
structure FwSlot where
  bytes : Bytes := []
  svn : Nat := 0
  handover : Nat := 0
  deriving DecidableEq, Repr

/-- An operator key (Table 16.2). -/
structure OpKey where
  id : Nat
  usage : Nat
  key : Bytes
  deriving DecidableEq, Repr

/-- A firn image record (R286): the partition and tenant it was made of, and its image slot. -/
structure FirnImage where
  part : Nat := 0
  tenant : Nat := 0
  slot : ImageSlot := {}
  active : Bool := false
  /-- the salt of the image key that the record is encrypted under (R286, R435) -/
  salt : Option (BitVec 256) := none
  deriving DecidableEq, Repr

/-- The firn store. -/
structure FirnSt where
  cfg : ConfigRec := {}
  topo : Topo := {}
  topoNext : Option Topo := none
  topoCollect : Bytes := []
  slotPins : Nat := 0
  /-- installed housekeeping values by register address (R411) -/
  settings : Sparse Word := []
  fwA : FwSlot := {}
  fwB : FwSlot := {}
  fwSel : Nat := 0
  fwCollect : Bytes := []
  opKeys : List OpKey := []
  imageSalt : Option (BitVec 256) := none
  certs : List Bytes := []
  nv : Sparse Bytes := []
  nvSeq : Nat := 0
  images : List FirnImage := []
  erasePending : Bool := false
  deriving DecidableEq, Repr

/-- A key message being collected on a channel (R440). -/
structure KeyMsg where
  chan : Nat
  op : Nat
  frags : Nat
  got : Nat
  bytes : Bytes := []
  deriving DecidableEq, Repr

/-- The security block. -/
structure SecSt where
  tenantKeys : Sparse (BitVec 256) := []
  manKeys : List (Nat × Nat × Bytes) := []
  keyMsgs : List KeyMsg := []
  dbgFails : List Nat := []
  lockout : Bool := false
  erasing : Option (Nat × Nat) := none
  fwRunSvn : Nat := 0
  fallback : Bool := false
  activating : Nat := 0
  handover : Bool := false
  resp : Sparse Word := []
  recovery : Sparse Byte := []
  fuses : Nat := 0
  smbLast : Word := 0
  /-- answers to key messages that wait for their channel (R440): channel, OP, status -/
  answers : List (Nat × Nat × Nat) := []
  /-- writes refused on each secure channel in the window (R304, Table 16.7) -/
  refused : Sparse Nat := []
  deriving DecidableEq, Repr

end Sys2Proof.Machine
end

