-- ==== Sys2Proof/Syntax.lean ====
section
/-! DEFINITION. The commands of the module: one constructor of `Instr` for each row of spec/opcode_table.json, in the table's
order, with the operands its rule names. A command is a write or read of a register, an action of the beat program, a message
or command from outside, or an event of the hardware (the docstring of a constructor cites its rule). The operands are what the
sender of the command decides (an address, a value, a message's fields) and what only the world outside the module decides (a
measured temperature, whether a transfer kept its parity). -/

namespace Sys2Proof

/-- A tile by physical number (R8). -/
abbrev TileN := Fin 96
/-- An array of a tile. -/
abbrev ArrN := Fin 128
/-- A link port. -/
abbrev PortN := Fin 16
/-- A partition. -/
abbrev PartN := Fin 16
/-- A module slot (Table 8.2). -/
abbrev SlotN := Fin 1024
/-- A fabric node: the router of tile t (0 to 95), the West hub (96) and the East hub (97). -/
abbrev NodeN := Fin 98

/-- The fields of a VU slot (R178): destination, sources, BF and LANES - 1; and what the checks of its results say. -/
structure VuArgs where
  vd : Fin 32
  va : Fin 32
  vb : Fin 32
  vc : Fin 32
  bf : Bool
  lanes : Fin 1024
  chk : Machine.Chk
  deriving DecidableEq, Repr

/-- The further fields of QA4 (R178). `off` is the store offset of the operand record. -/
structure QuantArgs where
  l : Byte
  k : Nat
  rr : Bool
  lslot : Fin 64
  seg : Nat
  off : Nat
  deriving DecidableEq, Repr

/-- A tile core instruction's operands (R180): tile, core, rd, rs1, rs2 and imm16; and what its checks say. -/
structure TcArgs where
  t : TileN
  c : Fin 4
  rd : Fin 32
  rs1 : Fin 32
  rs2 : Fin 32
  imm : BitVec 16
  chk : Machine.Chk
  deriving DecidableEq, Repr

/-- The source of a MOV or NET action (R181, R182): lines of the store, or the head of a credit queue. -/
inductive MovSrc where
  | line (addr : Fin 16384)
  | queue (cq : Fin 32)
  deriving DecidableEq, Repr

/-- The operands of RSEND and RSENDI (R182, R205, R208): ADDR, which is the landing offset, and with no `queue` and no `fromArr`
the source too; the source queue with QSRC; the number of lines; with `fromArr` the source is that array's result queue. -/
structure NetArgs where
  addr : Fin 16384
  queue : Option (Fin 32)
  lines : Fin 64
  dest : Fin 96
  rid : Byte
  fromArr : Option ArrN
  deriving DecidableEq, Repr

/-- A MARK payload (Table 8.6). -/
structure Mark where
  beat : BitVec 64
  corr : Word
  now : Byte
  next : Byte
  master : SlotN
  at_ : BitVec 64
  epoch : Byte
  takeover : Bool
  extend : Bool
  extWindow : BitVec 48
  extCount : Byte
  deriving DecidableEq, Repr

/-- What a module sees of a command before its parameters (R291, R298): the sender, the header's fields, whether the sender is
a secure requester by the transport (R438), and the reply buffer's length (R296). -/
structure CmdHdr where
  sender : Machine.Sender
  tenant : Fin 64
  part : PartN
  tag : Word
  flags : BitVec 16
  rbuf : Nat
  deriving DecidableEq, Repr

/-- Who writes or reads a register (R293, R301, R387, R438). A host reaches a function by its BAR0 (`host`), by its BAR2 with the MSI-X
table (`bar2`), and by its configuration space (`config`), each at a byte offset (R249 to R251). -/
inductive Requester where
  | core
  | host (fn : Fin 64)
  | bar2 (fn : Fin 64)
  | config (fn : Fin 64)
  | tileCore (t : TileN)
  | smbus
  deriving DecidableEq, Repr

/-- The commands. -/
inductive Instr where
  /-- POWER_ON (R428). Input power first stays above 42 V and the module runs its power-on sequence, from boot to domain join. -/
  | powerOn
  /-- PRESENCE_MADE (R466). Both presence contacts have stayed made for 100 ms, so the hot-swap switch closes and power-on starts. -/
  | presenceMade
  /-- PRESENCE_BREAK (R466). A presence contact breaks for longer than 1 µs after the switch has closed, so the switch opens and the module acts as on input loss. -/
  | presenceBreak
  /-- RESET_N (R417). RESET_N is held low for 1 µs or more and starts a module reset. -/
  | resetN
  /-- WAKE_N (R425). WAKE_N is held low for 1 ms or more and ends Deep. -/
  | wakeN
  /-- INPUT_LOSS (R401). The 48 V input stays below 38 V for 1 µs, so the units stop, the rails turn off and a KIND 3 NV record is written. -/
  | inputLoss (code : BitVec 12)
  /-- INPUT_RECOVERY (R401). The input rises above 42 V while the hold-up bank still powers the island, and the module enters supply-reset recovery. -/
  | inputRecovery
  /-- SUPPLY_WARNING (R398). A rail warning comparator fires, which sets the supply stretch request, starts the minimum detector and stops repair and AVS changes. -/
  | supplyWarning (rail : Fin 3) (mv : BitVec 12)
  /-- SUPPLY_WARNING_RELEASE (R399). Every warned rail rises above WARN_PCT + 1 % with no reset comparator fired, and the 1 ms hold begins. -/
  | supplyWarningRelease (minCore minArr minSram : BitVec 12)
  /-- SUPPLY_HOLD_END (R399). The 1 ms supply hold expires, the supply request returns to 0 and 0x0F0F is logged. -/
  | supplyHoldEnd
  /-- SUPPLY_RESET (R400). A rail reset comparator fires, so the units stop, a KIND 2 NV record is written, the rails turn off and recovery begins. -/
  | supplyReset (rail : Fin 3) (minMv : BitVec 12) (timeUs : Nat)
  /-- SUPPLY_RESET_RECOVERY (R420). The input and the rail comparators have been good for 10 ms, so the rails power up again and module-reset steps 2 to 5 run. -/
  | supplyResetRecovery
  /-- SENSOR_SAMPLE (R389). A temperature sensor takes a sample at its current rate, and the sample is cross-checked against its neighbours. -/
  | sensorSample (k : Fin 112) (reading : BitVec 12) (timeUs : Nat)
  /-- REQ_KEEPALIVE (R370). Eight mark intervals have passed without a REQ, so the module sends a REQ to the masters. -/
  | reqKeepalive
  /-- PWR_DOM_REQ_WRITE (R386). Control-core firmware writes a domain's REQ, and the domain starts switching off, to retain or on, at most four ramping at once. -/
  | pwrDomReqWrite (k : Fin 72) (req : Fin 4) (core : Bool)
  /-- DOMAIN_SWITCH_DONE (R386). A power domain completes its mode change, and a waiting domain may start to ramp. -/
  | domainSwitchDone (k : Fin 72)
  /-- HK_TIMER_EXPIRY (R404). The housekeeping scan timer fires, and a scan starts or becomes pending. -/
  | hkTimerExpiry
  /-- PWM_EVENT (R404). An enabled regulator PWM event starts its trigger delay, or is counted missed while a delay runs. -/
  | pwmEvent (k : Fin 16)
  /-- PWM_DELAY_EXPIRY (R404). A PWM trigger delay ends, and the trigger fires a scan or makes one pending. -/
  | pwmDelayExpiry (k : Fin 16)
  /-- HK_CONVERSION_DONE (R407). A 1 µs conversion completes; HK_VALUE and the FIFO are updated and the bound comparators evaluate it. -/
  | hkConversionDone (code : BitVec 12)
  /-- HK_URGENT_WRITE (R406). A write to HK_URGENT queues an urgent conversion of one channel, or is refused when 4 are queued. -/
  | hkUrgentWrite (ch : Fin 64)
  /-- HK_FIFO_READ (R407). A read of HK_FIFO pops the oldest conversion entry. -/
  | hkFifoRead
  /-- HK_CMP_WRITE (R408). A write to HK_CMPc_BND or HK_CMPc_CFG returns the comparator to state inside. -/
  | hkCmpWrite (c : Fin 16) (cfg : Bool) (w : Word)
  /-- THM_CFG_WRITE (R412). The thermal thresholds are written and checked, and an invalid write is ignored with CFG_ERR set. -/
  | thmCfgWrite (w : Word)
  /-- SUP_CFG_WRITE (R412). The supply thresholds are written and checked, and an invalid write is ignored with CFG_ERR set. -/
  | supCfgWrite (w : Word)
  /-- PWR_INSTALL_SAVE (R411). Writing SAVE copies the housekeeping fields in force into the firn settings block as the new installed values. -/
  | pwrInstallSave
  /-- CADENCE_RELEASE (R163). The cadence releases the next domain beat, the beat count advances and the sequencers may advance. -/
  | cadenceRelease
  /-- BEAT_WORD_ISSUE (R164). Every action of a beat word can issue, and they all issue together in that beat. -/
  | beatWordIssue (t : TileN)
  /-- WINDOW_BOUNDARY (R168). A window ends and the next begins; every per-window action of the module and of its units takes place. -/
  | windowBoundary (margin : Nat)
  /-- STRETCH_CHANGE (R157). The announced STRETCH_AT beat arrives, and the new stretch takes effect in every module. -/
  | stretchChange
  /-- GLB_TMAP_CTRL_ARM (R186). Firmware arms the staged tile map, or the write sets ERR when it breaks the map rules. -/
  | glbTmapCtrlArm (w : Word)
  /-- TILE_TC_ENTRY_WRITE (R180). A write of a free-mode entry offset starts or restarts the core there. -/
  | tileTcEntryWrite (t : TileN) (k : Fin 4) (w : Word)
  /-- PROGRAM_START (R189). Every program buffer holds its first window, and the partition issues position 0 of the start window. -/
  | programStart (n : PartN)
  /-- MUL (R40). Every masked array starts multiplying its operand queue head, segment by segment and phase by phase. -/
  | mul (t : TileN) (mask : BitVec 128) (lslot : Fin 64) (acc net : Bool)
  /-- CONVERSION_END (R32). A 2-beat conversion ends, and its codes or guard saturation are produced for correction and snap. -/
  | conversionEnd (t : TileN) (a : ArrN)
  /-- SEGMENT_CLOSE (R105). A segment's phase H is shift-added; offset removal, the confidence check and promotion follow. -/
  | segmentClose (t : TileN) (a : Machine.ArrEnd)
  /-- SCALE_LINE_RESTORED (R50). The restored scale line is verified and the held segment is promoted. -/
  | scaleLineRestored (t : TileN) (a : ArrN)
  /-- ARBITRATION_DONE (R110). The DE's exact values arrive, the results are compared, and the segment is promoted from them. -/
  | arbitrationDone (t : TileN) (a : Machine.ArrEnd)
  /-- SPARE_LIVE (R66). A spare finishes its fill and verify pass and goes live at a beat boundary. -/
  | spareLive (t : TileN) (a : ArrN) (k : Fin 64)
  /-- SPARE_ASSIGN (R70). A write of VALID from 0 to 1 to ARR_SPARE_MAPk starts the copy to the spare. -/
  | spareAssign (t : TileN) (a : ArrN) (k : Fin 64) (w : Word)
  /-- SPARE_RELEASE (R70). A write of 0 to VALID releases the spare and ends its cover. -/
  | spareRelease (t : TileN) (a : ArrN) (k : Fin 64)
  /-- ROW_PORT_ACCESS (R57). A waiting row port access is served after the segment's conversions, in priority order. -/
  | rowPortAccess (t : TileN) (a : ArrN)
  /-- ARR_PORT_READ_ROW (R56). ARR_PORT_CMD OP 1 reads a row into the port data registers. -/
  | arrPortReadRow (t : TileN) (a : ArrN) (row : Fin 1024)
  /-- ARR_PORT_WRITE_ROW (R56). ARR_PORT_CMD OP 2 writes a row from the port data registers. -/
  | arrPortWriteRow (t : TileN) (a : ArrN) (row : Fin 1024)
  /-- ARR_PORT_READ_SCALE_LINE (R60). ARR_PORT_CMD OP 3 reads a scale file line. -/
  | arrPortReadScaleLine (t : TileN) (a : ArrN) (line : Fin 32)
  /-- ARR_PORT_WRITE_SCALE_LINE (R60). ARR_PORT_CMD OP 4 writes a scale file line. -/
  | arrPortWriteScaleLine (t : TileN) (a : ArrN) (line : Fin 32)
  /-- ARR_CFG_WRITE (R69). ARR_CFG is written; the write is ignored and counted as a mismatch while work is pending. -/
  | arrCfgWrite (t : TileN) (a : ArrN) (w : Word)
  /-- SCRUB_READ (R61). Every 256 beats, or every 2 after reset, the scrub reads the next row and checks parity and the check value. -/
  | scrubRead (t : TileN) (a : ArrN)
  /-- SUSPECT_ROW_REWRITTEN (R62). A suspect row is rewritten from its source and verified, and conversions resume. -/
  | suspectRowRewritten (t : TileN) (a : ArrN) (row : Fin 1024)
  /-- CAL (R111). The CAL action runs one calibration set in every masked array. -/
  | cal (t : TileN) (mask : BitVec 128)
  /-- CAL_INTERVAL_END (R112). A calibration interval ends without a reserved slot, and a set is inserted as elastic time. -/
  | calIntervalEnd (t : TileN) (a : ArrN)
  /-- FORCED_CAL_SET_INSERT (R115). Every 128 beats of a forced calibration, a set is inserted ahead of waiting conversions. -/
  | forcedCalSetInsert (t : TileN) (a : ArrN)
  /-- INITIAL_CALIBRATION_DONE (R114). An array completes its initial calibration and sets CAL_VALID. -/
  | initialCalibrationDone (t : TileN) (a : ArrN)
  /-- CANARY_INTERVAL (R116). An array's canary interval is reached, and its canary is scheduled. -/
  | canaryInterval (t : TileN) (a : ArrN)
  /-- CANARY_MULTIPLY (R118). One canary multiply runs as elastic time; after four, the canary is judged. -/
  | canaryMultiply (t : TileN) (a : ArrN)
  /-- TILE_STORE_WORD_RESTORED (R131). A restored word is written and the waiting read is repeated. -/
  | tileStoreWordRestored (t : TileN) (word : Fin 1048576)
  /-- TILE_STORE_SCRUB (R132). Every 256 beats, the store scrub reads the next line of the program buffer or DE region. -/
  | tileStoreScrub (t : TileN)
  /-- TILE_REGION_WRITE (R129). The tile store regions are rewritten while the sequencer is stopped, or the write is refused with REGION_ERR. -/
  | tileRegionWrite (t : TileN) (w : Word)
  /-- PAGE_CACHE_FILL (R133). A missed HBM4 line arrives, is allocated, and the chunk is copied. -/
  | pageCacheFill (t : TileN) (line : Nat)
  /-- PF_CTRL_PUSH (R135). A staged descriptor is enqueued, or refused when the queue is full. -/
  | pfCtrlPush (t : TileN) (p : Fin 16)
  /-- PF_CTRL_STOP (R139). The prefetcher stops issuing and discards its descriptors. -/
  | pfCtrlStop (t : TileN) (p : Fin 16)
  /-- DESCRIPTOR_START (R136). A prefetcher takes its next descriptor and checks it, refusing and logging an invalid one. -/
  | descriptorStart (t : TileN) (p : Fin 16)
  /-- CHUNK_ISSUE (R137). A prefetcher with a credit issues a chunk, which moves one slot to INFLIGHT. -/
  | chunkIssue (t : TileN) (p : Fin 16)
  /-- CHUNK_LAND (R137). A chunk lands, is parity-checked and becomes READY in issue order. -/
  | chunkLand (t : TileN) (p : Fin 16) (num : Nat) (ok : Bool)
  /-- CQ_CFG_WRITE (R137). A queue depth is written while the queue is idle; other writes are ignored. -/
  | cqCfgWrite (t : TileN) (k : Fin 32) (w : Word)
  /-- DE_LOADW (R141). A weight block record is loaded into a DE buffer. -/
  | deLoadw (t : TileN) (cls : Fin 4) (buf : Bool) (line : Fin 16384)
  /-- DE_RUN (R142). Runs from a credit queue pass the DE multiply array with residue checks and promotion into the wide file. -/
  | deRun (t : TileN) (cls : Fin 4) (buf : Bool) (lslot : Fin 64) (vbase : Fin 64) (nruns : Fin 64) (cq : Fin 32) (chk : Machine.Chk)
  /-- DE_DRAIN (R143). Wide file vectors are written to the tile store. -/
  | deDrain (t : TileN) (cls : Fin 4) (vbase : Fin 64) (nvec : Fin 64) (line : Fin 16384)
  /-- DE_CLEAR (R177). Wide file vectors are set to +0.0. -/
  | deClear (t : TileN) (cls : Fin 4) (vbase : Fin 64)
  /-- VU_FMA (R178). VU fused multiply-add in bf16 or binary32. -/
  | vuFma (t : TileN) (o : VuArgs)
  /-- VU_ADD (R178). VU floating add. -/
  | vuAdd (t : TileN) (o : VuArgs)
  /-- VU_MUL (R178). VU floating multiply. -/
  | vuMul (t : TileN) (o : VuArgs)
  /-- VU_MIN (R178). VU floating minimum. -/
  | vuMin (t : TileN) (o : VuArgs)
  /-- VU_MAX (R178). VU floating maximum. -/
  | vuMax (t : TileN) (o : VuArgs)
  /-- VU_SUB (R178). VU floating subtract. -/
  | vuSub (t : TileN) (o : VuArgs)
  /-- VU_IADD (R178). VU 32-bit integer add. -/
  | vuIadd (t : TileN) (o : VuArgs)
  /-- VU_ISUB (R178). VU 32-bit integer subtract. -/
  | vuIsub (t : TileN) (o : VuArgs)
  /-- VU_AND (R178). VU bitwise AND. -/
  | vuAnd (t : TileN) (o : VuArgs)
  /-- VU_OR (R178). VU bitwise OR. -/
  | vuOr (t : TileN) (o : VuArgs)
  /-- VU_XOR (R178). VU bitwise XOR. -/
  | vuXor (t : TileN) (o : VuArgs)
  /-- VU_SHL (R178). VU shift left. -/
  | vuShl (t : TileN) (o : VuArgs)
  /-- VU_SHR (R178). VU logical shift right. -/
  | vuShr (t : TileN) (o : VuArgs)
  /-- VU_SRA (R178). VU arithmetic shift right. -/
  | vuSra (t : TileN) (o : VuArgs)
  /-- VU_CMPLT (R178). VU integer compare less-than. -/
  | vuCmplt (t : TileN) (o : VuArgs)
  /-- VU_CMPEQ (R178). VU integer compare equal. -/
  | vuCmpeq (t : TileN) (o : VuArgs)
  /-- VU_SEL (R178). VU lane select. -/
  | vuSel (t : TileN) (o : VuArgs)
  /-- VU_IMUL (R178). VU 32-bit integer low product. -/
  | vuImul (t : TileN) (o : VuArgs)
  /-- VU_CVT16 (R89). VU conversion of binary32 to bf16. -/
  | vuCvt16 (t : TileN) (o : VuArgs)
  /-- VU_CVT32 (R89). VU conversion of bf16 to binary32. -/
  | vuCvt32 (t : TileN) (o : VuArgs)
  /-- VU_CVTI2F (R178). VU conversion of integer to binary32. -/
  | vuCvti2f (t : TileN) (o : VuArgs)
  /-- VU_CVTF2I (R178). VU conversion of binary32 to int32, rounding to nearest with saturation. -/
  | vuCvtf2i (t : TileN) (o : VuArgs)
  /-- QA4 (R83). A vector is quantised to A4 blocks with outlier descriptors and a residual, written as an operand record. -/
  | qa4 (t : TileN) (o : VuArgs) (q : QuantArgs)
  /-- QA8 (R473). A vector is quantised to A8 runs with one scale per 64 elements and written as DE runs. -/
  | qa8 (t : TileN) (o : VuArgs) (lslot : Fin 64) (off : Nat)
  /-- VU_EXP2 (R147). VU exp2 function. -/
  | vuExp2 (t : TileN) (o : VuArgs)
  /-- VU_LOG2 (R147). VU log2 function. -/
  | vuLog2 (t : TileN) (o : VuArgs)
  /-- VU_RECIP (R147). VU reciprocal. -/
  | vuRecip (t : TileN) (o : VuArgs)
  /-- VU_RSQRT (R147). VU reciprocal square root. -/
  | vuRsqrt (t : TileN) (o : VuArgs)
  /-- VU_SQRT (R147). VU square root. -/
  | vuSqrt (t : TileN) (o : VuArgs)
  /-- VU_SIN (R147). VU sine. -/
  | vuSin (t : TileN) (o : VuArgs)
  /-- VU_COS (R147). VU cosine. -/
  | vuCos (t : TileN) (o : VuArgs)
  /-- VU_TANH (R147). VU hyperbolic tangent. -/
  | vuTanh (t : TileN) (o : VuArgs)
  /-- VU_RSUM (R148). VU cross-lane sum by a fixed pairwise tree. -/
  | vuRsum (t : TileN) (o : VuArgs)
  /-- VU_RMAX (R148). VU cross-lane maximum. -/
  | vuRmax (t : TileN) (o : VuArgs)
  /-- VU_RMIN (R148). VU cross-lane minimum. -/
  | vuRmin (t : TileN) (o : VuArgs)
  /-- VU_PSUM (R148). VU prefix sum in ascending lane order. -/
  | vuPsum (t : TileN) (o : VuArgs)
  /-- VU_PERM (R178). VU lane permute by indices in VB. -/
  | vuPerm (t : TileN) (o : VuArgs)
  /-- VU_SORT (R178). VU descending sort by key, with the lane index as payload. -/
  | vuSort (t : TileN) (o : VuArgs)
  /-- VU_RAND (R323). VU evaluates the sampling generator for keys and counters per lane pair. -/
  | vuRand (t : TileN) (o : VuArgs)
  /-- VU_LD (R178). VU loads a vector register from the tile store. -/
  | vuLd (t : TileN) (o : VuArgs) (off : Nat)
  /-- VU_ST (R178). VU stores a vector register to the tile store. -/
  | vuSt (t : TileN) (o : VuArgs) (off : Nat)
  /-- VU_LDB (R178). VU loads one element and broadcasts it to all lanes. -/
  | vuLdb (t : TileN) (o : VuArgs) (off : Nat)
  /-- TC_NOP (R180). Tile core no operation. -/
  | tcNop (r : TcArgs)
  /-- TC_ADD (R180). Tile core register add. -/
  | tcAdd (r : TcArgs)
  /-- TC_SUB (R180). Tile core register subtract. -/
  | tcSub (r : TcArgs)
  /-- TC_AND (R180). Tile core bitwise AND. -/
  | tcAnd (r : TcArgs)
  /-- TC_OR (R180). Tile core bitwise OR. -/
  | tcOr (r : TcArgs)
  /-- TC_XOR (R180). Tile core bitwise XOR. -/
  | tcXor (r : TcArgs)
  /-- TC_SHL (R180). Tile core shift left. -/
  | tcShl (r : TcArgs)
  /-- TC_SHR (R180). Tile core logical shift right. -/
  | tcShr (r : TcArgs)
  /-- TC_SRA (R180). Tile core arithmetic shift right. -/
  | tcSra (r : TcArgs)
  /-- TC_SLT (R180). Tile core signed set-less-than. -/
  | tcSlt (r : TcArgs)
  /-- TC_SLTU (R180). Tile core unsigned set-less-than. -/
  | tcSltu (r : TcArgs)
  /-- TC_MUL (R180). Tile core low 32 bits of the signed product. -/
  | tcMul (r : TcArgs)
  /-- TC_MULH (R180). Tile core high 32 bits of the signed product. -/
  | tcMulh (r : TcArgs)
  /-- TC_ADDI (R180). Tile core add immediate. -/
  | tcAddi (r : TcArgs)
  /-- TC_ANDI (R180). Tile core AND with a zero-extended immediate. -/
  | tcAndi (r : TcArgs)
  /-- TC_ORI (R180). Tile core OR with a zero-extended immediate. -/
  | tcOri (r : TcArgs)
  /-- TC_LUI (R180). Tile core load upper immediate. -/
  | tcLui (r : TcArgs)
  /-- TC_LD (R180). Tile core loads a store word. -/
  | tcLd (r : TcArgs)
  /-- TC_ST (R180). Tile core stores a store word. -/
  | tcSt (r : TcArgs)
  /-- TC_RDR (R180). Tile core reads an own-tile register. -/
  | tcRdr (r : TcArgs)
  /-- TC_WRR (R180). Tile core writes an own-tile register. -/
  | tcWrr (r : TcArgs)
  /-- SYNOP (R308). Tile core synchronisation operation on a local object, or a remote one through SYNC_REMOTE. -/
  | synop (r : TcArgs)
  /-- PFPUSH (R180). Tile core pushes a 28-byte descriptor to a prefetcher. -/
  | pfpush (r : TcArgs)
  /-- TC_BEQ (R180). Free-mode branch if equal. -/
  | tcBeq (r : TcArgs)
  /-- TC_BNE (R180). Free-mode branch if not equal. -/
  | tcBne (r : TcArgs)
  /-- TC_BLT (R180). Free-mode branch if less. -/
  | tcBlt (r : TcArgs)
  /-- TC_BGE (R180). Free-mode branch if greater or equal. -/
  | tcBge (r : TcArgs)
  /-- TC_JAL (R180). Free-mode jump and link. -/
  | tcJal (r : TcArgs)
  /-- TC_JR (R180). Free-mode jump to a register. -/
  | tcJr (r : TcArgs)
  /-- TC_HALT (R180). Free-mode core stops until its entry register is written again. -/
  | tcHalt (r : TcArgs)
  /-- TC_REFUSED_OP (R180). A free-mode core meets a refused opcode, stops and logs an event. -/
  | tcRefusedOp (t : TileN) (c : Fin 4)
  /-- AOPND (R181). An operand record is copied to the operand queues of the masked arrays. -/
  | aopnd (t : TileN) (src : MovSrc) (mask : BitVec 128)
  /-- ARES (R181). An array's result queue head is drained to the store and its result entry freed. -/
  | ares (t : TileN) (a : ArrN) (line : Fin 16384)
  /-- XFER (R181). Lines are copied within the tile store. -/
  | xfer (t : TileN) (src : MovSrc) (lines : Fin 64) (dst : Fin 16384)
  /-- HST (R181). Lines are written to HBM4 as a commit boundary. -/
  | hst (t : TileN) (src : MovSrc) (lines : Fin 64) (off : Word)
  /-- PFQ (R181). A descriptor is enqueued to a prefetcher. -/
  | pfq (t : TileN) (line : Fin 16384) (p : Fin 16)
  /-- RSEND (R206). fp32 partial sums are sent for in-network reduction. -/
  | rsend (t : TileN) (a : NetArgs)
  /-- RSENDI (R206). int32 partial sums are sent for in-network reduction. -/
  | rsendi (t : TileN) (a : NetArgs)
  /-- LSEND (R230). Data is sent on a link stream in the scheduled data class, tagged with the window. -/
  | lsend (t : TileN) (src : MovSrc) (lines : Fin 64) (p : PortN) (stream : BitVec 16)
  /-- LSENDC (R182). Data is sent on a link stream in the credited data class. -/
  | lsendc (t : TileN) (src : MovSrc) (lines : Fin 64) (p : PortN) (stream : BitVec 16)
  /-- SIGNAL (R307). Adds VALUE to a counting semaphore. -/
  | signal (t : TileN) (obj value : BitVec 14)
  /-- WAIT (R307). Issues when the semaphore count reaches VALUE, and subtracts it. -/
  | wait (t : TileN) (obj value : BitVec 14)
  /-- ARRIVE (R307). Adds arrivals to a barrier and flips its phase when complete. -/
  | arrive (t : TileN) (obj value : BitVec 14)
  /-- BWAIT (R307). Issues when the barrier phase differs from VALUE bit 0. -/
  | bwait (t : TileN) (obj value : BitVec 14)
  /-- ESET (R307). Sets an event object. -/
  | eset (t : TileN) (obj value : BitVec 14)
  /-- ECLR (R307). Clears an event object. -/
  | eclr (t : TileN) (obj value : BitVec 14)
  /-- EWAIT (R307). Issues when the event object is set. -/
  | ewait (t : TileN) (obj value : BitVec 14)
  /-- CNRY (R184). The next pending canary multiply of each masked array runs now. -/
  | cnry (t : TileN) (mask : BitVec 128)
  /-- CMPW (R184). Two store words are compared and a mismatch is logged. -/
  | cmpw (t : TileN) (off : BitVec 21)
  /-- CQCHK (R184). An event is logged when a queue's READY count differs from EXPECT. -/
  | cqchk (t : TileN) (cq : Fin 32) (expect : BitVec 8)
  /-- CHK_MARK (R184). An information entry carrying CODE is written to the log. -/
  | chkMark (t : TileN) (code : BitVec 16)
  /-- LINK_ENGINE_GRANT (R185). A link engine slot grants a stream a number of flits in its beat. -/
  | linkEngineGrant (p : PortN) (stream : BitVec 16) (flits : BitVec 8) (n : PartN)
  /-- HBM_ENGINE_GRANT (R185). An HBM engine slot grants a partition bursts in its beat. -/
  | hbmEngineGrant (c : Fin 2) (n : PartN) (bursts : BitVec 12)
  /-- FLIT_RECEIVE (R202). A fabric flit arrives at a buffer, is parity-checked, routed or ejected, and its credit returned. -/
  | flitReceive (node : NodeN) (dir : Fin 5) (f : Machine.Flit) (ok : Bool)
  /-- REDUCTION_ADD (R206). Flit j is present at every named input, and the router adds and forwards one flit. -/
  | reductionAdd (t : TileN) (rid : BitVec 8) (chk : Machine.Chk)
  /-- REDUCTION_LANDING (R208). Once the landing object is 0, a round's flits are written and the object is signalled. -/
  | reductionLanding (t : TileN) (rid : BitVec 8)
  /-- APPLY_BEAT (R214). The apply beat of a rime message is reached and its effect takes place in every node. -/
  | applyBeat
  /-- FREEZE (R462). A rime FREEZE arrives, naming the beat at which the counters stop. -/
  | freeze (b : BitVec 64)
  /-- SNAPSHOT (R462). A rime SNAPSHOT arrives, naming the beat at which the counters are copied to their shadows. -/
  | snapshot (b : BitVec 64)
  /-- UNFREEZE (R462). A rime UNFREEZE arrives, naming the beat at which the counters resume. -/
  | unfreeze (b : BitVec 64)
  /-- PART_BEGIN (R212). A rime PART_BEGIN arrives; at its apply beat the partition's flits and contexts are discarded. -/
  | partBegin (n : PartN) (b : BitVec 64)
  /-- PART_END (R212). A rime PART_END arrives; at its apply beat the partition's traffic is accepted again. -/
  | partEnd (n : PartN) (b : BitVec 64)
  /-- TILE_RESET (R419). A rime TILE_RESET arrives; at its apply beat the tile resets and its store is zeroed. -/
  | tileReset (t : TileN) (b : BitVec 64)
  /-- FAULT (R213). A rime FAULT delivers a code and detail to the log and the control complex. -/
  | fault (src : Byte) (n : PartN) (code detail : BitVec 16)
  /-- LATE (R365). A rime LATE reports a tile overrun, and firmware sends one class-4 LATE to both masters. -/
  | late (t : TileN) (window : Word)
  /-- CADENCE (R243). A rime CADENCE carries a received mark's domain beat and stretch to the nodes. -/
  | cadence (beat : BitVec 64) (pct : Byte)
  /-- STRETCH (R213). A rime STRETCH delivers a stretch request to the cadence generator. -/
  | stretch (pct : Byte)
  /-- SYNC (R306). A rime SYNC reaches the object's home, is applied in source order, and waiting conditions are re-evaluated. -/
  | sync (src : Byte) (n : PartN) (op : BitVec 4) (obj value : BitVec 14)
  /-- SYNC_ACK (R306). A rime SYNC_ACK reaches a waiting issuer and lets its operation issue. -/
  | syncAck (t : TileN) (obj : BitVec 14)
  /-- EVENT (R213). A rime EVENT delivers a MARK code or an information entry to the log. -/
  | event (src : Byte) (n : PartN) (code : BitVec 16)
  /-- RIME_UNKNOWN_TYPE (R213). A rime message of undefined TYPE is discarded and logged. -/
  | rimeUnknownType (src : Byte) (type : BitVec 6)
  /-- LINK_FLIT_RECEIVE (R227). A link flit arrives and is accepted, or discarded on a parity failure or sequence gap, and its credit return is read. -/
  | linkFlitReceive (p : PortN) (f : Machine.LFlit) (fec : Machine.FecNote)
  /-- LINK_FLIT_SEND (R229). At each flit slot the port sends the highest-priority ready flit that holds a credit. -/
  | linkFlitSend (p : PortN)
  /-- INIT (R247). A link-control INIT arrives; N and L are compared and the port comes up or stays down. -/
  | init (p : PortN) (slot : SlotN) (pools : List Nat) (n l256 : Nat)
  /-- REPLAY (R227). A link-control REPLAY arrives; the sender resends from the named flit. -/
  | replay (p : PortN) (seq : BitVec 16)
  /-- REPLAY_REPEAT_TIMER (R227). Every 64 flit times until the expected flit arrives, REPLAY is sent again. -/
  | replayRepeatTimer (p : PortN)
  /-- ECHO (R228). A link-control ECHO arrives and is answered with ECHO_REPLY. -/
  | echo (p : PortN) (count : BitVec 64) (resPs : BitVec 64)
  /-- ECHO_REPLY (R247). An ECHO_REPLY arrives and gives one hop latency measurement. -/
  | echoReply (p : PortN) (count resPs arrival : BitVec 64)
  /-- LANES (R233). A proposed lane set arrives, is answered with LANES_ACK, and both ends deskew. -/
  | lanes (p : PortN) (mask : BitVec 4)
  /-- LANES_ACK (R233). The accepted lane set arrives, and the port resumes on it. -/
  | lanesAck (p : PortN) (mask : BitVec 4)
  /-- LINK_DRAIN (R256). A link-control DRAIN arrives; the peer sends no more sequenced flits until INIT. -/
  | linkDrain (p : PortN)
  /-- LANE_FAIL (R232). A lane meets a failing condition, and the port changes to a smaller lane set. -/
  | laneFail (p : PortN) (lanes : BitVec 4)
  /-- LAST_LANE_RETRAIN_TIMEOUT (R236). A port whose last lane failed has not come up within 10 ms, so it is failed and the module is failed. -/
  | lastLaneRetrainTimeout (p : PortN)
  /-- PORT_RESET (R256). PORT_CFG.RESET is written and the port sends DRAIN and waits for acknowledgements. -/
  | portReset (p : PortN)
  /-- DRAIN_WAIT_END (R256). Every flit is acknowledged or 100 µs pass; the port clears its state, retrains and exchanges INIT. -/
  | drainWaitEnd (p : PortN)
  /-- MARK_SEND (R243). At every multiple of 512 domain beats, the master sends a MARK on every used port. -/
  | markSend
  /-- MARK_RECEIVE (R244). A MARK arrives; the phase error is measured and corrected, and alignment is judged. -/
  | markReceive (m : Mark) (arrivalPs : Int)
  /-- MARK_LOSS (R244). No valid MARK arrives for 8 mark intervals, and the module leaves the domain. -/
  | markLoss
  /-- REQ_RECEIVE (R245). The master records a slot's stretch request and announces STRETCH_NEXT and STRETCH_AT when the largest one changes. -/
  | reqReceive (slot : SlotN) (pct : Byte) (beat : BitVec 64)
  /-- CADENCE_LATE (R366). A class-4 LATE reaches the master, which announces or raises a window extension. -/
  | cadenceLate (slot : SlotN) (window : BitVec 64) (lag : Word) (supply : Bool)
  /-- MASTER_TAKEOVER (R246). The standby master has had no MARK for 3 intervals and takes over with a higher epoch. -/
  | masterTakeover
  /-- SILENT_SLOT (R370). No class-4 flit has come from a slot for 16 mark intervals, so the master declares it failed. -/
  | silentSlot (slot : SlotN)
  /-- DOMAIN_JOIN_TIMEOUT (R247). A slot has not reported within 2 s of the first mark and is left out. -/
  | domainJoinTimeout (slot : SlotN)
  /-- TOPO_INFO_TIMEOUT (R241). No TOPO_INFO arrives within 100 ms, and the module joins with its own table. -/
  | topoInfoTimeout
  /-- SYNC_REMOTE (R308). A remote synchronisation operation arrives and is applied or discarded. -/
  | syncRemote (slot : SlotN) (n : PartN) (obj : BitVec 14) (op : Byte) (value : Word)
  /-- MBX_MSG (R302). A mailbox message arrives from a peer, fills RECV_DATA and sets FLAG. -/
  | mbxMsg (slot : SlotN) (c : Fin 32) (data : List Word)
  /-- MBX_DONE (R302). A mailbox acknowledgement arrives and clears the sender's GO. -/
  | mbxDone (slot : SlotN) (c : Fin 32)
  /-- IRQ_RAISE (R345). The bridge receives an interrupt raise, orders it after earlier writes, sets the cause bits and sends MSI-X. -/
  | irqRaise (slot : SlotN) (tenant : Fin 64) (n : PartN) (v : Fin 16) (classes : BitVec 6)
  /-- TOPO_QUERY (R241). The bridge receives a topology query and answers it with TOPO_INFO. -/
  | topoQuery (slot : SlotN) (epoch : Word) (off max : Nat)
  /-- TOPO_INFO (R241). Topology information arrives; a newer table is fetched, verified, stored and bring-up restarts. -/
  | topoInfo (epoch : Word) (total off : Nat) (data : Bytes)
  /-- ECHO_E2E (R247). An end-to-end echo arrives and is answered with ECHO_E2E_REPLY. -/
  | echoE2e (slot : SlotN) (count resPs : BitVec 64)
  /-- ECHO_E2E_REPLY (R247). An end-to-end echo reply arrives and gives a pair latency measurement. -/
  | echoE2eReply (slot : SlotN) (count resPs arrival : BitVec 64)
  /-- JOIN (R247). A master receives a JOIN and sends DOMAIN_RUN once every present slot has joined. -/
  | join (slot : SlotN) (epoch : Word) (aligned mismatch : Bool)
  /-- DOMAIN_RUN (R247). A module receives DOMAIN_RUN and the domain runs. -/
  | domainRun (beat : BitVec 64) (leftOut : List Nat)
  /-- LANE_REPORT (R234). A master receives a lane change report and announces any degraded-timing variant. -/
  | laneReport (slot : SlotN) (p : PortN) (mask : BitVec 4) (beat : BitVec 64)
  /-- VARIANT (R234). A module receives a variant announcement and writes VARIANT_NEXT in time. -/
  | variant (n : PartN) (v : Fin 4) (window : BitVec 64)
  /-- SHARD_SEG (R263). A shard segment lands, is decrypted and stored; the last segment triggers the shard checks. -/
  | shardSeg (n : PartN) (shard : Word) (off : Nat) (epoch : Word) (data : Bytes)
  /-- SHARD_REQ (R265). A shard request arrives and the shard or segment is sent again. -/
  | shardReq (slot : SlotN) (n : PartN) (shard : Word) (off len : Nat) (epoch : Word)
  /-- LOAD_DEADLINE (R267). The stage deadline expires, and unstaged layers fail with SHARD_MISSING or DIGEST_MISMATCH. -/
  | loadDeadline (n : PartN)
  /-- SWAP_CTRL_QUERY (R273). A module is asked whether it is staged for the new epoch. -/
  | swapCtrlQuery (slot : SlotN) (n : PartN) (epoch : BitVec 64)
  /-- SWAP_CTRL_STAGED (R273). The coordinator receives a staged report and fixes the cutover once all modules have reported. -/
  | swapCtrlStaged (slot : SlotN) (n : PartN) (epoch : BitVec 64)
  /-- SWAP_CTRL_STAGE_FAILED (R273). The coordinator receives a staging failure and completes the swap with it, changing nothing. -/
  | swapCtrlStageFailed (slot : SlotN) (n : PartN) (epoch : BitVec 64) (status : BitVec 16) (detail : Word)
  /-- SWAP_CTRL_LAYERS_DONE (R278). The coordinator receives a module's report and sends COMMIT once all modules have reported. -/
  | swapCtrlLayersDone (slot : SlotN) (n : PartN) (epoch : BitVec 64)
  /-- SWAP_CTRL_COMMIT (R278). A module makes its staging slots resident, sets the epoch and releases the held output. -/
  | swapCtrlCommit (n : PartN) (epoch : BitVec 64)
  /-- SWAP_CTRL_ROLLBACK (R279). A module rewrites its new-epoch layers from the resident slot and answers ROLLED_BACK. -/
  | swapCtrlRollback (slot : SlotN) (n : PartN) (epoch : BitVec 64)
  /-- SWAP_CTRL_ROLLED_BACK (R279). The coordinator receives a rollback acknowledgement and completes the rollback when all have answered. -/
  | swapCtrlRolledBack (slot : SlotN) (n : PartN) (epoch : BitVec 64)
  /-- SWAP_FRONT (R276). A swap front message arrives from an upstream module or layer. -/
  | swapFront (slot : SlotN) (n : PartN) (layer : Word) (window epoch : BitVec 64)
  /-- LAYER_DRAINED (R276). A layer has the front from every feeder and no pass left, so it forwards the front and starts its rewrite. -/
  | layerDrained (n : PartN) (layer : Word)
  /-- LAYER_REWRITE_DONE (R276). A layer's rewrite is verified, and its slot entries and epoch change at the next boundary. -/
  | layerRewriteDone (n : PartN) (layer : Word)
  /-- SWAP_LIMIT_EXPIRY (R279). COMMIT has not been sent within LIMIT, so the swap aborts and ROLLBACK is sent. -/
  | swapLimitExpiry (n : PartN)
  /-- LOADER_ROW_WRITE (R269). The loader channel writes a row or scale line, reads it back and compares it. -/
  | loaderRowWrite (n : PartN) (place : Nat) (line : Nat) (attempt : Fin 3) (readback : BitVec 1024)
  /-- FIRN_IMAGE_WRITE_DONE (R286). A persistent firn image record has been written and read back, and becomes active. -/
  | firnImageWriteDone (n : PartN)
  /-- ARRAY_VERIFIED (R287). An array meets the verification conditions, and UNVERIFIED clears. -/
  | arrayVerified (t : TileN) (a : ArrN)
  /-- LOG_BATCH (R379). The bridge receives a batch of log entries and writes them to the host moulin ring. -/
  | logBatch (slot : SlotN) (entries : List Machine.Entry)
  /-- CTR_APPLY (R463). A domain-wide snapshot, freeze or unfreeze arrives with its apply beat. -/
  | ctrApply (kind : Fin 3) (b : BitVec 64)
  /-- HOLD (R363). A partition hold names a stop window; requests move to WAIT and the program stops before it. -/
  | hold (n : PartN) (cause : BitVec 16) (y : BitVec 64) (from_ : SlotN) (to_ : BitVec 16)
  /-- FAILED (R370). A master receives a module's own failure report and starts failover. -/
  | failed (slot : SlotN) (cause : BitVec 16) (beat : BitVec 64)
  /-- RESUME (R363). Held partitions restart at window 0 in the named start window, and held requests are released. -/
  | resume (n : PartN) (z : BitVec 64)
  /-- MIRROR_REC (R372). A mirror record of descriptors, program bytes or request table state arrives, or its acknowledgement does. -/
  | mirrorRec (slot : SlotN) (kind : Fin 5) (n : PartN) (window : BitVec 64) (off : Nat) (data : Bytes)
  /-- MANAGEMENT_UNKNOWN_SUBTYPE (R255). A management message of unknown subtype, or too short, is discarded and logged. -/
  | managementUnknownSubtype (slot : SlotN) (subtype : BitVec 16)
  /-- FUNCTION_LEVEL_RESET (R253). A PCIe function level reset discards that function's ring state and pending bits. -/
  | functionLevelReset (f : Fin 64)
  /-- PCIE_LINK_DOWN (R253). The bridge's PCIe link goes down; its relay state is kept and the moulin spills. -/
  | pcieLinkDown
  /-- MSIX_UNMASK (R252). An unmasked MSI-X vector with its pending bit set is delivered. -/
  | msixUnmask (f : Fin 64) (v : Fin 64)
  /-- COMMAND_FETCH (R297). The bridge fetches a host command entry once a reply entry and an outstanding slot are free. -/
  | commandFetch (f : Fin 64) (entry : Bytes)
  /-- RELAY_REPLY (R299). A relayed command's reply returns, the host tag is restored and the reply entry is written. -/
  | relayReply (rtag : BitVec 16) (status : BitVec 16) (source : SlotN) (detail : Word) (payload : Bytes)
  /-- STREAM_RECORD_WRITE (R325). The bridge writes a stream record, or a pad record, when the ring has room. -/
  | streamRecordWrite (n : PartN) (svc : Nat) (read : Nat) (timeUs : Nat)
  /-- COMMAND_BAD_OPCODE (R293). A command with an undefined opcode completes with BAD_OPCODE. -/
  | commandBadOpcode (h : CmdHdr) (opcode : BitVec 16)
  /-- PING (R300). Returns slot, grade, reserve, firmware version and the domain beat. -/
  | ping (h : CmdHdr)
  /-- QUERY (R300). Returns identity, partition, program, weight, cadence or recovered-event information by ITEM. -/
  | query (h : CmdHdr) (item : Word)
  /-- REG_READ (R300). Reads COUNT register words, subject to the tenant's scope. -/
  | regRead (h : CmdHdr) (addr count : Word)
  /-- REG_WRITE (R300). Writes COUNT register words, subject to the tenant's scope. -/
  | regWrite (h : CmdHdr) (addr count : Word) (words : List Word)
  /-- SYNC_OP (R300). Performs or reads a synchronisation object operation. -/
  | syncOp (h : CmdHdr) (obj : BitVec 16) (op : Byte) (value : Word)
  /-- PART_CREATE (R334). Creates a partition from its descriptor and builds its owner tables and buckets. -/
  | partCreate (h : CmdHdr) (desc : Bytes)
  /-- PART_DESTROY (R335). Resets the partition, zeroes its arrays and HBM4 regions, and frees its resources. -/
  | partDestroy (h : CmdHdr)
  /-- PART_DESTROY_ZERO_DONE (R335). The zeroing of a destroyed partition completes, its resources return, and the reply is sent. -/
  | partDestroyZeroDone (n : PartN)
  /-- PART_RESET (R346). A command starts the partition reset and replies after reset done. -/
  | partReset (h : CmdHdr)
  /-- PART_RESET_ZERO_DONE (R346). The owned tile stores are zeroed, and PART_END is broadcast, followed by RESET_DONE and the reply. -/
  | partResetZeroDone (n : PartN)
  /-- PART_QOS (R342). Sets or clears a temporary share and weight override from the next boundary. -/
  | partQos (h : CmdHdr) (ovr : Bytes)
  /-- PART_IRQ (R344). Sets the coalescing count and time of one interrupt vector. -/
  | partIrq (h : CmdHdr) (vector : Byte) (count : BitVec 16) (timeUs : Word)
  /-- IRQ_COALESCE_TIMEOUT (R344). A vector's coalescing timer reaches TIME_US, and IRQ_RAISE is sent. -/
  | irqCoalesceTimeout (n : PartN) (v : Fin 16)
  /-- TOPO_GET (R300). Returns the topology table. -/
  | topoGet (h : CmdHdr)
  /-- TOPO_PUT (R300). Collects the topology table; the last piece is checked and stored for the next module reset. -/
  | topoPut (h : CmdHdr) (off total : Word) (data : Bytes)
  /-- DOMAIN_JOIN (R247). Runs domain bring-up for this module and replies when aligned or left out. -/
  | domainJoin (h : CmdHdr)
  /-- DOMAIN_LEAVE (R300). Clears LOCKED with the ports kept up. -/
  | domainLeave (h : CmdHdr)
  /-- MANIFEST_PUT (R262). Collects a manifest; the last piece is checked for signature and fields. -/
  | manifestPut (h : CmdHdr) (off total : Word) (data : Bytes)
  /-- STAGE (R267). Stages the manifest's layers from shards by the deadline. -/
  | stage (h : CmdHdr) (deadlineMs : Word)
  /-- SHARD_PUT (R263). Sends host shard bytes onward as SHARD_SEG messages. -/
  | shardPut (h : CmdHdr) (shard off : Word) (data : Bytes)
  /-- SWAP (R273). The front module coordinates an epoch swap and replies at commit or rollback. -/
  | swap (h : CmdHdr) (limitMs : Word)
  /-- PROG_PUT (R300). Writes program bytes into the partition's HBM4 region. -/
  | progPut (h : CmdHdr) (off : BitVec 64) (data : Bytes)
  /-- PROG_LOAD (R188). Checks a program image by digest and the load checks, and loads it or refuses it. -/
  | progLoad (h : CmdHdr) (off : BitVec 64)
  /-- PROG_START (R189). Starts the loaded program at a start window. -/
  | progStart (h : CmdHdr) (window : BitVec 64)
  /-- PROG_STOP (R190). Stops the program at the end of the current window. -/
  | progStop (h : CmdHdr)
  /-- PROG_VARIANT (R175). Writes VARIANT_NEXT and replies at the boundary. -/
  | progVariant (h : CmdHdr) (v : Byte)
  /-- SVC_OPEN (R310). Opens a service and reserves KV pools on every module of the partition. -/
  | svcOpen (h : CmdHdr) (desc : Bytes)
  /-- SVC_CLOSE (R300). Closes a service and cancels its admitted requests. -/
  | svcClose (h : CmdHdr) (svc : Word)
  /-- REQ_SUBMIT (R312). Admits a request to the queue, or replies HELD, and replies when the request completes. -/
  | reqSubmit (h : CmdHdr) (desc : Bytes) (prompt : Bytes) (timeUs : Nat)
  /-- REQ_CANCEL (R300). Completes a request with CANCELLED. -/
  | reqCancel (h : CmdHdr) (reqTag : Word)
  /-- STREAM_CFG (R325). Sets the service's output stream ring. -/
  | streamCfg (h : CmdHdr) (svc : Word) (addr : BitVec 64) (size : Word)
  /-- LOG_READ (R300). Returns log entries from a beat onward. -/
  | logRead (h : CmdHdr) (fromBeat : BitVec 64) (max : Word)
  /-- MOULIN_CFG (R379). Sets the log drain mode, delay and spill ring. -/
  | moulinCfg (h : CmdHdr) (desc : Bytes)
  /-- CTR_CFG (R457). Programs one counter's event, or is refused. -/
  | ctrCfg (h : CmdHdr) (tile counter : Byte) (event : Word)
  /-- CTR_SNAP (R463). Schedules a snapshot, freeze or unfreeze at an apply beat, module-wide or domain-wide. -/
  | ctrSnap (h : CmdHdr) (scope kind : Byte)
  /-- NV_READ (R382). Returns NV records from the firn ring. -/
  | nvRead (h : CmdHdr) (index count : Word)
  /-- FW_PUT (R300). Writes a firmware image into the inactive slot. -/
  | fwPut (h : CmdHdr) (off total : Word) (data : Bytes)
  /-- FW_ACTIVATE (R444). Verifies the inactive slot and hands over live to the new firmware. -/
  | fwActivate (h : CmdHdr)
  /-- FW_HANDOVER (R444). At the next window boundary firmware stops intake, writes the handover block and starts the new image. -/
  | fwHandover
  /-- FW_ACTIVATION_TIMEOUT (R444). The new image has not resumed intake within 50 ms, so the previous image restarts. -/
  | fwActivationTimeout
  /-- FUSE_BLOW (R443). Newer firmware has run for 24 h without fallback, so fuses are blown up to its SVN. -/
  | fuseBlow
  /-- ATTEST (R445). Returns a signed attestation report. -/
  | attest (h : CmdHdr) (nonce : BitVec 256)
  /-- CERT_GET (R436). Returns the certificate chain. -/
  | certGet (h : CmdHdr)
  /-- DEBUG_OPEN (R447). Checks a debug token and starts the erase and opening. -/
  | debugOpen (h : CmdHdr) (token : Bytes) (timeUs : Nat)
  /-- DEBUG_ERASE_DONE (R448). Every erase item completes; ERASE_PENDING clears, the reply is sent and the ports unlock. -/
  | debugEraseDone (timeUs : Nat)
  /-- DEBUG_LOCKOUT_END (R447). The 10 s lockout after three token failures ends. -/
  | debugLockoutEnd
  /-- PWR_STATE_RUN (R423). Returns the module to Run. -/
  | pwrStateRun (h : CmdHdr)
  /-- PWR_STATE_IDLE (R423). Requests Idle once no program runs. -/
  | pwrStateIdle (h : CmdHdr)
  /-- IDLE_ENTRY (R423). No program runs any more, so the module enters Idle and replies. -/
  | idleEntry
  /-- PWR_STATE_RETAIN (R424). Enters Retain. -/
  | pwrStateRetain (h : CmdHdr)
  /-- PWR_STATE_DEEP (R425). Enters Deep. -/
  | pwrStateDeep (h : CmdHdr)
  /-- PWR_WAKE_GO (R425). Writing GO ends Deep and starts the thaw. -/
  | pwrWakeGo
  /-- TILE_RETIRE (R350). Retires a tile onto a reserve tile of its partition, or fails with NO_RESOURCE. -/
  | tileRetire (h : CmdHdr) (tile : Byte)
  /-- RETIREMENT_LOAD_DONE (R364). The reserve tile is written and calibrated, and the new map is armed. -/
  | retirementLoadDone (n : PartN) (t : TileN) (newT : TileN)
  /-- STANDBY_READY (R371). The standby has loaded the failed slot's partitions and reports ready. -/
  | standbyReady (slot : SlotN) (n : PartN)
  /-- EJECT_PREP (R431). Hands over roles and work to the standby and prepares the module for removal. -/
  | ejectPrep (h : CmdHdr) (standbyFree : Bool)
  /-- LOG_DRAIN_DONE (R431). LOG_FILL reaches 0 or 10 ms pass, and eject-prepare completes. -/
  | logDrainDone
  /-- RESET_WARM (R418). Replies and then performs a warm reset. -/
  | resetWarm (h : CmdHdr)
  /-- RESET_MODULE (R417). Replies and then performs a module reset. -/
  | resetModule (h : CmdHdr)
  /-- THERMAL_CLEAR (R396). Clears the shutdown latch, then performs a module reset and thaw. -/
  | thermalClear (h : CmdHdr)
  /-- SEND_CTRL_GO (R302). Writing GO sends the mailbox message, or is refused while GO is set. -/
  | sendCtrlGo (c : Fin 32) (host secure : Bool)
  /-- RECV_CTRL_DONE (R302). Writing DONE acknowledges the message and clears FLAG and the sender's GO. -/
  | recvCtrlDone (c : Fin 32) (host secure : Bool)
  /-- SYNC_OBJ_WRITE (R306). A register write to an object is applied at its home as one operation. -/
  | syncObjWrite (k : BitVec 14) (w : Word)
  /-- KV_ALLOC (R329). A lender allocates pages to a requesting module. -/
  | kvAlloc (slot : SlotN) (n : PartN) (tag : BitVec 16) (count : Nat)
  /-- KV_FREE (R329). A lender frees pages. -/
  | kvFree (slot : SlotN) (n : PartN) (tag : BitVec 16) (page : Nat)
  /-- KV_READ (R329). A lender returns page data. -/
  | kvRead (slot : SlotN) (n : PartN) (tag : BitVec 16) (page off len : Nat)
  /-- KV_WRITE (R329). A lender writes page data. -/
  | kvWrite (slot : SlotN) (n : PartN) (tag : BitVec 16) (page off : Nat) (data : Bytes)
  /-- KV_PAGE_REPLY (R329). A KV page reply arrives with pages, data or a refusal. -/
  | kvPageReply (slot : SlotN) (n : PartN) (tag : BitVec 16) (status : BitVec 16) (pages : List Nat) (data : Bytes)
  /-- HBM_BURST (R339). A controller serves one 64-byte burst from the partition's bucket, waiting for gain when empty. -/
  | hbmBurst (n : PartN) (addr : Nat) (write : Option (BitVec 512)) (b : Machine.BurstNote)
  /-- HBM_LINE_RESTORED (R356). A bad line is restored from its source and the waiting reader proceeds. -/
  | hbmLineRestored (line : Nat) (data : Bytes)
  /-- LOG_REPORT (R377). A report reaches the log and enters the ingest queue, or folds into the summary when the queue is full. -/
  | logReport (e : Machine.Entry)
  /-- LOG_WRITE (R377). Each beat the log writes one entry from the queue or the summary table into the ring. -/
  | logWrite
  /-- MOULIN_BATCH (R379). A batch of entries is full or its delay has expired, and it is sent or spilled. -/
  | moulinBatch (hostPath : Bool)
  /-- SPILL_DRAIN (R380). The host path returns and the spill ring is drained first, oldest entry first. -/
  | spillDrain
  /-- TENANT_KEY (R441). A complete key message unwraps and installs a partition's tenant key. -/
  | tenantKey (c : Fin 32) (payload : Bytes)
  /-- MANIFEST_KEY_ADD (R440). A complete key message adds a manifest key. -/
  | manifestKeyAdd (c : Fin 32) (payload : Bytes)
  /-- MANIFEST_KEY_REMOVE (R440). A complete key message removes a manifest key. -/
  | manifestKeyRemove (c : Fin 32) (payload : Bytes)
  /-- OPERATOR_KEY_SET (R440). A signed key message adds or replaces an operator key. -/
  | operatorKeySet (c : Fin 32) (payload : Bytes)
  /-- OPERATOR_KEY_REVOKE (R440). A signed key message removes an operator key. -/
  | operatorKeyRevoke (c : Fin 32) (payload : Bytes)
  /-- SEC_SESS_CTRL_GO (R439). The signed nonce is checked and a secure session opens or is refused. -/
  | secSessCtrlGo
  /-- SEC_SESS_CTRL_END (R439). Writing END ends the secure session. -/
  | secSessCtrlEnd
  /-- COUNTER_LO_READ (R464). A read of a counter LO register latches its HI words. -/
  | counterLoRead (addr : Word)
  /-- CAD_BEAT_LO_READ (R159). A read of the beat count's low word latches its high word. -/
  | cadBeatLoRead
  /-- PART_WGT_EPOCH_LO_READ (R290). A read of the epoch's low word latches its high word. -/
  | partWgtEpochLoRead (n : PartN)
  /-- TILE_SEQ_LAG_READ (R163). A read returns and clears the largest lag since the last read. -/
  | tileSeqLagRead (t : TileN)
  /-- CAD_ALIGN_READ (R244). A read returns and clears the largest phase error since the last read. -/
  | cadAlignRead
  /-- SMBUS_REGISTER_READ (R468). An SMBus operation 0x01 reads a register for the next Block Read. -/
  | smbusRegisterRead (addr : Word) (pec : Bool)
  /-- SMBUS_REGISTER_WRITE (R468). An SMBus operation 0x02 writes a register. -/
  | smbusRegisterWrite (addr data : Word) (pec : Bool)
  /-- SMBUS_FIRMWARE_CHUNK (R468). An SMBus operation 0x03 sends a firmware chunk to the recovery loader. -/
  | smbusFirmwareChunk (off : Word) (data : Bytes) (pec : Bool)
  /-- SMBUS_BLOCK_READ (R468). An SMBus Block Read returns the value of the last register read. -/
  | smbusBlockRead
  /-- REGISTER_WRITE (R11). A write to a register with no row of its own, applied by its access code, including W1C clears. -/
  | registerWrite (by_ : Requester) (addr : Nat) (w : Word)
  /-- WRROW (R176). The ARR action writes COUNT row images from the tile store into an array's rows from FIRST onward. -/
  | wrrow (t : TileN) (a : ArrN) (first : Fin 1024) (count : Nat) (off : BitVec 16)
  /-- WRSCALE (R176). The ARR action writes COUNT scale file lines from the tile store from line FIRST onward. -/
  | wrscale (t : TileN) (a : ArrN) (first : Fin 1024) (count : Nat) (off : BitVec 16)
  /-- RDROW (R176). The ARR action reads COUNT row images of an array into the tile store, with parity handled by R59. -/
  | rdrow (t : TileN) (a : ArrN) (first : Fin 1024) (count : Nat) (off : BitVec 16)
  /-- RESET_N_RELEASE (R417). RESET_N returns high and the module reset held at step 2 continues with its remaining steps. -/
  | resetNRelease
  /-- FW_INTAKE_RESUMED (R444). The new firmware image adopts the handover block and resumes intake, after which the A/B selection is written, 0x1606 is logged and the reply is sent. -/
  | fwIntakeResumed
  /-- LINK_TRAINING_DONE (R228). A port's lanes complete training and deskew, so the port sends INIT or, after a retrain, its first REPLAY, and resumes. -/
  | linkTrainingDone (p : PortN) (lanes : BitVec 4)
  /-- HOLD_UP_EXHAUSTED (R401). After input loss with no return above 42 V, the hold-up bank runs out and the housekeeping island stops, so the module is Off and its next start is a power-on. -/
  | holdUpExhausted
  /-- PRESENCE_CONTACT_EDGE (R466). A presence contact makes, or breaks before the hot-swap switch has closed, which starts or restarts the 100 ms presence count. -/
  | presenceContactEdge (b : Bool) (made : Bool)
  /-- SET_POINT_HOLD_END (R397). Ten microseconds after an adaptive-voltage change of the core set point, the supply comparators stop using the lower of the old and new set points. -/
  | setPointHoldEnd
  deriving DecidableEq, Repr

end Sys2Proof
end

