-- ==== Sys2Proof/Decode.lean ====
section
/-! DEFINITION. Decoding. No row of spec/opcode_table.json gives its command any bits, so no word spells a command. -/

namespace Sys2Proof

/-- The command that an nbits-bit word spells by the bits of the opcode table: none, since the table gives no row bits. -/
def decodeTableWord (_nbits _w : Nat) : Option Instr := none

end Sys2Proof
end

