-- ==== Sys2Proof/Config.lean ====
section
/-! DEFINITION. What the spec leaves to an implementation or gives no value for: constants with no body, so that nothing can be
proved of them. Each is named in the assumption log. The cryptographic functions of the standards the spec cites (SHA-512,
ECDSA P-521, AES-256-GCM, HKDF, ECDH) are left as functions of which nothing is known. -/

namespace Sys2Proof

/-- The error of conversion number n before snapping, in units of 1/1,024 ADC step (R97): the systematic and the random part
together. R97 bounds the systematic part at 0.75 step and gives the random part a standard deviation, which bounds no single
conversion, so the value is free. -/
opaque Config.convError : Nat → Int

/-- The whole number that an array keeps of the exact quotient num / den in a coefficient (R113 gives no rounding). -/
opaque Config.coefRound : Int → Nat → Int

/-- A word of any value: an undefined or random 32-bit value. -/
opaque Config.freeWord : Nat → Word

/-- A number of any value. -/
opaque Config.freeNat : Nat → Nat

/-- The offset Δ that the power model predicts for a sensor at its n-th sample, in 0.25 °C (R390). -/
opaque Config.thermalDelta : Nat → Nat → Int

/-- What a promotion of the DE gives with an invalid scale code 0xFF, of which the spec states no result there: the wide value, the
narrow value and the two codes. A function of its operands, since the DE gives the same bits on every run (R102, R144). -/
opaque Config.deBadScale : Word → Int → Nat → Nat → Word

/-- Which of the results that the error bound of Table 5.8 admits a function gives: 0 recip, 1 rsqrt, 2 exp2, 3 log2, 4 sin, 5 cos,
6 tanh. Every lane of every module returns the same bits (R147), so the choice depends on the operand alone. -/
opaque Config.ulpChoice : Nat → Word → Nat

/-- The word that a VU compare writes for a true and for a false comparison (R178 names the operations and no result code). -/
opaque Config.cmpWord : Bool → Word
/-- Whether SEL takes VA for a word of VC (Table 6.6 names a select and not its test). -/
opaque Config.selTakes : Word → Bool
/-- What a VU operation gives where Table 6.6 states no result: operation, operands (a shift by 32 or more, a lane index beyond
1,023). -/
opaque Config.vuOpen : Nat → Word → Word → Word
/-- Where a NaN key stands in SORT's order, and the order of equal keys by lane (Table 6.6). -/
opaque Config.nanKey : Word → Int
/-- See `Config.nanKey`. -/
opaque Config.sortTie : Nat → Nat → Bool
/-- The destination slot of a link stream by port and stream ID: LSEND names a port and a stream, and Table 8.2's DEST is given
nowhere for it. -/
opaque Config.streamDest : Nat → Nat → Nat

/-- The word of the physical function's configuration space at which its SR-IOV capability begins (R249, R250). -/
opaque Config.sriovWord : Nat
/-- The words at which its AER capability and its PCI Express capability begin (R249). -/
opaque Config.aerWord : Nat
/-- See `Config.aerWord`. -/
opaque Config.pcieWord : Nat

/-- The port that the module's own messages for a slot leave by, by destination and class: the topology table says which switch port
each port is on and not where a switch leads. -/
opaque Config.portFor : Nat → Nat → Nat

/-- A slot holds a partition that the master does not hold (R371): nothing in the master's state says which. -/
opaque Config.slotHolds : Nat → Nat → Bool

/-- Where a page of a partition's KV pool begins in HBM4 (R327, R356): the pool lies in the partition's region and no rule says where. -/
opaque Config.kvPageAddr : Nat → Nat → Nat

/-- The degraded-timing variant that an image holds for a port on fewer lanes (R234), by partition, port and lanes: the image header
gives the number of variants and not what each is for. -/
opaque Config.variantFor : Nat → Nat → Nat → Nat

/-- The status that an aborted swap reports for a cause that has no status of its own (R279): 0 LIMIT, 1 a failed rewrite, 2 a
failover, 3 a reset. -/
opaque Config.abortStatus : Nat → Nat

/-- The logit that a partition's program forms for a token in a step (R322): its numbers are the program's. -/
opaque Config.logit : Nat → Nat → Word

/-- The hidden vectors of an embed request's run (R330), by run, position and element, and their length: the program's. -/
opaque Config.hidden : Nat → Nat → Nat → Word
/-- See `Config.hidden`. -/
opaque Config.hiddenWidth : Nat
/-- The logits that a classify request's program returns (R330): its numbers are the program's. -/
opaque Config.vector : Nat → Bytes

/-- What a weight area slot holds of a shard after a reset (R287), by partition and shard: bit errors in HBM4 may have changed it. -/
opaque Config.slotBytes : Nat → Nat → Bytes

/-- Where a part of a partition's weight area begins in HBM4 (Table 9.1 gives no address): 1 and 2 image slots A and B, 3 and 4 mirror
slots A and B, 5 the stream area, 6 the canary table. -/
opaque Config.weightBase : Nat → Nat → Nat

/-- Where an image lies in its image slot, and an entry in the canary table, by partition and placement number: a manifest gives the
place of an HBM4 data image alone (Table 9.4). -/
opaque Config.imageOffset : Nat → Nat → Nat

/-- The activation tensor scale T_a that a program carries for a layer slot, by the G of its entry (R81, R82): Table 6.2 has no field
for it, and G = round32(1 / T_a). -/
opaque Config.actScale : Word → Word

/-- The current epoch of a partition's service as the other modules hold it when this module restores its own (R288): no message of
Table 8.11 gives it. -/
opaque Config.serviceEpoch : Nat → Nat

/-- SHA-512 (R171, R261). -/
opaque Config.sha512 : Bytes → BitVec 512

/-- ECDSA P-521 verification over SHA-512: public key, signed bytes, signature (R240, R262, R439, R440, R446). -/
opaque Config.verify : Bytes → Bytes → Bytes → Bool

/-- ECDSA P-521 signing with the identity key (R445). -/
opaque Config.sign : Nat → Bytes → Bytes

/-- AES-256-GCM opening: key, nonce, additional data, ciphertext with its tag; none when the tag fails (R264, R441). -/
opaque Config.gcmOpen : BitVec 256 → Bytes → Bytes → Bytes → Option Bytes

/-- The wrapping key of R441 from the ephemeral public key, the GCM nonce, the partition and the tenant number. -/
opaque Config.wrapKey : Nat → Bytes → Bytes → Nat → Nat → BitVec 256

/-- The identity secret that the unclonable function gives (R434), and the SHA-512 of its public key. -/
opaque Config.identity : Nat
/-- See `Config.identity`. -/
opaque Config.identityDigest : BitVec 512
/-- The key-agreement public key, 133 bytes (R445). -/
opaque Config.kaPublic : Bytes

/-- Firmware image facts the boot ROM reads from an image's header (R442): SVN, handover format, whether the signature and the
certificate chain verify. -/
opaque Config.fwSvn : Bytes → Nat
/-- See `Config.fwSvn`. -/
opaque Config.fwHandover : Bytes → Nat
/-- See `Config.fwSvn`. -/
opaque Config.fwSigned : Bytes → Bool
/-- Whether the running firmware accepts a handover format version (R444). -/
opaque Config.handoverAccepted : Nat → Bool

/-- SHA-512 of the boot ROM (R445). -/
opaque Config.bootRomDigest : BitVec 512

/-- Row i's element of the canary vector of an array before rows are removed, from the seed of R117, whose generator the spec
does not give. -/
opaque Config.canaryVec : Nat → BitVec 4096

/-- The firmware version PING returns (R300), which the spec gives no value for. -/
opaque Config.fwVersion : Word

/-- DETAIL of a log entry whose code lists several items (Tables 13.7, 14.5, 16.7), by code and items: the tables name the items
and not the bits that hold them. -/
opaque Config.detailBits : Nat → List Nat → BitVec 64

/-- The low byte of the 0x14xx code of a kind of access or configuration event, which Table 13.7 does not give. -/
opaque Config.code14 : Nat → BitVec 8

/-- The CAUSE of a module failure in FAILED and in the 0x1202 entry, whose codes the spec does not give, by the model's own
number of the cause. -/
opaque Config.failCause : Nat → BitVec 16

/-- The clock's answer in SUBNS (Table 13.6), which no rule computes. -/
opaque Config.subns : Nat → Nat

/-- The byte layout of QUERY payloads beyond what Tables 10.3 and 10.4 name. -/
opaque Config.queryLayout : Nat → Bytes

end Sys2Proof
end

