-- ==== Sys2Proof/Machine/Operands.lean ====
section
/-! DEFINITION. Numbers: two's complement fields, E5M3 block scales (R79), and the binary32 and bf16 arithmetic of Table 3.5
(R89), computed exactly on dyadic numbers and rounded once. -/

namespace Sys2Proof.Machine

/-- The low n bits of w read as a signed number. -/
def signed (n w : Nat) : Int :=
  let v := w % 2 ^ n
  if v < 2 ^ (n - 1) then (v : Int) else (v : Int) - 2 ^ n

/-- A quotient rounded to nearest, ties to even. -/
def rneDiv (num : Int) (den : Nat) : Int :=
  let q := num / (den : Int)
  let r := num - q * den
  if 2 * r < den then q
  else if (den : Int) < 2 * r then q + 1
  else if q % 2 = 0 then q else q + 1

/-! ## Dyadic numbers and rounding -/

/-- m × 2^e. -/
structure Dy where
  m : Int
  e : Int
  deriving DecidableEq, Repr

/-- Exact product. -/
def Dy.mul (a b : Dy) : Dy := ⟨a.m * b.m, a.e + b.e⟩

/-- Exact sum. -/
def Dy.add (a b : Dy) : Dy :=
  let e := min a.e b.e
  ⟨a.m * 2 ^ (a.e - e).toNat + b.m * 2 ^ (b.e - e).toNat, e⟩

/-- a < b. -/
def Dy.lt (a b : Dy) : Bool := decide ((Dy.add a ⟨-b.m, b.e⟩).m < 0)

/-- a ≤ b. -/
def Dy.le (a b : Dy) : Bool := !Dy.lt b a

/-- |a|. -/
def Dy.abs (a : Dy) : Dy := ⟨a.m.natAbs, a.e⟩

/-- -a. -/
def Dy.neg (a : Dy) : Dy := ⟨-a.m, a.e⟩

/-- The number of bits of n. -/
def bitLen (n : Nat) : Nat := if n = 0 then 0 else Nat.log2 n + 1

/-- The two float formats (R89): fraction bits of binary32 and of bf16. -/
def fracBits (bf : Bool) : Nat := if bf then 7 else 23

/-- n / 2^k (k may be negative) rounded to nearest even. -/
def rneShift (n : Nat) (k : Int) : Nat :=
  if k ≤ 0 then n * 2 ^ (-k).toNat else (rneDiv n (2 ^ k.toNat)).toNat

/-- The bits of a positive number n × 2^e in the format with fb fraction bits, as a pattern without its sign: rounded to nearest
even, subnormal results delivered (`flush` false) or flushed after rounding as if the exponent range were unbounded (`flush`
true, Table 3.5), infinity beyond the largest. -/
def roundPos (fb : Nat) (flush : Bool) (n : Nat) (e : Int) : Nat :=
  if n = 0 then 0
  else
    let top : Int := (bitLen n : Int) - 1 + e
    let ulp : Int := top - fb
    let q := rneShift n (ulp - e)
    let top' : Int := if q = 2 ^ (fb + 1) then top + 1 else top
    let q' := if q = 2 ^ (fb + 1) then 2 ^ fb else q
    if 128 ≤ top' then 255 * 2 ^ fb
    else if -126 ≤ top' then (top' + 127).toNat * 2 ^ fb + (q' - 2 ^ fb)
    else if flush then 0
    else rneShift n (-126 - fb - e)

/-- The quiet NaN of binary32 (Table 3.5). -/
def nan32 : Word := 0x7FC00000

/-- Sign bit of a 32-bit lane. -/
def signOf (w : Word) : Bool := w.msb

/-- A lane holds a NaN, an infinity, a zero (a bf16 subnormal input counts as zero of its sign, Table 3.5). -/
def expOf (w : Word) : Nat := (w.toNat / 2 ^ 23) % 256
/-- The fraction field of a 32-bit lane. -/
def fracOf (w : Word) : Nat := w.toNat % 2 ^ 23
/-- NaN. -/
def isNan (w : Word) : Bool := expOf w = 255 && fracOf w ≠ 0
/-- Infinity. -/
def isInf (w : Word) : Bool := expOf w = 255 && fracOf w = 0
/-- Finite. -/
def isFin (w : Word) : Bool := expOf w ≠ 255
/-- Zero, or in bf16 a subnormal that counts as zero. -/
def isZero (bf : Bool) (w : Word) : Bool := expOf w = 0 && (bf || fracOf w = 0)

/-- The exact value of a finite lane. -/
def valOf (bf : Bool) (w : Word) : Dy :=
  if expOf w = 0 then
    if bf then ⟨0, 0⟩ else ⟨if signOf w then -(fracOf w : Int) else fracOf w, -149⟩
  else
    let m : Int := ((2 ^ 23 + fracOf w : Nat) : Int)
    ⟨if signOf w then -m else m, (expOf w : Int) - 150⟩

/-- The lane with sign s and the pattern p of the format. -/
def packF (bf s : Bool) (p : Nat) : Word :=
  let mag := if bf then p * 2 ^ 16 else p
  BitVec.ofNat 32 (if s then 2 ^ 31 + mag else mag)

/-- Infinity and zero of a sign. -/
def infF (s : Bool) : Word := packF false s (255 * 2 ^ 23)
/-- See `infF`. -/
def zeroF (s : Bool) : Word := packF false s 0

/-- An exact value rounded to the format; an exact zero takes the sign `zs`. -/
def roundF (bf : Bool) (zs : Bool) (v : Dy) : Word :=
  if v.m = 0 then zeroF zs
  else packF bf (v.m < 0) (roundPos (fracBits bf) bf v.m.natAbs v.e)

/-- Sum (R89). The exact sum of two zeros of unlike sign, or an exact cancellation, is +0 in the rounding to nearest. -/
def addF (bf : Bool) (a b : Word) : Word :=
  if isNan a || isNan b then nan32
  else if isInf a then (if isInf b && signOf a ≠ signOf b then nan32 else infF (signOf a))
  else if isInf b then infF (signOf b)
  else roundF bf (isZero bf a && isZero bf b && signOf a && signOf b) (Dy.add (valOf bf a) (valOf bf b))

/-- Negation of a lane's sign. -/
def negF (a : Word) : Word := a ^^^ 0x80000000

/-- Difference. -/
def subF (bf : Bool) (a b : Word) : Word := addF bf a (negF b)

/-- Product. -/
def mulF (bf : Bool) (a b : Word) : Word :=
  let s := xor (signOf a) (signOf b)
  if isNan a || isNan b then nan32
  else if isInf a || isInf b then
    if isZero bf a || isZero bf b then nan32 else infF s
  else roundF bf s (Dy.mul (valOf bf a) (valOf bf b))

/-- Fused multiply-add, one rounding (Table 3.5). -/
def fmaF (bf : Bool) (a b c : Word) : Word :=
  let s := xor (signOf a) (signOf b)
  if isNan a || isNan b || isNan c then nan32
  else if isInf a || isInf b then
    if isZero bf a || isZero bf b then nan32
    else if isInf c && signOf c ≠ s then nan32
    else infF s
  else if isInf c then infF (signOf c)
  else
    let p := Dy.mul (valOf bf a) (valOf bf b)
    roundF bf (p.m = 0 && isZero bf c && s && signOf c) (Dy.add p (valOf bf c))

/-- A bf16 operand as its format sees it: a subnormal is zero of its sign. -/
def inF (bf : Bool) (a : Word) : Word := if bf && expOf a = 0 then zeroF (signOf a) else a

/-- a before b in the order of IEEE 754 minimum and maximum: −0 is less than +0. -/
def ltF (bf : Bool) (a b : Word) : Bool :=
  let rank : Word → Int := fun w =>
    if signOf w then -1 - ((inF bf w).toNat % 2 ^ 31 : Int) else (((inF bf w).toNat % 2 ^ 31 : Nat) : Int)
  decide (rank a < rank b)

/-- Minimum and maximum (Table 3.5). -/
def minF (bf : Bool) (a b : Word) : Word :=
  if isNan a || isNan b then nan32 else if ltF bf b a then inF bf b else inF bf a
/-- See `minF`. -/
def maxF (bf : Bool) (a b : Word) : Word :=
  if isNan a || isNan b then nan32 else if ltF bf a b then inF bf b else inF bf a

/-- binary32 to bf16, in the upper half of the lane (Table 3.5). -/
def cvt16 (a : Word) : Word :=
  if isNan a then nan32 else if isInf a then infF (signOf a) else roundF true (signOf a) (valOf false a)

/-- bf16 to binary32 (Table 3.5): a subnormal becomes zero of its sign. The element is the lane's upper half alone (R146). -/
def cvt32 (a : Word) : Word :=
  let h := a &&& 0xFFFF0000
  if isNan h then nan32 else inF true h

/-- An element that a unit passes on as its result (Table 3.5): every NaN becomes the quiet NaN, and a bf16 subnormal a zero. -/
def passF (bf : Bool) (a : Word) : Word := if isNan a then nan32 else inF bf a

/-- int32 to binary32. -/
def cvtI2F (a : Word) : Word := roundF false false ⟨a.toInt, 0⟩

/-- The integer nearest to a dyadic number, ties to even. -/
def Dy.rne (v : Dy) : Int := if 0 ≤ v.e then v.m * 2 ^ v.e.toNat else rneDiv v.m (2 ^ (-v.e).toNat)

/-- binary32 to int32: to nearest, ties to even, saturating, 0 for NaN (R178). -/
def cvtF2I (a : Word) : Word :=
  if isNan a then 0
  else if isInf a then (if signOf a then 0x80000000 else 0x7FFFFFFF)
  else
    let n := (valOf false a).rne
    if n < -(2 ^ 31) then 0x80000000 else if 2 ^ 31 ≤ n then 0x7FFFFFFF else BitVec.ofInt 32 n

/-- Integer square root, one bit a step: the largest r with r² ≤ n below 2^k. -/
def isqrtAux (n : Nat) : Nat → Nat → Nat
  | 0, r => r
  | k + 1, r => if (r + 2 ^ k) * (r + 2 ^ k) ≤ n then isqrtAux n k (r + 2 ^ k) else isqrtAux n k r

/-- Correctly rounded square root in binary32 (Table 5.8): the root to at least 32 bits with a sticky bit, rounded once. -/
def sqrtF (a : Word) : Word :=
  if isNan a then nan32
  else if isZero false a then a
  else if signOf a then nan32
  else if isInf a then a
  else
    let v := valOf false a
    let e0 := v.e - 64
    let e1 := if e0 % 2 = 0 then e0 else e0 - 1
    let n := v.m.toNat * 2 ^ (v.e - e1).toNat
    let r := isqrtAux n 48 0
    let st := if r * r = n then 0 else 1
    roundF false false ⟨((2 * r + st : Nat) : Int), e1 / 2 - 1⟩

/-- The pattern without its sign of the largest binary32 number not above n × 2^e. -/
def floorPos (n : Nat) (e : Int) : Nat :=
  if n = 0 then 0
  else
    let top : Int := (bitLen n : Int) - 1 + e
    let low : Int := (if -126 ≤ top then top else -126) - 23
    let q := if low ≤ e then n * 2 ^ (e - low).toNat else n / 2 ^ (low - e).toNat
    if 128 ≤ top then 255 * 2 ^ 23 else if -126 ≤ top then (top + 126).toNat * 2 ^ 23 + q else q

/-- The value of a pattern without its sign, infinity as 2^128; of a negative number, that of the opposite pattern, negated. -/
def patVal (q : Int) : Dy :=
  let k := q.natAbs
  let v : Dy := if k < 2 ^ 23 then ⟨k, -149⟩ else ⟨((2 ^ 23 + k % 2 ^ 23 : Nat) : Int), ((k / 2 ^ 23 : Nat) : Int) - 150⟩
  if q < 0 then v.neg else v

/-- The unit in the last place of binary32 at n × 2^e, as its power of two. -/
def ulpExp (n : Nat) (e : Int) : Int := if n = 0 then -149 else max (-149) ((bitLen n : Int) - 24 + e)

/-- A binary32 number at most d units in the last place from a value (Table 5.8): the value has sign s and a magnitude that is n × 2^e, or
when not `exact` a little above it; c chooses among the numbers that the bound admits. -/
def ulpNear (exact s : Bool) (n : Nat) (e : Int) (d c : Nat) : Word :=
  let p := floorPos n e
  let lim : Dy := ⟨d, ulpExp n e⟩
  let near := fun (q : Int) =>
    let gap := Dy.add ⟨n, e⟩ (patVal q).neg
    if gap.m ≤ 0 then Dy.le gap.neg lim else if exact then Dy.le gap lim else Dy.lt gap lim
  let qs := ((List.range (4 * d + 3)).map (fun (k : Nat) => (p : Int) + k - (2 * d + 1 : Nat))).filter near
  let q := qs.getD (c % qs.length) p
  packF false (xor s (decide (q < 0))) (min q.natAbs (255 * 2 ^ 23))

/-- Reciprocal (Table 5.8), within 1 ulp: ±0 gives ±∞ and ±∞ gives ±0. -/
def recipF (a : Word) : Word :=
  if isNan a then nan32
  else if isZero false a then infF (signOf a)
  else if isInf a then zeroF (signOf a)
  else
    let v := valOf false a
    let n := v.m.natAbs
    let p := floorPos (2 ^ 60 / n) (-v.e - 60)
    if 255 * 2 ^ 23 ≤ p then infF (signOf a)
    else ulpNear (2 ^ 60 % n = 0) (signOf a) (2 ^ 60 / n) (-v.e - 60) 1 (Config.ulpChoice 0 a)

/-- round32(1 / a) of a positive normal a (R82): the quotient with a sticky bit, rounded once. -/
def recip32 (a : Word) : Word :=
  let v := valOf false a
  let n := v.m.natAbs
  roundF false false ⟨((2 * (2 ^ 60 / n) + (if 2 ^ 60 % n = 0 then 0 else 1) : Nat) : Int), -v.e - 61⟩

/-- An activation tensor scale T_a whose reciprocal is G (R82): the one that `c` names when it fits, else the nearest to 1 / G that fits,
else 1 / G rounded. -/
def tensorScaleOf (g c : Word) : Word :=
  if recip32 c = g then c
  else
    let t := recip32 g
    ([t, t + 1, t - 1].find? (fun x => recip32 x = g)).getD t

/-- Reciprocal square root (Table 5.8), within 1 ulp. -/
def rsqrtF (a : Word) : Word :=
  if isNan a then nan32
  else if isZero false a then infF (signOf a)
  else if signOf a then nan32
  else if isInf a then zeroF false
  else
    let v := valOf false a
    let m := if v.e % 2 = 0 then v.m.natAbs else 2 * v.m.natAbs
    let r := isqrtAux (2 ^ 128 / m) 66 0
    ulpNear (r * r * m = 2 ^ 128) false r (-64 - v.e / 2) 1 (Config.ulpChoice 1 a)

/-! ### Exponential, logarithm, sine, cosine and hyperbolic tangent (Table 5.8)

Each value is computed in fixed point with 400 fraction bits, far finer than any unit in the last place, and the result is a number that
the error bound admits. -/

/-- π and ln 2 in units of 2^-400. -/
def piFx : Nat := 0x3243f6a8885a308d313198a2e03707344a4093822299f31d0082efa98ec4e6c89452821e638d01377be5466cf34e90c6cc0ac
/-- See `piFx`. -/
def ln2Fx : Nat := 0xb17217f7d1cf79abc9e3b39803f2f6af40f343267298b62d8a0d175b8baafa2be7b876206debac98559552fb4afa1b10ed2e

/-- A magnitude in units of 2^-400. -/
def toFx (v : Dy) : Nat := if 0 ≤ v.e + 400 then v.m.natAbs * 2 ^ (v.e + 400).toNat else v.m.natAbs / 2 ^ (-(v.e + 400)).toNat

/-- The series Σ r^i / i! from a term on, with steps k: every term (step 1) or every other with alternating signs (step 2). -/
def seriesFx (r : Int) (step : Nat) : Nat → Nat → Int → Int → Int
  | 0, _, _, sum => sum
  | n + 1, i, term, sum =>
    let next := if step = 1 then term * r / 2 ^ 400 / (i + 1) else -(term * r / 2 ^ 400 * r / 2 ^ 400) / (((i + 1) * (i + 2) : Nat) : Int)
    seriesFx r step n (i + step) next (sum + next)

/-- e^r for 0 ≤ r < 1, and sin r for 0 ≤ r < 2. -/
def expFx (r : Nat) : Nat := (seriesFx r 1 100 0 (2 ^ 400) (2 ^ 400)).toNat
/-- See `expFx`. -/
def sinFx (r : Nat) : Nat := (seriesFx r 2 60 1 r r).toNat

/-- 2^x of a finite x, within 2 ulp. -/
def exp2Of (a : Word) : Word :=
  let v := valOf false a
  let x := toFx v
  let whole : Int := if v.m < 0 then -(((x + 2 ^ 400 - 1) / 2 ^ 400 : Nat) : Int) else ((x / 2 ^ 400 : Nat) : Int)
  let frac := ((if v.m < 0 then -(x : Int) else (x : Int)) - whole * 2 ^ 400).toNat
  if 128 ≤ whole then infF false
  else if whole < -160 then ulpNear false false 0 (-160) 2 (Config.ulpChoice 2 a)
  else ulpNear (frac = 0) false (expFx (frac * ln2Fx / 2 ^ 400)) (whole - 400) 2 (Config.ulpChoice 2 a)

/-- The first n fraction bits of the binary logarithm of y with 1 ≤ y < 2, y in units of 2^-400. -/
def log2Bits : Nat → Nat → Nat → Nat
  | 0, _, acc => acc
  | n + 1, y, acc =>
    let z := y * y / 2 ^ 400
    if 2 ^ 401 ≤ z then log2Bits n (z / 2) (2 * acc + 1) else log2Bits n z (2 * acc)

/-- log2 x of a positive finite x, within 2 ulp. -/
def log2Of (a : Word) : Word :=
  let v := valOf false a
  let n := v.m.natAbs
  let k : Int := (bitLen n : Int) - 1
  let y := n * 2 ^ (400 - k).toNat
  let l : Int := (k + v.e) * 2 ^ 120 + log2Bits 120 y 0
  ulpNear (y = 2 ^ 400) (decide (l < 0)) (if l < 0 ∧ y ≠ 2 ^ 400 then l.natAbs - 1 else l.natAbs) (-120) 2 (Config.ulpChoice 3 a)

/-- sin (x + q π / 2) of a finite x, within 2 ulp, the argument reduced exactly to a quadrant and an angle in it; `op` numbers the
function. -/
def sinOf (a : Word) (q op : Nat) : Word :=
  let v := valOf false a
  let c := Config.ulpChoice op a
  if v.m = 0 then ulpNear true (signOf a && q = 0) (if q = 0 then 0 else 1) 0 2 c
  else
    let x := toFx v
    let quad := 2 * x / piFx
    let r := (2 * x - quad * piFx) / 2
    let at_ : Nat × Nat := if v.m < 0 then (((q : Int) - quad - 1) % 4 |>.toNat, piFx / 2 - r) else ((q + quad) % 4, r)
    ulpNear false (decide (2 ≤ at_.1)) (sinFx (if at_.1 % 2 = 0 then at_.2 else piFx / 2 - at_.2)) (-400) 2 c

/-- tanh x of a finite x, within 3 ulp, from e^(-2|x|). -/
def tanhOf (a : Word) : Word :=
  let v := valOf false a
  let y := 2 * toFx v
  let n := y / ln2Fx
  let e := if 400 ≤ n then 1 else max 1 (2 ^ 800 / expFx (y - n * ln2Fx) / 2 ^ n)
  ulpNear (v.m = 0) (signOf a) ((2 ^ 400 - e) * 2 ^ 400 / (2 ^ 400 + e)) (-400) 3 (Config.ulpChoice 6 a)

/-- exp2, log2, sin, cos and tanh: the special values of Table 5.8, and a result within its bound otherwise. -/
def exp2F (a : Word) : Word :=
  if isNan a then nan32 else if isInf a then (if signOf a then zeroF false else infF false) else exp2Of a
/-- See `exp2F`. -/
def log2F (a : Word) : Word :=
  if isNan a then nan32 else if isZero false a then infF true else if signOf a then nan32
  else if isInf a then infF false else log2Of a
/-- See `exp2F`. -/
def sinF (a : Word) : Word := if isFin a then sinOf a 0 4 else nan32
/-- See `exp2F`. -/
def cosF (a : Word) : Word := if isFin a then sinOf a 1 5 else nan32
/-- See `exp2F`. -/
def tanhF (a : Word) : Word :=
  if isNan a then nan32 else if isInf a then packF false (signOf a) (127 * 2 ^ 23) else tanhOf a

/-! ## E5M3 block scales (R79) -/

/-- The value of a scale code other than 0x00 and 0xFF. -/
def scaleVal (c : Nat) : Dy := ⟨((8 + c % 8 : Nat) : Int), (c / 8 % 32 : Nat) - 18⟩

/-- The smallest code in 0x01 to 0xFE from c on, of at most `fuel` tried, with k × value(code) ≥ m (R83). -/
def findCode (k : Nat) (m : Dy) : Nat → Nat → Option Nat
  | 0, _ => none
  | fuel + 1, c => if Dy.le m (Dy.mul ⟨k, 0⟩ (scaleVal c)) then some c else findCode k m fuel (c + 1)

/-- Promotion (R93): wide + n × s_a × s_w, one rounding; nothing when n = 0 or a scale is 0x00. -/
def promote (wide : Word) (n : Int) (sa sw : Nat) : Word :=
  if n = 0 || sa = 0 || sw = 0 then wide
  else if isFin wide then
    roundF false (isZero false wide && signOf wide)
      (Dy.add (valOf false wide) (Dy.mul ⟨n, 0⟩ (Dy.mul (scaleVal sa) (scaleVal sw))))
  else wide

/-- Promotion of a binary32 value n (R121). -/
def promoteF (wide : Word) (n : Word) (sa sw : Nat) : Word :=
  if isZero false n || sa = 0 || sw = 0 then wide
  else if isFin wide && isFin n then
    roundF false (isZero false wide && signOf wide)
      (Dy.add (valOf false wide) (Dy.mul (valOf false n) (Dy.mul (scaleVal sa) (scaleVal sw))))
  else addF false wide n

/-! ## Sampling (R148, R322, R323) -/

/-- Prefix sums, one add at a time. -/
def prefixSums (f : Word → Word → Word) : Word → List Word → List Word
  | _, [] => []
  | acc, w :: ws => f acc w :: prefixSums f (f acc w) ws

/-- Prefix sums of a list: the first is its head. -/
def psum (l : List Word) : List Word :=
  match l with
  | [] => []
  | w :: ws => w :: prefixSums (addF false) w ws

/-- The 64-bit output of the generator for key K and counter C. -/
def genWord (key ctr : BitVec 64) : BitVec 64 :=
  let x0 := key + ctr * 0x9E3779B97F4A7C15
  let x1 := (x0 ^^^ (x0 >>> 30)) * 0xBF58476D1CE4E5B9
  let x2 := (x1 ^^^ (x1 >>> 27)) * 0x94D049BB133111EB
  x2 ^^^ (x2 >>> 31)

/-- The draw u of R323 in [0, 1) as binary32. -/
def draw (key ctr : BitVec 64) : Word := roundF false false ⟨((genWord key ctr >>> 40).toNat : Int), -24⟩

/-- a < b as binary32 numbers; false with a NaN. -/
def numLt (a b : Word) : Bool := !isNan a && !isNan b && ltF false a b && !(isZero false a && isZero false b)

/-- The token of a position (R322), from the logits z: the candidates in descending order, equal logits by ascending token; TEMP,
TOP_P and the draw of the position choose among them. -/
def sampleToken (vocab topK : Nat) (temp topP : Word) (seed pos : BitVec 64) (z : Nat → Word) : Nat :=
  let n := min vocab (if 0 < topK then topK else 1024)
  let cand := (((List.range vocab).map (fun t => (t, z t))).mergeSort (fun a b => !numLt a.2 b.2)).take n
  let c := fun (i : Nat) => cand.getD i (0, 0)
  if temp = 0 then (c 0).1
  else
    let t := recipF temp
    let e := (List.range n).map (fun i => exp2F (mulF false (mulF false (subF false (c i).2 (c 0).2) t) 0x3FB8AA3B))
    let s := psum e
    let m :=
      if numLt 0 topP && numLt topP 0x3F800000 then
        ((List.range n).find? (fun j => !numLt (s.getD j 0) (mulF false topP (s.getD (n - 1) 0)))).elim n (· + 1)
      else n
    let bar := mulF false (draw seed pos) (s.getD (m - 1) 0)
    (c (((List.range m).find? (fun i => numLt bar (s.getD i 0))).getD (m - 1))).1

/-! ## Bytes -/

/-- A little-endian number. -/
def leNat : Bytes → Nat
  | [] => 0
  | b :: bs => b.toNat + 256 * leNat bs

/-- n as k little-endian bytes. -/
def leBytes : Nat → Nat → Bytes
  | 0, _ => []
  | k + 1, n => BitVec.ofNat 8 n :: leBytes k (n / 256)

/-- The k-byte little-endian field at offset o; bytes beyond the end count as 0. -/
def fieldAt (bs : Bytes) (o k : Nat) : Nat := leNat ((bs.drop o).take k)

/-- CRC-32 with the IEEE 802.3 polynomial (Table 13.8), reflected, one bit a step. -/
def crcBit (c : BitVec 32) : BitVec 32 := if c.getLsbD 0 then (c >>> 1) ^^^ 0xEDB88320 else c >>> 1

/-- One byte of the CRC. -/
def crcByte (c : BitVec 32) (b : Byte) : BitVec 32 :=
  crcBit (crcBit (crcBit (crcBit (crcBit (crcBit (crcBit (crcBit (c ^^^ b.setWidth 32))))))))

/-- CRC-32 of a byte string. -/
def crc32 (bs : Bytes) : BitVec 32 := ~~~ bs.foldl crcByte 0xFFFFFFFF

/-- Rows of a segment by its code (Tables 6.2 and 9.3). -/
def segRows (seg : Nat) : Nat := match seg with | 1 => 128 | 2 => 64 | _ => 256

/-- The residue mod 15 of R150. -/
def residue15 (x : Int) : Nat := (x % 15).toNat

end Sys2Proof.Machine
end

