-- ==== Sys2Proof/Machine/RegTable.lean ====
section
/-! DEFINITION. Where each register lies (Tables 0.3, 2.7, 5.10, 6.12, 7.9, 8.8, 9.7, 10.5, 10.8, 11.6, 12.4, 13.9, 14.6,
15.6, 16.8, 17.2), and the fields of each: bits, access, reset value and Cleared-by letters, as the register tables of
spec/ give them (R9 to R12). `R` names the registers, `F` their fields. A field whose reset value the spec takes from a
record or from the register's own index has 0 here and its value in `Reg.resetWord` (Machine/RegReset.lean). -/

namespace Sys2Proof.Machine

/-- The place of a kind of register in its block. -/
def RegKind.geom : RegKind → Geom
  | .arrCfg => ⟨.tile, 0x80000, 128, 0x1000, 1, 0x4⟩
  | .arrStatus => ⟨.tile, 0x80004, 128, 0x1000, 1, 0x4⟩
  | .arrPortCmd => ⟨.tile, 0x80008, 128, 0x1000, 1, 0x4⟩
  | .arrCalStatus => ⟨.tile, 0x8000C, 128, 0x1000, 1, 0x4⟩
  | .arrSkipCnt => ⟨.tile, 0x80010, 128, 0x1000, 1, 0x4⟩
  | .arrSatCnt => ⟨.tile, 0x80014, 128, 0x1000, 1, 0x4⟩
  | .arrScrub => ⟨.tile, 0x80018, 128, 0x1000, 1, 0x4⟩
  | .arrChkCnt => ⟨.tile, 0x8001C, 128, 0x1000, 1, 0x4⟩
  | .arrCanary => ⟨.tile, 0x80020, 128, 0x1000, 1, 0x4⟩
  | .arrSpareMap => ⟨.tile, 0x80100, 128, 0x1000, 64, 0x4⟩
  | .arrPortData => ⟨.tile, 0x80400, 128, 0x1000, 32, 0x4⟩
  | .arrPortCheck => ⟨.tile, 0x80480, 128, 0x1000, 1, 0x4⟩
  | .vuQevent => ⟨.tile, 0x7000, 1, 0x0, 64, 0x4⟩
  | .vuOevent => ⟨.tile, 0x7100, 1, 0x0, 64, 0x4⟩
  | .vuRevent => ⟨.tile, 0x7200, 1, 0x0, 64, 0x4⟩
  | .tileAccCfg => ⟨.tile, 0x7300, 1, 0x0, 1, 0x4⟩
  | .tileId => ⟨.tile, 0x0, 1, 0x0, 1, 0x4⟩
  | .tileStatus => ⟨.tile, 0x4, 1, 0x0, 1, 0x4⟩
  | .tileRegion => ⟨.tile, 0x8, 1, 0x0, 1, 0x4⟩
  | .tileStoreErr => ⟨.tile, 0xC, 1, 0x0, 1, 0x4⟩
  | .tileTcMode => ⟨.tile, 0x10, 1, 0x0, 1, 0x4⟩
  | .tilePcHits => ⟨.tile, 0x14, 1, 0x0, 1, 0x4⟩
  | .tilePcMisses => ⟨.tile, 0x18, 1, 0x0, 1, 0x4⟩
  | .deStatus => ⟨.tile, 0x100, 1, 0x0, 1, 0x4⟩
  | .deSpare => ⟨.tile, 0x104, 1, 0x0, 1, 0x4⟩
  | .deChkCnt => ⟨.tile, 0x108, 1, 0x0, 1, 0x4⟩
  | .vuChkCnt => ⟨.tile, 0x200, 1, 0x0, 1, 0x4⟩
  | .vuSpareMap => ⟨.tile, 0x240, 1, 0x0, 16, 0x4⟩
  | .pfDesc => ⟨.tile, 0x1000, 16, 0x40, 7, 0x4⟩
  | .pfCtrl => ⟨.tile, 0x101C, 16, 0x40, 1, 0x4⟩
  | .pfStatus => ⟨.tile, 0x1020, 16, 0x40, 1, 0x4⟩
  | .cqCfg => ⟨.tile, 0x2000, 1, 0x0, 32, 0x8⟩
  | .cqState => ⟨.tile, 0x2004, 1, 0x0, 32, 0x8⟩
  | .cadCfg => ⟨.glb, 0x1000, 1, 0x0, 1, 0x4⟩
  | .cadStretch => ⟨.glb, 0x1004, 1, 0x0, 1, 0x4⟩
  | .cadAvs => ⟨.glb, 0x1008, 1, 0x0, 1, 0x4⟩
  | .cadBeatLo => ⟨.glb, 0x1010, 1, 0x0, 1, 0x4⟩
  | .cadBeatHi => ⟨.glb, 0x1014, 1, 0x0, 1, 0x4⟩
  | .glbTmapCtrl => ⟨.glb, 0x1020, 1, 0x0, 1, 0x4⟩
  | .glbTmapCur => ⟨.glb, 0x1200, 1, 0x0, 96, 0x4⟩
  | .glbTmapNext => ⟨.glb, 0x1400, 1, 0x0, 96, 0x4⟩
  | .partProgBaseLo => ⟨.part, 0x100, 1, 0x0, 1, 0x4⟩
  | .partProgBaseHi => ⟨.part, 0x104, 1, 0x0, 1, 0x4⟩
  | .partProgCtrl => ⟨.part, 0x108, 1, 0x0, 1, 0x4⟩
  | .partProgStatus => ⟨.part, 0x10C, 1, 0x0, 1, 0x4⟩
  | .partProgStart => ⟨.part, 0x110, 1, 0x0, 1, 0x4⟩
  | .tileTcEntry => ⟨.tile, 0x20, 1, 0x0, 4, 0x4⟩
  | .tileSeqPos => ⟨.tile, 0x30, 1, 0x0, 1, 0x4⟩
  | .tileSeqLag => ⟨.tile, 0x34, 1, 0x0, 1, 0x4⟩
  | .tileSeqStatus => ⟨.tile, 0x38, 1, 0x0, 1, 0x4⟩
  | .netStatus => ⟨.glb, 0x2000, 1, 0x0, 1, 0x4⟩
  | .netCompat => ⟨.glb, 0x2004, 1, 0x0, 1, 0x4⟩
  | .netRid => ⟨.glb, 0x2100, 1, 0x0, 16, 0x4⟩
  | .netSeam => ⟨.glb, 0x2200, 1, 0x0, 6, 0x4⟩
  | .rimeStatus => ⟨.glb, 0x2800, 1, 0x0, 1, 0x4⟩
  | .netRstat => ⟨.tile, 0x3000, 1, 0x0, 1, 0x4⟩
  | .netCred => ⟨.tile, 0x3010, 1, 0x0, 5, 0x4⟩
  | .netRctx => ⟨.tile, 0x3400, 1, 0x0, 256, 0x4⟩
  | .netRctxNext => ⟨.tile, 0x3800, 1, 0x0, 256, 0x4⟩
  | .portCfg => ⟨.port, 0x0, 1, 0x0, 1, 0x4⟩
  | .portStatus => ⟨.port, 0x4, 1, 0x0, 1, 0x4⟩
  | .portFec => ⟨.port, 0x8, 1, 0x0, 1, 0x4⟩
  | .portReplay => ⟨.port, 0xC, 1, 0x0, 1, 0x4⟩
  | .portLat => ⟨.port, 0x10, 1, 0x0, 1, 0x4⟩
  | .portRetry => ⟨.port, 0x14, 1, 0x0, 1, 0x4⟩
  | .portCred => ⟨.port, 0x20, 1, 0x0, 6, 0x4⟩
  | .cadAlign => ⟨.glb, 0x1040, 1, 0x0, 1, 0x4⟩
  | .cadMaster => ⟨.glb, 0x1044, 1, 0x0, 1, 0x4⟩
  | .cadMarks => ⟨.glb, 0x1048, 1, 0x0, 1, 0x4⟩
  | .glbBridge => ⟨.glb, 0x3000, 1, 0x0, 1, 0x4⟩
  | .glbBridgeCnt => ⟨.glb, 0x3004, 1, 0x0, 1, 0x4⟩
  | .partWgtEpochLo => ⟨.part, 0x200, 1, 0x0, 1, 0x4⟩
  | .partWgtEpochHi => ⟨.part, 0x204, 1, 0x0, 1, 0x4⟩
  | .partWgtStatus => ⟨.part, 0x208, 1, 0x0, 1, 0x4⟩
  | .partWgtCnt => ⟨.part, 0x20C, 1, 0x0, 1, 0x4⟩
  | .partWgtHold => ⟨.part, 0x210, 1, 0x0, 1, 0x4⟩
  | .partWgtLepoch => ⟨.part, 0x300, 1, 0x0, 64, 0x4⟩
  | .ringCmdBaseLo => ⟨.bar, 0x0, 1, 0x0, 1, 0x4⟩
  | .ringCmdBaseHi => ⟨.bar, 0x4, 1, 0x0, 1, 0x4⟩
  | .ringCmdSize => ⟨.bar, 0x8, 1, 0x0, 1, 0x4⟩
  | .ringCmdTail => ⟨.bar, 0xC, 1, 0x0, 1, 0x4⟩
  | .ringCmdHead => ⟨.bar, 0x10, 1, 0x0, 1, 0x4⟩
  | .ringRplBaseLo => ⟨.bar, 0x20, 1, 0x0, 1, 0x4⟩
  | .ringRplBaseHi => ⟨.bar, 0x24, 1, 0x0, 1, 0x4⟩
  | .ringRplSize => ⟨.bar, 0x28, 1, 0x0, 1, 0x4⟩
  | .ringRplHead => ⟨.bar, 0x2C, 1, 0x0, 1, 0x4⟩
  | .ringRplTail => ⟨.bar, 0x30, 1, 0x0, 1, 0x4⟩
  | .ringStatus => ⟨.bar, 0x34, 1, 0x0, 1, 0x4⟩
  | .funcIrqCause => ⟨.bar, 0x800, 1, 0x0, 16, 0x4⟩
  | .moulinBaseLo => ⟨.bar, 0x1000, 1, 0x0, 1, 0x4⟩
  | .moulinBaseHi => ⟨.bar, 0x1004, 1, 0x0, 1, 0x4⟩
  | .moulinSize => ⟨.bar, 0x1008, 1, 0x0, 1, 0x4⟩
  | .moulinHead => ⟨.bar, 0x100C, 1, 0x0, 1, 0x4⟩
  | .moulinTail => ⟨.bar, 0x1010, 1, 0x0, 1, 0x4⟩
  | .mbxSendData => ⟨.glb, 0x8000, 32, 0x100, 16, 0x4⟩
  | .mbxHostSendData => ⟨.bar, 0x10000, 32, 0x100, 16, 0x4⟩
  | .mbxSendCtrl => ⟨.glb, 0x8040, 32, 0x100, 1, 0x4⟩
  | .mbxHostSendCtrl => ⟨.bar, 0x10040, 32, 0x100, 1, 0x4⟩
  | .mbxRecvData => ⟨.glb, 0x8080, 32, 0x100, 16, 0x4⟩
  | .mbxHostRecvData => ⟨.bar, 0x10080, 32, 0x100, 16, 0x4⟩
  | .mbxRecvCtrl => ⟨.glb, 0x80C0, 32, 0x100, 1, 0x4⟩
  | .mbxHostRecvCtrl => ⟨.bar, 0x100C0, 32, 0x100, 1, 0x4⟩
  | .mbxCfg => ⟨.glb, 0x6000, 1, 0x0, 32, 0x4⟩
  | .syncPart => ⟨.glb, 0x6100, 1, 0x0, 16, 0x4⟩
  | .syncStatus => ⟨.glb, 0x6140, 1, 0x0, 1, 0x4⟩
  | .syncObj => ⟨.glb, 0x10000, 1, 0x0, 16384, 0x4⟩
  | .syncCfg => ⟨.glb, 0x20000, 1, 0x0, 16384, 0x4⟩
  | .partSvcStatus => ⟨.part, 0x400, 1, 0x0, 1, 0x4⟩
  | .partSvcCnt => ⟨.part, 0x404, 1, 0x0, 1, 0x4⟩
  | .partKvFree => ⟨.part, 0x408, 1, 0x0, 1, 0x4⟩
  | .partKvLent => ⟨.part, 0x40C, 1, 0x0, 1, 0x4⟩
  | .partKvBorrowed => ⟨.part, 0x410, 1, 0x0, 1, 0x4⟩
  | .partSvcEvt => ⟨.part, 0x414, 1, 0x0, 1, 0x4⟩
  | .partCfg => ⟨.part, 0x0, 1, 0x0, 1, 0x4⟩
  | .partTiles => ⟨.part, 0x4, 1, 0x0, 3, 0x4⟩
  | .partHbm => ⟨.part, 0x10, 1, 0x0, 2, 0x4⟩
  | .partQos => ⟨.part, 0x18, 1, 0x0, 1, 0x4⟩
  | .partIso => ⟨.part, 0x1C, 1, 0x0, 1, 0x4⟩
  | .partLinkShare => ⟨.part, 0x40, 1, 0x0, 16, 0x4⟩
  | .partIrqCfg => ⟨.part, 0x500, 1, 0x0, 16, 0x4⟩
  | .partIrqRoute => ⟨.part, 0x540, 1, 0x0, 1, 0x4⟩
  | .partIrqPend => ⟨.part, 0x544, 1, 0x0, 1, 0x4⟩
  | .cadExt => ⟨.glb, 0x1050, 1, 0x0, 1, 0x4⟩
  | .logStatus => ⟨.glb, 0x5000, 1, 0x0, 1, 0x4⟩
  | .logFill => ⟨.glb, 0x5004, 1, 0x0, 1, 0x4⟩
  | .logLost => ⟨.glb, 0x5008, 1, 0x0, 1, 0x4⟩
  | .logMoulin => ⟨.glb, 0x500C, 1, 0x0, 1, 0x4⟩
  | .logSpillBase => ⟨.glb, 0x5010, 1, 0x0, 1, 0x4⟩
  | .logSpillLen => ⟨.glb, 0x5014, 1, 0x0, 1, 0x4⟩
  | .glbHold => ⟨.glb, 0x5020, 1, 0x0, 1, 0x4⟩
  | .glbReserve => ⟨.glb, 0x5024, 1, 0x0, 1, 0x4⟩
  | .glbRedirect => ⟨.glb, 0x5040, 1, 0x0, 8, 0x4⟩
  | .pwrDom => ⟨.hk, 0x0, 1, 0x0, 72, 0x4⟩
  | .pwrStatus => ⟨.hk, 0x200, 1, 0x0, 1, 0x4⟩
  | .pwrInstall => ⟨.hk, 0x204, 1, 0x0, 1, 0x4⟩
  | .thmCfg => ⟨.hk, 0x1000, 1, 0x0, 1, 0x4⟩
  | .thmStatus => ⟨.hk, 0x1004, 1, 0x0, 1, 0x4⟩
  | .thmSens => ⟨.hk, 0x1100, 1, 0x0, 112, 0x4⟩
  | .supCfg => ⟨.hk, 0x2000, 1, 0x0, 1, 0x4⟩
  | .supStatus => ⟨.hk, 0x2004, 1, 0x0, 1, 0x4⟩
  | .supRail => ⟨.hk, 0x2010, 1, 0x0, 3, 0x4⟩
  | .hkTimer => ⟨.hk, 0x3000, 1, 0x0, 1, 0x4⟩
  | .hkMask => ⟨.hk, 0x3004, 1, 0x0, 2, 0x4⟩
  | .hkUrgent => ⟨.hk, 0x300C, 1, 0x0, 1, 0x4⟩
  | .hkStatus => ⟨.hk, 0x3010, 1, 0x0, 1, 0x4⟩
  | .hkFifo => ⟨.hk, 0x3014, 1, 0x0, 1, 0x4⟩
  | .hkCmpEvt => ⟨.hk, 0x3018, 1, 0x0, 1, 0x4⟩
  | .hkPwm => ⟨.hk, 0x3040, 1, 0x0, 16, 0x4⟩
  | .hkValue => ⟨.hk, 0x3100, 1, 0x0, 64, 0x4⟩
  | .hkCmpBnd => ⟨.hk, 0x3200, 1, 0x0, 16, 0x8⟩
  | .hkCmpCfg => ⟨.hk, 0x3204, 1, 0x0, 16, 0x8⟩
  | .glbRst => ⟨.glb, 0x5060, 1, 0x0, 1, 0x4⟩
  | .pwrMode => ⟨.hk, 0x208, 1, 0x0, 1, 0x4⟩
  | .pwrWake => ⟨.hk, 0x20C, 1, 0x0, 1, 0x4⟩
  | .pwrSlot => ⟨.hk, 0x210, 1, 0x0, 1, 0x4⟩
  | .secStatus => ⟨.sec, 0x0, 1, 0x0, 1, 0x4⟩
  | .secSessCtrl => ⟨.sec, 0x4, 1, 0x0, 1, 0x4⟩
  | .secSessNonce => ⟨.sec, 0x20, 1, 0x0, 8, 0x4⟩
  | .secDbgNonce => ⟨.sec, 0x40, 1, 0x0, 8, 0x4⟩
  | .secDbg => ⟨.sec, 0x60, 1, 0x0, 1, 0x4⟩
  | .secFw => ⟨.sec, 0x64, 1, 0x0, 1, 0x4⟩
  | .secSessResp => ⟨.sec, 0x100, 1, 0x0, 35, 0x4⟩
  | .ctrPcLo => ⟨.ctrTile, 0x0, 1, 0x0, 16, 0x8⟩
  | .ctrPcLoSh => ⟨.ctrTile, 0x800, 1, 0x0, 16, 0x8⟩
  | .ctrPcHi => ⟨.ctrTile, 0x4, 1, 0x0, 16, 0x8⟩
  | .ctrPcHiSh => ⟨.ctrTile, 0x804, 1, 0x0, 16, 0x8⟩
  | .ctrPcCfg => ⟨.ctrTile, 0x100, 1, 0x0, 16, 0x4⟩
  | .ctrTileStatus => ⟨.ctrTile, 0x140, 1, 0x0, 1, 0x4⟩
  | .ctrTileStatusSh => ⟨.ctrTile, 0x940, 1, 0x0, 1, 0x4⟩
  | .ctrTdLo => ⟨.ctrTile, 0x200, 11, 0x40, 5, 0x8⟩
  | .ctrTdLoSh => ⟨.ctrTile, 0xA00, 11, 0x40, 5, 0x8⟩
  | .ctrTdHi => ⟨.ctrTile, 0x204, 11, 0x40, 5, 0x8⟩
  | .ctrTdHiSh => ⟨.ctrTile, 0xA04, 11, 0x40, 5, 0x8⟩
  | .ctrPortLo => ⟨.ctrPort, 0x20, 8, 0x20, 2, 0x10⟩
  | .ctrPortLoSh => ⟨.ctrPort, 0x220, 8, 0x20, 2, 0x10⟩
  | .ctrPortHi => ⟨.ctrPort, 0x24, 8, 0x20, 2, 0x10⟩
  | .ctrPortHiSh => ⟨.ctrPort, 0x224, 8, 0x20, 2, 0x10⟩
  | .ctrPortWin => ⟨.ctrPort, 0x28, 8, 0x20, 2, 0x10⟩
  | .ctrPortWinSh => ⟨.ctrPort, 0x228, 8, 0x20, 2, 0x10⟩
  | .ctrSeamLo => ⟨.ctrSeam, 0x0, 4, 0x20, 2, 0x10⟩
  | .ctrSeamLoSh => ⟨.ctrSeam, 0x80, 4, 0x20, 2, 0x10⟩
  | .ctrSeamHi => ⟨.ctrSeam, 0x4, 4, 0x20, 2, 0x10⟩
  | .ctrSeamHiSh => ⟨.ctrSeam, 0x84, 4, 0x20, 2, 0x10⟩
  | .ctrSeamWin => ⟨.ctrSeam, 0x8, 4, 0x20, 2, 0x10⟩
  | .ctrSeamWinSh => ⟨.ctrSeam, 0x88, 4, 0x20, 2, 0x10⟩
  | .ctrCtrl => ⟨.ctrCtl, 0x0, 1, 0x0, 1, 0x4⟩
  | .ctrSnapBeatLo => ⟨.ctrCtl, 0x4, 1, 0x0, 1, 0x4⟩
  | .ctrSnapBeatHi => ⟨.ctrCtl, 0x8, 1, 0x0, 1, 0x4⟩
  | .ctrSnapCause => ⟨.ctrCtl, 0xC, 1, 0x0, 1, 0x4⟩

/-- The fields of a kind of register (reserved bits, which R10 covers, are in no row). -/
def RegKind.fields : RegKind → List FieldRow
  | .arrCfg => [⟨15, 15, .ro, 0, [.o, .d]⟩, ⟨14, 12, .rw, 1, [.o, .d]⟩, ⟨9, 8, .rw, 0, [.o, .d]⟩, ⟨2, 0, .rw, 0, [.o, .d]⟩]
  | .arrStatus => [⟨23, 16, .ro, 64, []⟩, ⟨6, 6, .rs, 0, [.o, .d]⟩, ⟨5, 5, .rs, 0, [.o, .m, .w, .t, .d, .s]⟩, ⟨4, 4, .rs, 0, [.o, .m, .w, .t, .d, .s]⟩, ⟨3, 3, .ro, 0, [.o, .m, .s]⟩, ⟨2, 2, .ro, 0, []⟩, ⟨1, 1, .ro, 0, [.o, .m, .d, .s]⟩, ⟨0, 0, .ro, 0, []⟩]
  | .arrPortCmd => [⟨31, 31, .ro, 0, []⟩, ⟨30, 30, .rs, 0, [.o, .m, .w, .t, .d, .s]⟩, ⟨25, 21, .rw, 0, [.o, .m, .w, .t, .d, .s]⟩, ⟨20, 11, .rw, 0, [.o, .m, .w, .t, .d, .s]⟩, ⟨2, 0, .wo, 0, []⟩]
  | .arrCalStatus => [⟨23, 12, .ro, 0, [.o, .m, .d, .s]⟩, ⟨5, 1, .ro, 0, [.o, .m, .d, .s]⟩, ⟨0, 0, .ro, 0, [.o, .m, .d, .s]⟩]
  | .arrSkipCnt => [⟨31, 0, .ro, 0, [.o, .m, .w, .x, .t, .s]⟩]
  | .arrSatCnt => [⟨31, 16, .ro, 0, [.o, .m, .w, .x, .t, .s]⟩, ⟨15, 0, .ro, 0, [.o, .m, .w, .x, .t, .s]⟩]
  | .arrScrub => [⟨31, 31, .ro, 0, [.o, .m, .w, .t, .d, .s]⟩, ⟨25, 16, .ro, 0, [.o, .m, .w, .t, .d, .s]⟩, ⟨9, 0, .ro, 0, [.o, .m, .d, .s]⟩]
  | .arrChkCnt => [⟨31, 16, .ro, 0, [.o, .m, .w, .x, .t, .s]⟩, ⟨15, 8, .ro, 0, [.o, .m, .w, .x, .t, .s]⟩, ⟨7, 0, .ro, 0, [.o, .m, .w, .x, .t, .s]⟩]
  | .arrCanary => [⟨31, 31, .rs, 0, [.o, .m, .w, .t, .d, .s]⟩, ⟨30, 30, .ro, 0, []⟩, ⟨23, 16, .ro, 0, [.o, .m, .w, .t, .d, .s]⟩, ⟨15, 0, .ro, 0, [.o, .m, .w, .x, .t, .s]⟩]
  | .arrSpareMap => [⟨31, 31, .rw, 0, []⟩, ⟨30, 30, .ro, 0, []⟩, ⟨10, 0, .rw, 0, []⟩]
  | .arrPortData => [⟨31, 0, .rw, 0, [.o, .m, .w, .t, .d, .s]⟩]
  | .arrPortCheck => [⟨11, 0, .ro, 0, [.o, .m, .w, .t, .d, .s]⟩]
  | .vuQevent => [⟨31, 16, .ro, 0, [.o, .m, .w, .x, .t, .s]⟩, ⟨15, 0, .ro, 0, [.o, .m, .w, .x, .t, .s]⟩]
  | .vuOevent => [⟨31, 16, .ro, 0, [.o, .m, .w, .x, .t, .s]⟩, ⟨15, 0, .ro, 0, [.o, .m, .w, .x, .t, .s]⟩]
  | .vuRevent => [⟨15, 0, .ro, 0, [.o, .m, .w, .x, .t, .s]⟩]
  | .tileAccCfg => [⟨25, 16, .rw, 10, [.o, .m, .d, .s]⟩, ⟨3, 0, .rw, 12, [.o, .m, .d, .s]⟩]
  | .tileId => [⟨7, 7, .ro, 0, []⟩, ⟨6, 0, .ro, 0, []⟩]
  | .tileStatus => [⟨2, 2, .ro, 0, [.o, .m]⟩, ⟨1, 1, .rs, 0, [.o, .m, .w, .x, .t, .d, .s]⟩, ⟨0, 0, .ro, 0, []⟩]
  | .tileRegion => [⟨18, 16, .rw, 0, [.o, .m, .w, .x, .t, .d, .s]⟩, ⟨15, 8, .rw, 0, [.o, .m, .w, .x, .t, .d, .s]⟩, ⟨7, 0, .rw, 16, [.o, .m, .w, .x, .t, .d, .s]⟩]
  | .tileStoreErr => [⟨31, 16, .ro, 0, [.o, .m, .w, .x, .t, .s]⟩, ⟨15, 0, .ro, 0, [.o, .m, .w, .x, .t, .s]⟩]
  | .tileTcMode => [⟨19, 4, .rw, 0, [.o, .m, .w, .x, .t, .d, .s]⟩, ⟨3, 0, .rw, 0, [.o, .m, .w, .x, .t, .d, .s]⟩]
  | .tilePcHits => [⟨31, 0, .ro, 0, [.o, .m, .w, .x, .t, .s]⟩]
  | .tilePcMisses => [⟨31, 0, .ro, 0, [.o, .m, .w, .x, .t, .s]⟩]
  | .deStatus => [⟨15, 8, .ro, 0, [.o, .m, .w, .x, .t, .s]⟩, ⟨1, 1, .ro, 0, []⟩, ⟨0, 0, .ro, 0, []⟩]
  | .deSpare => [⟨31, 31, .ro, 0, []⟩, ⟨30, 24, .ro, 0, []⟩, ⟨23, 23, .ro, 0, []⟩, ⟨22, 16, .ro, 0, []⟩, ⟨3, 0, .ro, 0, []⟩]
  | .deChkCnt => [⟨31, 16, .ro, 0, [.o, .m, .w, .x, .t, .s]⟩, ⟨15, 0, .ro, 0, [.o, .m, .w, .x, .t, .s]⟩]
  | .vuChkCnt => [⟨31, 16, .ro, 0, [.o, .m, .w, .x, .t, .s]⟩, ⟨15, 0, .ro, 0, [.o, .m, .w, .x, .t, .s]⟩]
  | .vuSpareMap => [⟨31, 31, .ro, 0, []⟩, ⟨5, 0, .ro, 0, []⟩]
  | .pfDesc => [⟨31, 0, .rw, 0, [.o, .m, .w, .x, .t, .d, .s]⟩]
  | .pfCtrl => [⟨1, 1, .wo, 0, []⟩, ⟨0, 0, .wo, 0, []⟩]
  | .pfStatus => [⟨31, 31, .rs, 0, [.o, .m, .w, .x, .t, .d, .s]⟩, ⟨30, 28, .ro, 0, [.o, .m, .w, .x, .t, .d, .s]⟩, ⟨23, 16, .ro, 0, [.o, .m, .w, .x, .t, .s]⟩, ⟨2, 0, .ro, 0, [.o, .m, .w, .x, .t, .s]⟩]
  | .cqCfg => [⟨7, 0, .rw, 1, [.o, .m, .w, .x, .t, .d, .s]⟩]
  | .cqState => [⟨31, 24, .ro, 0, [.o, .m, .w, .x, .t, .s]⟩, ⟨23, 16, .ro, 0, [.o, .m, .w, .x, .t, .s]⟩, ⟨15, 8, .ro, 0, [.o, .m, .w, .x, .t, .s]⟩, ⟨7, 0, .ro, 0, [.o, .m, .w, .x, .t, .s]⟩]
  | .cadCfg => [⟨31, 31, .rw, 0, [.o, .m, .s]⟩, ⟨16, 8, .ro, 0, []⟩, ⟨6, 0, .ro, 0, []⟩]
  | .cadStretch => [⟨16, 16, .ro, 0, [.o, .m, .s]⟩, ⟨15, 8, .ro, 0, [.o, .m, .s]⟩, ⟨7, 0, .ro, 0, [.o, .m, .s]⟩]
  | .cadAvs => [⟨23, 16, .rw, 15, [.o, .m, .s]⟩, ⟨15, 8, .ro, 0, [.o, .m, .s]⟩, ⟨7, 0, .ro, 40, [.o, .m, .s]⟩]
  | .cadBeatLo => [⟨31, 0, .ro, 0, [.o, .m, .s]⟩]
  | .cadBeatHi => [⟨31, 0, .ro, 0, [.o, .m, .s]⟩]
  | .glbTmapCtrl => [⟨1, 1, .rs, 0, [.o, .m, .w, .d, .s]⟩, ⟨0, 0, .rw, 0, [.o, .m, .w, .d, .s]⟩]
  | .glbTmapCur => [⟨7, 7, .ro, 0, [.o, .m, .s]⟩, ⟨6, 0, .ro, 0, [.o, .m, .s]⟩]
  | .glbTmapNext => [⟨7, 0, .rw, 0, [.o, .m, .w, .d, .s]⟩]
  | .partProgBaseLo => [⟨31, 0, .rw, 0, [.o, .m, .x, .d, .s]⟩]
  | .partProgBaseHi => [⟨4, 0, .rw, 0, [.o, .m, .x, .d, .s]⟩]
  | .partProgCtrl => [⟨17, 16, .rw, 0, [.o, .m, .w, .x, .d, .s]⟩]
  | .partProgStatus => [⟨17, 16, .ro, 0, [.o, .m, .w, .x, .d, .s]⟩, ⟨15, 8, .ro, 0, [.o, .m, .w, .x, .d, .s]⟩, ⟨1, 0, .ro, 0, [.o, .m, .w, .x, .d, .s]⟩]
  | .partProgStart => [⟨31, 0, .ro, 0, [.o, .m, .w, .x, .d, .s]⟩]
  | .tileTcEntry => [⟨22, 2, .rw, 0, [.o, .m, .w, .x, .t, .d, .s]⟩]
  | .tileSeqPos => [⟨31, 16, .ro, 0, [.o, .m, .w, .x, .t, .s]⟩, ⟨15, 0, .ro, 0, [.o, .m, .w, .x, .t, .s]⟩]
  | .tileSeqLag => [⟨31, 16, .rc, 0, [.o, .m, .w, .x, .t, .s]⟩, ⟨15, 0, .ro, 0, [.o, .m, .w, .x, .t, .s]⟩]
  | .tileSeqStatus => [⟨31, 16, .ro, 0, [.o, .m, .w, .x, .t, .s]⟩, ⟨15, 8, .ro, 0, [.o, .m, .w, .x, .t, .s]⟩, ⟨0, 0, .rs, 0, [.o, .m, .w, .x, .t, .d, .s]⟩]
  | .netStatus => [⟨2, 2, .rs, 0, [.o, .m, .w, .d, .s]⟩, ⟨1, 1, .rs, 0, [.o, .m, .d, .s]⟩, ⟨0, 0, .rs, 0, [.o, .m, .w, .d, .s]⟩]
  | .netCompat => [⟨15, 0, .ro, 0, [.o, .m, .w, .d, .s]⟩]
  | .netRid => [⟨31, 18, .rw, 0, [.o, .m, .d, .s]⟩, ⟨16, 8, .rw, 0, [.o, .m, .d, .s]⟩, ⟨7, 0, .rw, 0, [.o, .m, .d, .s]⟩]
  | .netSeam => [⟨31, 16, .ro, 0, [.o, .m, .w, .s]⟩, ⟨15, 8, .ro, 0, []⟩]
  | .rimeStatus => [⟨31, 16, .ro, 0, [.o, .m, .w, .s]⟩, ⟨15, 0, .ro, 0, [.o, .m, .w, .s]⟩]
  | .netRstat => [⟨31, 16, .ro, 0, [.o, .m, .w, .t, .s]⟩, ⟨15, 8, .ro, 0, [.o, .m, .w, .t, .s]⟩, ⟨6, 6, .ro, 0, []⟩, ⟨5, 0, .ro, 0, []⟩]
  | .netCred => [⟨31, 24, .ro, 0, [.o, .m, .s]⟩, ⟨23, 16, .ro, 0, [.o, .m, .s]⟩, ⟨15, 8, .ro, 0, [.o, .m, .s]⟩, ⟨7, 0, .ro, 0, [.o, .m, .s]⟩]
  | .netRctx => [⟨31, 31, .rw, 0, [.o, .m, .w, .x, .d, .s]⟩, ⟨30, 26, .rw, 0, [.o, .m, .w, .x, .d, .s]⟩, ⟨25, 22, .rw, 0, [.o, .m, .w, .x, .d, .s]⟩, ⟨21, 14, .rw, 0, [.o, .m, .w, .x, .d, .s]⟩]
  | .netRctxNext => [⟨31, 14, .rw, 0, [.o, .m, .w, .x, .d, .s]⟩]
  | .portCfg => [⟨2, 2, .wo, 0, []⟩, ⟨1, 1, .rw, 0, [.o, .m, .p, .s]⟩, ⟨0, 0, .ro, 0, []⟩]
  | .portStatus => [⟨18, 18, .rs, 0, [.o, .m, .w, .p, .s]⟩, ⟨17, 17, .rs, 0, [.o, .m, .w, .p, .s]⟩, ⟨16, 16, .rs, 0, [.o, .m, .p, .s]⟩, ⟨15, 12, .ro, 0, [.o, .m, .p, .s]⟩, ⟨6, 4, .ro, 0, [.o, .m, .p, .s]⟩, ⟨2, 0, .ro, 0, [.o, .m, .p, .s]⟩]
  | .portFec => [⟨31, 16, .ro, 0, [.o, .m, .w, .p, .s]⟩, ⟨15, 0, .ro, 0, [.o, .m, .w, .p, .s]⟩]
  | .portReplay => [⟨31, 16, .ro, 0, [.o, .m, .w, .p, .s]⟩, ⟨15, 0, .ro, 0, [.o, .m, .w, .p, .s]⟩]
  | .portLat => [⟨31, 16, .ro, 0, [.o, .m, .p, .s]⟩, ⟨15, 0, .ro, 0, [.o, .m, .p, .s]⟩]
  | .portRetry => [⟨9, 0, .ro, 0, [.o, .m, .p, .s]⟩]
  | .portCred => [⟨31, 16, .ro, 0, []⟩, ⟨15, 0, .ro, 0, [.o, .m, .p, .s]⟩]
  | .cadAlign => [⟨31, 31, .ro, 0, [.o, .m, .s]⟩, ⟨30, 30, .rs, 0, [.o, .m, .s]⟩, ⟨29, 29, .rs, 0, [.o, .m, .s]⟩, ⟨23, 16, .rc, 0, [.o, .m, .s]⟩, ⟨15, 0, .ro, 0, [.o, .m, .s]⟩]
  | .cadMaster => [⟨31, 24, .ro, 0, [.o, .m, .s]⟩, ⟨9, 0, .ro, 0, [.o, .m, .s]⟩]
  | .cadMarks => [⟨31, 0, .ro, 0, [.o, .m, .w, .s]⟩]
  | .glbBridge => [⟨31, 31, .ro, 0, [.o, .m, .s]⟩, ⟨30, 28, .ro, 0, [.o, .m, .s]⟩, ⟨27, 23, .ro, 0, [.o, .m, .s]⟩, ⟨5, 0, .ro, 0, [.o, .m, .s]⟩]
  | .glbBridgeCnt => [⟨31, 16, .ro, 0, [.o, .m, .w, .s]⟩, ⟨15, 0, .ro, 0, [.o, .m, .w, .s]⟩]
  | .partWgtEpochLo => [⟨31, 0, .ro, 0, [.o, .d]⟩]
  | .partWgtEpochHi => [⟨31, 0, .ro, 0, [.o, .d]⟩]
  | .partWgtStatus => [⟨31, 28, .ro, 0, [.o, .m, .w, .x, .d, .s]⟩, ⟨27, 24, .ro, 0, [.o, .m, .w, .x, .d, .s]⟩, ⟨23, 16, .ro, 0, [.o, .m, .w, .x, .d, .s]⟩, ⟨15, 0, .ro, 0, [.o, .m, .w, .x, .d, .s]⟩]
  | .partWgtCnt => [⟨31, 16, .ro, 0, [.o, .m, .w, .x, .s]⟩, ⟨15, 0, .ro, 0, [.o, .m, .w, .x, .s]⟩]
  | .partWgtHold => [⟨31, 16, .ro, 0, [.o, .m, .w, .x, .s]⟩, ⟨15, 0, .ro, 0, [.o, .m, .w, .x, .s]⟩]
  | .partWgtLepoch => [⟨31, 0, .ro, 0, [.o, .d]⟩]
  | .ringCmdBaseLo => [⟨31, 0, .rw, 0, [.o, .m, .s]⟩]
  | .ringCmdBaseHi => [⟨31, 0, .rw, 0, [.o, .m, .s]⟩]
  | .ringCmdSize => [⟨3, 0, .rw, 4, [.o, .m, .s]⟩]
  | .ringCmdTail => [⟨11, 0, .rw, 0, [.o, .m, .s]⟩]
  | .ringCmdHead => [⟨11, 0, .ro, 0, [.o, .m, .s]⟩]
  | .ringRplBaseLo => [⟨31, 0, .rw, 0, [.o, .m, .s]⟩]
  | .ringRplBaseHi => [⟨31, 0, .rw, 0, [.o, .m, .s]⟩]
  | .ringRplSize => [⟨3, 0, .rw, 4, [.o, .m, .s]⟩]
  | .ringRplHead => [⟨11, 0, .rw, 0, [.o, .m, .s]⟩]
  | .ringRplTail => [⟨11, 0, .ro, 0, [.o, .m, .s]⟩]
  | .ringStatus => [⟨31, 16, .ro, 0, [.o, .m, .s]⟩, ⟨1, 1, .rs, 0, [.o, .m, .s]⟩, ⟨0, 0, .rw, 0, [.o, .m, .s]⟩]
  | .funcIrqCause => [⟨31, 31, .w1c, 0, [.o, .m, .s]⟩, ⟨25, 16, .ro, 0, [.o, .m, .s]⟩, ⟨5, 0, .w1c, 0, [.o, .m, .s]⟩]
  | .moulinBaseLo => [⟨31, 0, .rw, 0, [.o, .m, .s]⟩]
  | .moulinBaseHi => [⟨31, 0, .rw, 0, [.o, .m, .s]⟩]
  | .moulinSize => [⟨4, 0, .rw, 0, [.o, .m, .s]⟩]
  | .moulinHead => [⟨15, 0, .rw, 0, [.o, .m, .s]⟩]
  | .moulinTail => [⟨15, 0, .ro, 0, [.o, .m, .s]⟩]
  | .mbxSendData => [⟨31, 0, .rw, 0, [.o, .m, .w, .x, .d, .s]⟩]
  | .mbxHostSendData => [⟨31, 0, .rw, 0, [.o, .m, .w, .x, .d, .s]⟩]
  | .mbxSendCtrl => [⟨31, 16, .ro, 0, [.o, .m, .w, .x, .d, .s]⟩, ⟨1, 1, .rs, 0, [.o, .m, .w, .x, .d, .s]⟩, ⟨0, 0, .rw, 0, [.o, .m, .w, .x, .d, .s]⟩]
  | .mbxHostSendCtrl => [⟨31, 16, .ro, 0, [.o, .m, .w, .x, .d, .s]⟩, ⟨1, 1, .rs, 0, [.o, .m, .w, .x, .d, .s]⟩, ⟨0, 0, .rw, 0, [.o, .m, .w, .x, .d, .s]⟩]
  | .mbxRecvData => [⟨31, 0, .ro, 0, [.o, .m, .w, .x, .d, .s]⟩]
  | .mbxHostRecvData => [⟨31, 0, .ro, 0, [.o, .m, .w, .x, .d, .s]⟩]
  | .mbxRecvCtrl => [⟨31, 16, .ro, 0, [.o, .m, .w, .x, .d, .s]⟩, ⟨1, 1, .wo, 0, []⟩, ⟨0, 0, .ro, 0, [.o, .m, .w, .x, .d, .s]⟩]
  | .mbxHostRecvCtrl => [⟨31, 16, .ro, 0, [.o, .m, .w, .x, .d, .s]⟩, ⟨1, 1, .wo, 0, []⟩, ⟨0, 0, .ro, 0, [.o, .m, .w, .x, .d, .s]⟩]
  | .mbxCfg => [⟨31, 31, .ro, 0, []⟩, ⟨25, 16, .rw, 1023, [.o, .m, .w, .d, .s]⟩, ⟨3, 0, .rw, 0, [.o, .m, .w, .d, .s]⟩]
  | .syncPart => [⟨30, 16, .rw, 0, [.o, .m, .s]⟩, ⟨13, 0, .rw, 0, [.o, .m, .s]⟩]
  | .syncStatus => [⟨31, 16, .ro, 0, [.o, .m, .w, .s]⟩, ⟨1, 1, .rs, 0, [.o, .m, .w, .s]⟩, ⟨0, 0, .rs, 0, [.o, .m, .w, .s]⟩]
  | .syncObj => [⟨31, 0, .rw, 0, [.o, .m, .w, .x, .s]⟩]
  | .syncCfg => [⟨1, 0, .rw, 3, [.o, .m, .s]⟩]
  | .partSvcStatus => [⟨31, 16, .ro, 0, [.o, .m, .w, .x, .d, .s]⟩, ⟨15, 0, .ro, 0, [.o, .m, .w, .x, .d, .s]⟩]
  | .partSvcCnt => [⟨31, 16, .ro, 0, [.o, .m, .w, .x, .d, .s]⟩, ⟨15, 0, .ro, 0, [.o, .m, .w, .x, .d, .s]⟩]
  | .partKvFree => [⟨31, 0, .ro, 0, [.o, .m, .w, .x, .d, .s]⟩]
  | .partKvLent => [⟨31, 0, .ro, 0, [.o, .m, .w, .x, .d, .s]⟩]
  | .partKvBorrowed => [⟨31, 0, .ro, 0, [.o, .m, .w, .x, .d, .s]⟩]
  | .partSvcEvt => [⟨31, 16, .ro, 0, [.o, .m, .w, .x, .d, .s]⟩, ⟨15, 0, .ro, 0, [.o, .m, .w, .x, .d, .s]⟩]
  | .partCfg => [⟨31, 30, .ro, 0, [.o, .m, .d, .s]⟩, ⟨21, 16, .ro, 0, [.o, .m, .d, .s]⟩, ⟨15, 8, .ro, 0, [.o, .m, .d, .s]⟩, ⟨7, 0, .ro, 0, [.o, .m, .d, .s]⟩]
  | .partTiles => [⟨31, 0, .ro, 0, [.o, .m, .d, .s]⟩]
  | .partHbm => [⟨27, 16, .ro, 0, [.o, .m, .d, .s]⟩, ⟨11, 0, .ro, 0, [.o, .m, .d, .s]⟩]
  | .partQos => [⟨31, 31, .ro, 0, [.o, .m, .w, .d, .s]⟩, ⟨24, 16, .ro, 0, [.o, .m, .d, .s]⟩, ⟨7, 0, .ro, 0, [.o, .m, .d, .s]⟩]
  | .partIso => [⟨31, 16, .ro, 0, [.o, .m, .w, .x, .s]⟩, ⟨15, 0, .ro, 0, [.o, .m, .w, .x, .s]⟩]
  | .partLinkShare => [⟨7, 0, .ro, 0, [.o, .m, .d, .s]⟩]
  | .partIrqCfg => [⟨31, 12, .ro, 0, [.o, .m, .x, .d, .s]⟩, ⟨11, 0, .ro, 1, [.o, .m, .x, .d, .s]⟩]
  | .partIrqRoute => [⟨23, 0, .rw, 5517840, [.o, .m, .x, .d, .s]⟩]
  | .partIrqPend => [⟨15, 0, .ro, 0, [.o, .m, .x, .d, .s]⟩]
  | .cadExt => [⟨31, 24, .ro, 0, [.o, .m, .s]⟩, ⟨23, 16, .ro, 0, [.o, .m, .w, .s]⟩, ⟨15, 0, .ro, 0, [.o, .m, .w, .s]⟩]
  | .logStatus => [⟨31, 31, .ro, 0, [.o]⟩, ⟨30, 30, .ro, 0, [.o]⟩, ⟨29, 29, .rs, 0, [.o]⟩, ⟨24, 16, .ro, 0, [.o]⟩, ⟨10, 0, .ro, 0, [.o]⟩]
  | .logFill => [⟨16, 0, .ro, 0, [.o]⟩]
  | .logLost => [⟨31, 0, .ro, 0, [.o]⟩]
  | .logMoulin => [⟨17, 16, .ro, 1, [.o, .m, .s]⟩, ⟨13, 0, .ro, 100, [.o, .m, .s]⟩]
  | .logSpillBase => [⟨31, 0, .ro, 0, [.o, .m, .s]⟩]
  | .logSpillLen => [⟨31, 0, .ro, 0, [.o, .m, .s]⟩]
  | .glbHold => [⟨31, 16, .ro, 0, [.o, .m, .w, .s]⟩, ⟨15, 0, .ro, 0, [.o, .m, .w, .s]⟩]
  | .glbReserve => [⟨15, 8, .ro, 0, [.o, .m, .s]⟩, ⟨7, 0, .ro, 0, [.o, .m, .s]⟩]
  | .glbRedirect => [⟨31, 31, .ro, 0, [.o, .m, .s]⟩, ⟨25, 16, .ro, 0, [.o, .m, .s]⟩, ⟨9, 0, .ro, 0, [.o, .m, .s]⟩]
  | .pwrDom => [⟨31, 16, .ro, 0, [.o]⟩, ⟨5, 4, .rw, 0, [.o, .m, .s]⟩, ⟨2, 2, .ro, 0, []⟩, ⟨1, 0, .ro, 0, [.o]⟩]
  | .pwrStatus => [⟨7, 0, .ro, 0, [.o]⟩]
  | .pwrInstall => [⟨0, 0, .wo, 0, []⟩]
  | .thmCfg => [⟨29, 20, .rw, 472, [.o, .m, .w, .s]⟩, ⟨19, 10, .rw, 400, [.o, .m, .w, .s]⟩, ⟨9, 0, .rw, 380, [.o, .m, .w, .s]⟩]
  | .thmStatus => [⟨31, 31, .ro, 0, [.o]⟩, ⟨30, 30, .ro, 0, [.o, .m, .s]⟩, ⟨29, 29, .ro, 0, [.o, .m, .s]⟩, ⟨28, 28, .rs, 0, [.o, .m, .w, .s]⟩, ⟨27, 20, .ro, 0, [.o, .m, .s]⟩, ⟨19, 13, .ro, 0, [.o, .m, .s]⟩, ⟨11, 0, .ro, 0, [.o, .m, .s]⟩]
  | .thmSens => [⟨31, 31, .ro, 0, [.o, .m, .s]⟩, ⟨25, 24, .ro, 0, [.o, .m, .s]⟩, ⟨23, 12, .ro, 0, [.o, .m, .s]⟩, ⟨11, 0, .ro, 0, [.o, .m, .s]⟩]
  | .supCfg => [⟨23, 16, .rw, 25, [.o, .m, .w, .s]⟩, ⟨15, 8, .rw, 88, [.o, .m, .w, .s]⟩, ⟨7, 0, .rw, 94, [.o, .m, .w, .s]⟩]
  | .supStatus => [⟨15, 8, .ro, 0, [.o, .m, .s]⟩, ⟨2, 2, .rs, 0, [.o, .m, .w, .s]⟩, ⟨1, 1, .ro, 0, [.o, .m, .s]⟩, ⟨0, 0, .ro, 0, [.o, .m, .s]⟩]
  | .supRail => [⟨31, 31, .ro, 0, [.o, .m, .s]⟩, ⟨27, 16, .ro, 0, [.o, .m, .s]⟩, ⟨15, 0, .ro, 0, [.o, .m, .w, .s]⟩]
  | .hkTimer => [⟨19, 0, .rw, 100, [.o, .m, .s]⟩]
  | .hkMask => [⟨31, 0, .rw, 0, [.o, .m, .s]⟩]
  | .hkUrgent => [⟨18, 16, .ro, 0, [.o, .m, .w, .s]⟩, ⟨5, 0, .wo, 0, []⟩]
  | .hkStatus => [⟨31, 24, .ro, 0, [.o, .m, .w, .s]⟩, ⟨23, 16, .ro, 0, [.o, .m, .w, .s]⟩, ⟨15, 10, .ro, 0, [.o, .m, .w, .s]⟩, ⟨9, 9, .ro, 0, []⟩, ⟨8, 0, .ro, 0, [.o, .m, .s]⟩]
  | .hkFifo => [⟨31, 31, .rc, 0, [.o, .m, .s]⟩, ⟨30, 29, .rc, 0, [.o, .m, .s]⟩, ⟨28, 23, .rc, 0, [.o, .m, .s]⟩, ⟨22, 12, .rc, 0, [.o, .m, .s]⟩, ⟨11, 0, .rc, 0, [.o, .m, .s]⟩]
  | .hkCmpEvt => [⟨15, 0, .w1c, 0, [.o, .m, .s]⟩]
  | .hkPwm => [⟨31, 31, .rw, 0, [.o, .m, .s]⟩, ⟨15, 0, .rw, 0, [.o, .m, .s]⟩]
  | .hkValue => [⟨31, 31, .ro, 0, [.o, .m, .s]⟩, ⟨30, 29, .ro, 0, [.o, .m, .s]⟩, ⟨22, 12, .ro, 0, [.o, .m, .s]⟩, ⟨11, 0, .ro, 0, [.o, .m, .s]⟩]
  | .hkCmpBnd => [⟨27, 16, .rw, 0, [.o, .m, .s]⟩, ⟨11, 0, .rw, 0, [.o, .m, .s]⟩]
  | .hkCmpCfg => [⟨31, 31, .rw, 0, [.o, .m, .s]⟩, ⟨30, 30, .rw, 0, [.o, .m, .s]⟩, ⟨29, 28, .ro, 0, [.o, .m, .s]⟩, ⟨27, 22, .rw, 0, [.o, .m, .s]⟩, ⟨15, 8, .rw, 0, [.o, .m, .s]⟩, ⟨7, 0, .rw, 0, [.o, .m, .s]⟩]
  | .glbRst => [⟨31, 28, .ro, 1, [.o]⟩, ⟨27, 24, .ro, 0, [.o, .m]⟩, ⟨15, 8, .ro, 0, [.o]⟩, ⟨7, 0, .ro, 0, [.o]⟩]
  | .pwrMode => [⟨3, 3, .ro, 0, [.o, .m, .s]⟩, ⟨2, 0, .ro, 0, [.o, .m, .s]⟩]
  | .pwrWake => [⟨1, 1, .ro, 0, []⟩, ⟨0, 0, .wo, 0, []⟩]
  | .pwrSlot => [⟨21, 21, .ro, 0, [.o]⟩, ⟨20, 18, .ro, 0, [.o]⟩, ⟨17, 15, .ro, 2, [.o]⟩, ⟨9, 0, .ro, 0, [.o, .m]⟩]
  | .secStatus => [⟨3, 3, .ro, 0, []⟩, ⟨2, 2, .ro, 0, []⟩, ⟨1, 1, .ro, 0, [.o]⟩, ⟨0, 0, .ro, 0, [.o, .m, .d, .s]⟩]
  | .secSessCtrl => [⟨2, 2, .wo, 0, []⟩, ⟨1, 1, .wo, 0, []⟩, ⟨0, 0, .ro, 0, [.o, .m, .d, .s]⟩]
  | .secSessNonce => [⟨31, 0, .ro, 0, []⟩]
  | .secDbgNonce => [⟨31, 0, .ro, 0, []⟩]
  | .secDbg => [⟨31, 24, .ro, 0, [.o, .m]⟩, ⟨2, 1, .ro, 0, [.o, .m]⟩, ⟨0, 0, .ro, 0, [.o, .m]⟩]
  | .secFw => [⟨23, 16, .ro, 0, []⟩, ⟨15, 2, .ro, 0, [.o, .m]⟩, ⟨1, 1, .ro, 0, [.o, .m]⟩, ⟨0, 0, .ro, 0, []⟩]
  | .secSessResp => [⟨31, 0, .wo, 0, []⟩]
  | .ctrPcLo => [⟨31, 0, .ro, 0, [.o, .m, .w, .x, .t, .s]⟩]
  | .ctrPcLoSh => [⟨31, 0, .ro, 0, [.o, .m, .w, .x, .t, .s]⟩]
  | .ctrPcHi => [⟨15, 0, .ro, 0, [.o, .m, .w, .x, .t, .s]⟩]
  | .ctrPcHiSh => [⟨15, 0, .ro, 0, [.o, .m, .w, .x, .t, .s]⟩]
  | .ctrPcCfg => [⟨26, 0, .rw, 0, [.o, .m, .w, .x, .t, .s]⟩]
  | .ctrTileStatus => [⟨17, 17, .w1c, 0, [.o, .m, .w, .x, .t, .s]⟩, ⟨15, 0, .w1c, 0, [.o, .m, .w, .x, .t, .s]⟩]
  | .ctrTileStatusSh => [⟨17, 17, .ro, 0, [.o, .m, .w, .x, .t, .s]⟩, ⟨15, 0, .ro, 0, [.o, .m, .w, .x, .t, .s]⟩]
  | .ctrTdLo => [⟨31, 0, .ro, 0, [.o, .m, .w, .x, .t, .s]⟩]
  | .ctrTdLoSh => [⟨31, 0, .ro, 0, [.o, .m, .w, .x, .t, .s]⟩]
  | .ctrTdHi => [⟨31, 16, .ro, 0, [.o, .m, .w, .x, .t, .s]⟩, ⟨15, 0, .ro, 0, [.o, .m, .w, .x, .t, .s]⟩]
  | .ctrTdHiSh => [⟨31, 16, .ro, 0, [.o, .m, .w, .x, .t, .s]⟩, ⟨15, 0, .ro, 0, [.o, .m, .w, .x, .t, .s]⟩]
  | .ctrPortLo => [⟨31, 0, .ro, 0, [.o, .m, .w, .p, .s]⟩]
  | .ctrPortLoSh => [⟨31, 0, .ro, 0, [.o, .m, .w, .p, .s]⟩]
  | .ctrPortHi => [⟨31, 16, .ro, 0, [.o, .m, .w, .p, .s]⟩, ⟨15, 0, .ro, 0, [.o, .m, .w, .p, .s]⟩]
  | .ctrPortHiSh => [⟨31, 16, .ro, 0, [.o, .m, .w, .p, .s]⟩, ⟨15, 0, .ro, 0, [.o, .m, .w, .p, .s]⟩]
  | .ctrPortWin => [⟨31, 0, .ro, 0, [.o, .m, .w, .p, .s]⟩]
  | .ctrPortWinSh => [⟨31, 0, .ro, 0, [.o, .m, .w, .p, .s]⟩]
  | .ctrSeamLo => [⟨31, 0, .ro, 0, [.o, .m, .w, .s]⟩]
  | .ctrSeamLoSh => [⟨31, 0, .ro, 0, [.o, .m, .w, .s]⟩]
  | .ctrSeamHi => [⟨31, 16, .ro, 0, [.o, .m, .w, .s]⟩, ⟨15, 0, .ro, 0, [.o, .m, .w, .s]⟩]
  | .ctrSeamHiSh => [⟨31, 16, .ro, 0, [.o, .m, .w, .s]⟩, ⟨15, 0, .ro, 0, [.o, .m, .w, .s]⟩]
  | .ctrSeamWin => [⟨31, 0, .ro, 0, [.o, .m, .w, .s]⟩]
  | .ctrSeamWinSh => [⟨31, 0, .ro, 0, [.o, .m, .w, .s]⟩]
  | .ctrCtrl => [⟨3, 3, .w1c, 0, [.o, .m, .w, .s]⟩, ⟨2, 2, .rw, 0, [.o, .m, .w, .s]⟩, ⟨1, 0, .ro, 1, [.o, .m, .s]⟩]
  | .ctrSnapBeatLo => [⟨31, 0, .ro, 0, [.o, .m, .w, .s]⟩]
  | .ctrSnapBeatHi => [⟨31, 0, .ro, 0, [.o, .m, .w, .s]⟩]
  | .ctrSnapCause => [⟨1, 1, .ro, 0, [.o, .m, .w, .s]⟩, ⟨0, 0, .ro, 0, [.o, .m, .w, .s]⟩]

/-- The kinds of the block glb. -/
def Block.kindsGlb : List RegKind := [.cadCfg, .cadStretch, .cadAvs, .cadBeatLo, .cadBeatHi, .glbTmapCtrl, .glbTmapCur, .glbTmapNext, .netStatus, .netCompat, .netRid, .netSeam, .rimeStatus, .cadAlign, .cadMaster, .cadMarks, .glbBridge, .glbBridgeCnt, .mbxSendData, .mbxSendCtrl, .mbxRecvData, .mbxRecvCtrl, .mbxCfg, .syncPart, .syncStatus, .syncObj, .syncCfg, .cadExt, .logStatus, .logFill, .logLost, .logMoulin, .logSpillBase, .logSpillLen, .glbHold, .glbReserve, .glbRedirect, .glbRst]

/-- The kinds of the block tile. -/
def Block.kindsTile : List RegKind := [.arrCfg, .arrStatus, .arrPortCmd, .arrCalStatus, .arrSkipCnt, .arrSatCnt, .arrScrub, .arrChkCnt, .arrCanary, .arrSpareMap, .arrPortData, .arrPortCheck, .vuQevent, .vuOevent, .vuRevent, .tileAccCfg, .tileId, .tileStatus, .tileRegion, .tileStoreErr, .tileTcMode, .tilePcHits, .tilePcMisses, .deStatus, .deSpare, .deChkCnt, .vuChkCnt, .vuSpareMap, .pfDesc, .pfCtrl, .pfStatus, .cqCfg, .cqState, .tileTcEntry, .tileSeqPos, .tileSeqLag, .tileSeqStatus, .netRstat, .netCred, .netRctx, .netRctxNext]

/-- The kinds of the block port. -/
def Block.kindsPort : List RegKind := [.portCfg, .portStatus, .portFec, .portReplay, .portLat, .portRetry, .portCred]

/-- The kinds of the block part. -/
def Block.kindsPart : List RegKind := [.partProgBaseLo, .partProgBaseHi, .partProgCtrl, .partProgStatus, .partProgStart, .partWgtEpochLo, .partWgtEpochHi, .partWgtStatus, .partWgtCnt, .partWgtHold, .partWgtLepoch, .partSvcStatus, .partSvcCnt, .partKvFree, .partKvLent, .partKvBorrowed, .partSvcEvt, .partCfg, .partTiles, .partHbm, .partQos, .partIso, .partLinkShare, .partIrqCfg, .partIrqRoute, .partIrqPend]

/-- The kinds of the block hk. -/
def Block.kindsHk : List RegKind := [.pwrDom, .pwrStatus, .pwrInstall, .thmCfg, .thmStatus, .thmSens, .supCfg, .supStatus, .supRail, .hkTimer, .hkMask, .hkUrgent, .hkStatus, .hkFifo, .hkCmpEvt, .hkPwm, .hkValue, .hkCmpBnd, .hkCmpCfg, .pwrMode, .pwrWake, .pwrSlot]

/-- The kinds of the block sec. -/
def Block.kindsSec : List RegKind := [.secStatus, .secSessCtrl, .secSessNonce, .secDbgNonce, .secDbg, .secFw, .secSessResp]

/-- The kinds of the block ctrTile. -/
def Block.kindsCtrTile : List RegKind := [.ctrPcLo, .ctrPcLoSh, .ctrPcHi, .ctrPcHiSh, .ctrPcCfg, .ctrTileStatus, .ctrTileStatusSh, .ctrTdLo, .ctrTdLoSh, .ctrTdHi, .ctrTdHiSh]

/-- The kinds of the block ctrPort. -/
def Block.kindsCtrPort : List RegKind := [.ctrPortLo, .ctrPortLoSh, .ctrPortHi, .ctrPortHiSh, .ctrPortWin, .ctrPortWinSh]

/-- The kinds of the block ctrSeam. -/
def Block.kindsCtrSeam : List RegKind := [.ctrSeamLo, .ctrSeamLoSh, .ctrSeamHi, .ctrSeamHiSh, .ctrSeamWin, .ctrSeamWinSh]

/-- The kinds of the block ctrCtl. -/
def Block.kindsCtrCtl : List RegKind := [.ctrCtrl, .ctrSnapBeatLo, .ctrSnapBeatHi, .ctrSnapCause]

/-- The kinds of the block bar. -/
def Block.kindsBar : List RegKind := [.ringCmdBaseLo, .ringCmdBaseHi, .ringCmdSize, .ringCmdTail, .ringCmdHead, .ringRplBaseLo, .ringRplBaseHi, .ringRplSize, .ringRplHead, .ringRplTail, .ringStatus, .funcIrqCause, .moulinBaseLo, .moulinBaseHi, .moulinSize, .moulinHead, .moulinTail, .mbxHostSendData, .mbxHostSendCtrl, .mbxHostRecvData, .mbxHostRecvCtrl]

/-- The kinds of register that lie in a block. -/
def Block.kinds : Block → List RegKind
  | .glb => Block.kindsGlb
  | .tile => Block.kindsTile
  | .port => Block.kindsPort
  | .part => Block.kindsPart
  | .hk => Block.kindsHk
  | .sec => Block.kindsSec
  | .ctrTile => Block.kindsCtrTile
  | .ctrPort => Block.kindsCtrPort
  | .ctrSeam => Block.kindsCtrSeam
  | .ctrCtl => Block.kindsCtrCtl
  | .bar => Block.kindsBar

/-! The registers by name (`R`) and their fields (`F`). -/

abbrev R.arrCfg (t a : Nat) : Reg := ⟨.arrCfg, t, a, 0⟩
abbrev R.arrStatus (t a : Nat) : Reg := ⟨.arrStatus, t, a, 0⟩
abbrev R.arrPortCmd (t a : Nat) : Reg := ⟨.arrPortCmd, t, a, 0⟩
abbrev R.arrCalStatus (t a : Nat) : Reg := ⟨.arrCalStatus, t, a, 0⟩
abbrev R.arrSkipCnt (t a : Nat) : Reg := ⟨.arrSkipCnt, t, a, 0⟩
abbrev R.arrSatCnt (t a : Nat) : Reg := ⟨.arrSatCnt, t, a, 0⟩
abbrev R.arrScrub (t a : Nat) : Reg := ⟨.arrScrub, t, a, 0⟩
abbrev R.arrChkCnt (t a : Nat) : Reg := ⟨.arrChkCnt, t, a, 0⟩
abbrev R.arrCanary (t a : Nat) : Reg := ⟨.arrCanary, t, a, 0⟩
abbrev R.arrSpareMap (t a k : Nat) : Reg := ⟨.arrSpareMap, t, a, k⟩
abbrev R.arrPortData (t a k : Nat) : Reg := ⟨.arrPortData, t, a, k⟩
abbrev R.arrPortCheck (t a : Nat) : Reg := ⟨.arrPortCheck, t, a, 0⟩
abbrev R.vuQevent (t k : Nat) : Reg := ⟨.vuQevent, t, 0, k⟩
abbrev R.vuOevent (t k : Nat) : Reg := ⟨.vuOevent, t, 0, k⟩
abbrev R.vuRevent (t k : Nat) : Reg := ⟨.vuRevent, t, 0, k⟩
abbrev R.tileAccCfg (t : Nat) : Reg := ⟨.tileAccCfg, t, 0, 0⟩
abbrev R.tileId (t : Nat) : Reg := ⟨.tileId, t, 0, 0⟩
abbrev R.tileStatus (t : Nat) : Reg := ⟨.tileStatus, t, 0, 0⟩
abbrev R.tileRegion (t : Nat) : Reg := ⟨.tileRegion, t, 0, 0⟩
abbrev R.tileStoreErr (t : Nat) : Reg := ⟨.tileStoreErr, t, 0, 0⟩
abbrev R.tileTcMode (t : Nat) : Reg := ⟨.tileTcMode, t, 0, 0⟩
abbrev R.tilePcHits (t : Nat) : Reg := ⟨.tilePcHits, t, 0, 0⟩
abbrev R.tilePcMisses (t : Nat) : Reg := ⟨.tilePcMisses, t, 0, 0⟩
abbrev R.deStatus (t : Nat) : Reg := ⟨.deStatus, t, 0, 0⟩
abbrev R.deSpare (t : Nat) : Reg := ⟨.deSpare, t, 0, 0⟩
abbrev R.deChkCnt (t : Nat) : Reg := ⟨.deChkCnt, t, 0, 0⟩
abbrev R.vuChkCnt (t : Nat) : Reg := ⟨.vuChkCnt, t, 0, 0⟩
abbrev R.vuSpareMap (t k : Nat) : Reg := ⟨.vuSpareMap, t, 0, k⟩
abbrev R.pfDesc (t u k : Nat) : Reg := ⟨.pfDesc, t, u, k⟩
abbrev R.pfCtrl (t u : Nat) : Reg := ⟨.pfCtrl, t, u, 0⟩
abbrev R.pfStatus (t u : Nat) : Reg := ⟨.pfStatus, t, u, 0⟩
abbrev R.cqCfg (t k : Nat) : Reg := ⟨.cqCfg, t, 0, k⟩
abbrev R.cqState (t k : Nat) : Reg := ⟨.cqState, t, 0, k⟩
abbrev R.cadCfg : Reg := ⟨.cadCfg, 0, 0, 0⟩
abbrev R.cadStretch : Reg := ⟨.cadStretch, 0, 0, 0⟩
abbrev R.cadAvs : Reg := ⟨.cadAvs, 0, 0, 0⟩
abbrev R.cadBeatLo : Reg := ⟨.cadBeatLo, 0, 0, 0⟩
abbrev R.cadBeatHi : Reg := ⟨.cadBeatHi, 0, 0, 0⟩
abbrev R.glbTmapCtrl : Reg := ⟨.glbTmapCtrl, 0, 0, 0⟩
abbrev R.glbTmapCur (k : Nat) : Reg := ⟨.glbTmapCur, 0, 0, k⟩
abbrev R.glbTmapNext (k : Nat) : Reg := ⟨.glbTmapNext, 0, 0, k⟩
abbrev R.partProgBaseLo (n : Nat) : Reg := ⟨.partProgBaseLo, n, 0, 0⟩
abbrev R.partProgBaseHi (n : Nat) : Reg := ⟨.partProgBaseHi, n, 0, 0⟩
abbrev R.partProgCtrl (n : Nat) : Reg := ⟨.partProgCtrl, n, 0, 0⟩
abbrev R.partProgStatus (n : Nat) : Reg := ⟨.partProgStatus, n, 0, 0⟩
abbrev R.partProgStart (n : Nat) : Reg := ⟨.partProgStart, n, 0, 0⟩
abbrev R.tileTcEntry (t k : Nat) : Reg := ⟨.tileTcEntry, t, 0, k⟩
abbrev R.tileSeqPos (t : Nat) : Reg := ⟨.tileSeqPos, t, 0, 0⟩
abbrev R.tileSeqLag (t : Nat) : Reg := ⟨.tileSeqLag, t, 0, 0⟩
abbrev R.tileSeqStatus (t : Nat) : Reg := ⟨.tileSeqStatus, t, 0, 0⟩
abbrev R.netStatus : Reg := ⟨.netStatus, 0, 0, 0⟩
abbrev R.netCompat : Reg := ⟨.netCompat, 0, 0, 0⟩
abbrev R.netRid (k : Nat) : Reg := ⟨.netRid, 0, 0, k⟩
abbrev R.netSeam (k : Nat) : Reg := ⟨.netSeam, 0, 0, k⟩
abbrev R.rimeStatus : Reg := ⟨.rimeStatus, 0, 0, 0⟩
abbrev R.netRstat (t : Nat) : Reg := ⟨.netRstat, t, 0, 0⟩
abbrev R.netCred (t k : Nat) : Reg := ⟨.netCred, t, 0, k⟩
abbrev R.netRctx (t k : Nat) : Reg := ⟨.netRctx, t, 0, k⟩
abbrev R.netRctxNext (t k : Nat) : Reg := ⟨.netRctxNext, t, 0, k⟩
abbrev R.portCfg (p : Nat) : Reg := ⟨.portCfg, p, 0, 0⟩
abbrev R.portStatus (p : Nat) : Reg := ⟨.portStatus, p, 0, 0⟩
abbrev R.portFec (p : Nat) : Reg := ⟨.portFec, p, 0, 0⟩
abbrev R.portReplay (p : Nat) : Reg := ⟨.portReplay, p, 0, 0⟩
abbrev R.portLat (p : Nat) : Reg := ⟨.portLat, p, 0, 0⟩
abbrev R.portRetry (p : Nat) : Reg := ⟨.portRetry, p, 0, 0⟩
abbrev R.portCred (p k : Nat) : Reg := ⟨.portCred, p, 0, k⟩
abbrev R.cadAlign : Reg := ⟨.cadAlign, 0, 0, 0⟩
abbrev R.cadMaster : Reg := ⟨.cadMaster, 0, 0, 0⟩
abbrev R.cadMarks : Reg := ⟨.cadMarks, 0, 0, 0⟩
abbrev R.glbBridge : Reg := ⟨.glbBridge, 0, 0, 0⟩
abbrev R.glbBridgeCnt : Reg := ⟨.glbBridgeCnt, 0, 0, 0⟩
abbrev R.partWgtEpochLo (n : Nat) : Reg := ⟨.partWgtEpochLo, n, 0, 0⟩
abbrev R.partWgtEpochHi (n : Nat) : Reg := ⟨.partWgtEpochHi, n, 0, 0⟩
abbrev R.partWgtStatus (n : Nat) : Reg := ⟨.partWgtStatus, n, 0, 0⟩
abbrev R.partWgtCnt (n : Nat) : Reg := ⟨.partWgtCnt, n, 0, 0⟩
abbrev R.partWgtHold (n : Nat) : Reg := ⟨.partWgtHold, n, 0, 0⟩
abbrev R.partWgtLepoch (n k : Nat) : Reg := ⟨.partWgtLepoch, n, 0, k⟩
abbrev R.ringCmdBaseLo (f : Nat) : Reg := ⟨.ringCmdBaseLo, f, 0, 0⟩
abbrev R.ringCmdBaseHi (f : Nat) : Reg := ⟨.ringCmdBaseHi, f, 0, 0⟩
abbrev R.ringCmdSize (f : Nat) : Reg := ⟨.ringCmdSize, f, 0, 0⟩
abbrev R.ringCmdTail (f : Nat) : Reg := ⟨.ringCmdTail, f, 0, 0⟩
abbrev R.ringCmdHead (f : Nat) : Reg := ⟨.ringCmdHead, f, 0, 0⟩
abbrev R.ringRplBaseLo (f : Nat) : Reg := ⟨.ringRplBaseLo, f, 0, 0⟩
abbrev R.ringRplBaseHi (f : Nat) : Reg := ⟨.ringRplBaseHi, f, 0, 0⟩
abbrev R.ringRplSize (f : Nat) : Reg := ⟨.ringRplSize, f, 0, 0⟩
abbrev R.ringRplHead (f : Nat) : Reg := ⟨.ringRplHead, f, 0, 0⟩
abbrev R.ringRplTail (f : Nat) : Reg := ⟨.ringRplTail, f, 0, 0⟩
abbrev R.ringStatus (f : Nat) : Reg := ⟨.ringStatus, f, 0, 0⟩
abbrev R.funcIrqCause (f k : Nat) : Reg := ⟨.funcIrqCause, f, 0, k⟩
abbrev R.moulinBaseLo (f : Nat) : Reg := ⟨.moulinBaseLo, f, 0, 0⟩
abbrev R.moulinBaseHi (f : Nat) : Reg := ⟨.moulinBaseHi, f, 0, 0⟩
abbrev R.moulinSize (f : Nat) : Reg := ⟨.moulinSize, f, 0, 0⟩
abbrev R.moulinHead (f : Nat) : Reg := ⟨.moulinHead, f, 0, 0⟩
abbrev R.moulinTail (f : Nat) : Reg := ⟨.moulinTail, f, 0, 0⟩
abbrev R.mbxSendData (u k : Nat) : Reg := ⟨.mbxSendData, 0, u, k⟩
abbrev R.mbxHostSendData (f u k : Nat) : Reg := ⟨.mbxHostSendData, f, u, k⟩
abbrev R.mbxSendCtrl (u : Nat) : Reg := ⟨.mbxSendCtrl, 0, u, 0⟩
abbrev R.mbxHostSendCtrl (f u : Nat) : Reg := ⟨.mbxHostSendCtrl, f, u, 0⟩
abbrev R.mbxRecvData (u k : Nat) : Reg := ⟨.mbxRecvData, 0, u, k⟩
abbrev R.mbxHostRecvData (f u k : Nat) : Reg := ⟨.mbxHostRecvData, f, u, k⟩
abbrev R.mbxRecvCtrl (u : Nat) : Reg := ⟨.mbxRecvCtrl, 0, u, 0⟩
abbrev R.mbxHostRecvCtrl (f u : Nat) : Reg := ⟨.mbxHostRecvCtrl, f, u, 0⟩
abbrev R.mbxCfg (k : Nat) : Reg := ⟨.mbxCfg, 0, 0, k⟩
abbrev R.syncPart (k : Nat) : Reg := ⟨.syncPart, 0, 0, k⟩
abbrev R.syncStatus : Reg := ⟨.syncStatus, 0, 0, 0⟩
abbrev R.syncObj (k : Nat) : Reg := ⟨.syncObj, 0, 0, k⟩
abbrev R.syncCfg (k : Nat) : Reg := ⟨.syncCfg, 0, 0, k⟩
abbrev R.partSvcStatus (n : Nat) : Reg := ⟨.partSvcStatus, n, 0, 0⟩
abbrev R.partSvcCnt (n : Nat) : Reg := ⟨.partSvcCnt, n, 0, 0⟩
abbrev R.partKvFree (n : Nat) : Reg := ⟨.partKvFree, n, 0, 0⟩
abbrev R.partKvLent (n : Nat) : Reg := ⟨.partKvLent, n, 0, 0⟩
abbrev R.partKvBorrowed (n : Nat) : Reg := ⟨.partKvBorrowed, n, 0, 0⟩
abbrev R.partSvcEvt (n : Nat) : Reg := ⟨.partSvcEvt, n, 0, 0⟩
abbrev R.partCfg (n : Nat) : Reg := ⟨.partCfg, n, 0, 0⟩
abbrev R.partTiles (n k : Nat) : Reg := ⟨.partTiles, n, 0, k⟩
abbrev R.partHbm (n k : Nat) : Reg := ⟨.partHbm, n, 0, k⟩
abbrev R.partQos (n : Nat) : Reg := ⟨.partQos, n, 0, 0⟩
abbrev R.partIso (n : Nat) : Reg := ⟨.partIso, n, 0, 0⟩
abbrev R.partLinkShare (n k : Nat) : Reg := ⟨.partLinkShare, n, 0, k⟩
abbrev R.partIrqCfg (n k : Nat) : Reg := ⟨.partIrqCfg, n, 0, k⟩
abbrev R.partIrqRoute (n : Nat) : Reg := ⟨.partIrqRoute, n, 0, 0⟩
abbrev R.partIrqPend (n : Nat) : Reg := ⟨.partIrqPend, n, 0, 0⟩
abbrev R.cadExt : Reg := ⟨.cadExt, 0, 0, 0⟩
abbrev R.logStatus : Reg := ⟨.logStatus, 0, 0, 0⟩
abbrev R.logFill : Reg := ⟨.logFill, 0, 0, 0⟩
abbrev R.logLost : Reg := ⟨.logLost, 0, 0, 0⟩
abbrev R.logMoulin : Reg := ⟨.logMoulin, 0, 0, 0⟩
abbrev R.logSpillBase : Reg := ⟨.logSpillBase, 0, 0, 0⟩
abbrev R.logSpillLen : Reg := ⟨.logSpillLen, 0, 0, 0⟩
abbrev R.glbHold : Reg := ⟨.glbHold, 0, 0, 0⟩
abbrev R.glbReserve : Reg := ⟨.glbReserve, 0, 0, 0⟩
abbrev R.glbRedirect (k : Nat) : Reg := ⟨.glbRedirect, 0, 0, k⟩
abbrev R.pwrDom (k : Nat) : Reg := ⟨.pwrDom, 0, 0, k⟩
abbrev R.pwrStatus : Reg := ⟨.pwrStatus, 0, 0, 0⟩
abbrev R.pwrInstall : Reg := ⟨.pwrInstall, 0, 0, 0⟩
abbrev R.thmCfg : Reg := ⟨.thmCfg, 0, 0, 0⟩
abbrev R.thmStatus : Reg := ⟨.thmStatus, 0, 0, 0⟩
abbrev R.thmSens (k : Nat) : Reg := ⟨.thmSens, 0, 0, k⟩
abbrev R.supCfg : Reg := ⟨.supCfg, 0, 0, 0⟩
abbrev R.supStatus : Reg := ⟨.supStatus, 0, 0, 0⟩
abbrev R.supRail (k : Nat) : Reg := ⟨.supRail, 0, 0, k⟩
abbrev R.hkTimer : Reg := ⟨.hkTimer, 0, 0, 0⟩
abbrev R.hkMask (k : Nat) : Reg := ⟨.hkMask, 0, 0, k⟩
abbrev R.hkUrgent : Reg := ⟨.hkUrgent, 0, 0, 0⟩
abbrev R.hkStatus : Reg := ⟨.hkStatus, 0, 0, 0⟩
abbrev R.hkFifo : Reg := ⟨.hkFifo, 0, 0, 0⟩
abbrev R.hkCmpEvt : Reg := ⟨.hkCmpEvt, 0, 0, 0⟩
abbrev R.hkPwm (k : Nat) : Reg := ⟨.hkPwm, 0, 0, k⟩
abbrev R.hkValue (k : Nat) : Reg := ⟨.hkValue, 0, 0, k⟩
abbrev R.hkCmpBnd (k : Nat) : Reg := ⟨.hkCmpBnd, 0, 0, k⟩
abbrev R.hkCmpCfg (k : Nat) : Reg := ⟨.hkCmpCfg, 0, 0, k⟩
abbrev R.glbRst : Reg := ⟨.glbRst, 0, 0, 0⟩
abbrev R.pwrMode : Reg := ⟨.pwrMode, 0, 0, 0⟩
abbrev R.pwrWake : Reg := ⟨.pwrWake, 0, 0, 0⟩
abbrev R.pwrSlot : Reg := ⟨.pwrSlot, 0, 0, 0⟩
abbrev R.secStatus : Reg := ⟨.secStatus, 0, 0, 0⟩
abbrev R.secSessCtrl : Reg := ⟨.secSessCtrl, 0, 0, 0⟩
abbrev R.secSessNonce (k : Nat) : Reg := ⟨.secSessNonce, 0, 0, k⟩
abbrev R.secDbgNonce (k : Nat) : Reg := ⟨.secDbgNonce, 0, 0, k⟩
abbrev R.secDbg : Reg := ⟨.secDbg, 0, 0, 0⟩
abbrev R.secFw : Reg := ⟨.secFw, 0, 0, 0⟩
abbrev R.secSessResp (k : Nat) : Reg := ⟨.secSessResp, 0, 0, k⟩
abbrev R.ctrPcLo (t k : Nat) : Reg := ⟨.ctrPcLo, t, 0, k⟩
abbrev R.ctrPcLoSh (t k : Nat) : Reg := ⟨.ctrPcLoSh, t, 0, k⟩
abbrev R.ctrPcHi (t k : Nat) : Reg := ⟨.ctrPcHi, t, 0, k⟩
abbrev R.ctrPcHiSh (t k : Nat) : Reg := ⟨.ctrPcHiSh, t, 0, k⟩
abbrev R.ctrPcCfg (t k : Nat) : Reg := ⟨.ctrPcCfg, t, 0, k⟩
abbrev R.ctrTileStatus (t : Nat) : Reg := ⟨.ctrTileStatus, t, 0, 0⟩
abbrev R.ctrTileStatusSh (t : Nat) : Reg := ⟨.ctrTileStatusSh, t, 0, 0⟩
abbrev R.ctrTdLo (t u k : Nat) : Reg := ⟨.ctrTdLo, t, u, k⟩
abbrev R.ctrTdLoSh (t u k : Nat) : Reg := ⟨.ctrTdLoSh, t, u, k⟩
abbrev R.ctrTdHi (t u k : Nat) : Reg := ⟨.ctrTdHi, t, u, k⟩
abbrev R.ctrTdHiSh (t u k : Nat) : Reg := ⟨.ctrTdHiSh, t, u, k⟩
abbrev R.ctrPortLo (p u k : Nat) : Reg := ⟨.ctrPortLo, p, u, k⟩
abbrev R.ctrPortLoSh (p u k : Nat) : Reg := ⟨.ctrPortLoSh, p, u, k⟩
abbrev R.ctrPortHi (p u k : Nat) : Reg := ⟨.ctrPortHi, p, u, k⟩
abbrev R.ctrPortHiSh (p u k : Nat) : Reg := ⟨.ctrPortHiSh, p, u, k⟩
abbrev R.ctrPortWin (p u k : Nat) : Reg := ⟨.ctrPortWin, p, u, k⟩
abbrev R.ctrPortWinSh (p u k : Nat) : Reg := ⟨.ctrPortWinSh, p, u, k⟩
abbrev R.ctrSeamLo (r u k : Nat) : Reg := ⟨.ctrSeamLo, r, u, k⟩
abbrev R.ctrSeamLoSh (r u k : Nat) : Reg := ⟨.ctrSeamLoSh, r, u, k⟩
abbrev R.ctrSeamHi (r u k : Nat) : Reg := ⟨.ctrSeamHi, r, u, k⟩
abbrev R.ctrSeamHiSh (r u k : Nat) : Reg := ⟨.ctrSeamHiSh, r, u, k⟩
abbrev R.ctrSeamWin (r u k : Nat) : Reg := ⟨.ctrSeamWin, r, u, k⟩
abbrev R.ctrSeamWinSh (r u k : Nat) : Reg := ⟨.ctrSeamWinSh, r, u, k⟩
abbrev R.ctrCtrl : Reg := ⟨.ctrCtrl, 0, 0, 0⟩
abbrev R.ctrSnapBeatLo : Reg := ⟨.ctrSnapBeatLo, 0, 0, 0⟩
abbrev R.ctrSnapBeatHi : Reg := ⟨.ctrSnapBeatHi, 0, 0, 0⟩
abbrev R.ctrSnapCause : Reg := ⟨.ctrSnapCause, 0, 0, 0⟩
abbrev F.arrCfgLoaded (t a : Nat) : FieldRef := ⟨⟨.arrCfg, t, a, 0⟩, 15, 15⟩
abbrev F.arrCfgReserve (t a : Nat) : FieldRef := ⟨⟨.arrCfg, t, a, 0⟩, 14, 12⟩
abbrev F.arrCfgSeg (t a : Nat) : FieldRef := ⟨⟨.arrCfg, t, a, 0⟩, 9, 8⟩
abbrev F.arrCfgMode (t a : Nat) : FieldRef := ⟨⟨.arrCfg, t, a, 0⟩, 2, 0⟩
abbrev F.arrStatusSparesFree (t a : Nat) : FieldRef := ⟨⟨.arrStatus, t, a, 0⟩, 23, 16⟩
abbrev F.arrStatusExhausted (t a : Nat) : FieldRef := ⟨⟨.arrStatus, t, a, 0⟩, 6, 6⟩
abbrev F.arrStatusScaleInvalid (t a : Nat) : FieldRef := ⟨⟨.arrStatus, t, a, 0⟩, 5, 5⟩
abbrev F.arrStatusMismatch (t a : Nat) : FieldRef := ⟨⟨.arrStatus, t, a, 0⟩, 4, 4⟩
abbrev F.arrStatusRangeLatched (t a : Nat) : FieldRef := ⟨⟨.arrStatus, t, a, 0⟩, 3, 3⟩
abbrev F.arrStatusUnverified (t a : Nat) : FieldRef := ⟨⟨.arrStatus, t, a, 0⟩, 2, 2⟩
abbrev F.arrStatusCalValid (t a : Nat) : FieldRef := ⟨⟨.arrStatus, t, a, 0⟩, 1, 1⟩
abbrev F.arrStatusBusy (t a : Nat) : FieldRef := ⟨⟨.arrStatus, t, a, 0⟩, 0, 0⟩
abbrev F.arrPortCmdBusy (t a : Nat) : FieldRef := ⟨⟨.arrPortCmd, t, a, 0⟩, 31, 31⟩
abbrev F.arrPortCmdParityErr (t a : Nat) : FieldRef := ⟨⟨.arrPortCmd, t, a, 0⟩, 30, 30⟩
abbrev F.arrPortCmdLine (t a : Nat) : FieldRef := ⟨⟨.arrPortCmd, t, a, 0⟩, 25, 21⟩
abbrev F.arrPortCmdRow (t a : Nat) : FieldRef := ⟨⟨.arrPortCmd, t, a, 0⟩, 20, 11⟩
abbrev F.arrPortCmdOp (t a : Nat) : FieldRef := ⟨⟨.arrPortCmd, t, a, 0⟩, 2, 0⟩
abbrev F.arrCalStatusCalTemp (t a : Nat) : FieldRef := ⟨⟨.arrCalStatus, t, a, 0⟩, 23, 12⟩
abbrev F.arrCalStatusSetsDone (t a : Nat) : FieldRef := ⟨⟨.arrCalStatus, t, a, 0⟩, 5, 1⟩
abbrev F.arrCalStatusBank (t a : Nat) : FieldRef := ⟨⟨.arrCalStatus, t, a, 0⟩, 0, 0⟩
abbrev F.arrSkipCntSkipped (t a : Nat) : FieldRef := ⟨⟨.arrSkipCnt, t, a, 0⟩, 31, 0⟩
abbrev F.arrSatCntLatches (t a : Nat) : FieldRef := ⟨⟨.arrSatCnt, t, a, 0⟩, 31, 16⟩
abbrev F.arrSatCntRereads (t a : Nat) : FieldRef := ⟨⟨.arrSatCnt, t, a, 0⟩, 15, 0⟩
abbrev F.arrScrubSuspect (t a : Nat) : FieldRef := ⟨⟨.arrScrub, t, a, 0⟩, 31, 31⟩
abbrev F.arrScrubSuspectRow (t a : Nat) : FieldRef := ⟨⟨.arrScrub, t, a, 0⟩, 25, 16⟩
abbrev F.arrScrubNextRow (t a : Nat) : FieldRef := ⟨⟨.arrScrub, t, a, 0⟩, 9, 0⟩
abbrev F.arrChkCntAveraged (t a : Nat) : FieldRef := ⟨⟨.arrChkCnt, t, a, 0⟩, 31, 16⟩
abbrev F.arrChkCntArbitrated (t a : Nat) : FieldRef := ⟨⟨.arrChkCnt, t, a, 0⟩, 15, 8⟩
abbrev F.arrChkCntTolerance (t a : Nat) : FieldRef := ⟨⟨.arrChkCnt, t, a, 0⟩, 7, 0⟩
abbrev F.arrCanaryFailed (t a : Nat) : FieldRef := ⟨⟨.arrCanary, t, a, 0⟩, 31, 31⟩
abbrev F.arrCanaryRunning (t a : Nat) : FieldRef := ⟨⟨.arrCanary, t, a, 0⟩, 30, 30⟩
abbrev F.arrCanaryFailCols (t a : Nat) : FieldRef := ⟨⟨.arrCanary, t, a, 0⟩, 23, 16⟩
abbrev F.arrCanaryPasses (t a : Nat) : FieldRef := ⟨⟨.arrCanary, t, a, 0⟩, 15, 0⟩
abbrev F.arrSpareMapValid (t a k : Nat) : FieldRef := ⟨⟨.arrSpareMap, t, a, k⟩, 31, 31⟩
abbrev F.arrSpareMapLive (t a k : Nat) : FieldRef := ⟨⟨.arrSpareMap, t, a, k⟩, 30, 30⟩
abbrev F.arrSpareMapTarget (t a k : Nat) : FieldRef := ⟨⟨.arrSpareMap, t, a, k⟩, 10, 0⟩
abbrev F.arrPortDataData (t a k : Nat) : FieldRef := ⟨⟨.arrPortData, t, a, k⟩, 31, 0⟩
abbrev F.arrPortCheckCheck (t a : Nat) : FieldRef := ⟨⟨.arrPortCheck, t, a, 0⟩, 11, 0⟩
abbrev F.vuQeventUnder (t k : Nat) : FieldRef := ⟨⟨.vuQevent, t, 0, k⟩, 31, 16⟩
abbrev F.vuQeventSat (t k : Nat) : FieldRef := ⟨⟨.vuQevent, t, 0, k⟩, 15, 0⟩
abbrev F.vuOeventClamped (t k : Nat) : FieldRef := ⟨⟨.vuOevent, t, 0, k⟩, 31, 16⟩
abbrev F.vuOeventToDe (t k : Nat) : FieldRef := ⟨⟨.vuOevent, t, 0, k⟩, 15, 0⟩
abbrev F.vuReventResidual (t k : Nat) : FieldRef := ⟨⟨.vuRevent, t, 0, k⟩, 15, 0⟩
abbrev F.tileAccCfgCanarySec (t : Nat) : FieldRef := ⟨⟨.tileAccCfg, t, 0, 0⟩, 25, 16⟩
abbrev F.tileAccCfgCalLog2 (t : Nat) : FieldRef := ⟨⟨.tileAccCfg, t, 0, 0⟩, 3, 0⟩
abbrev F.tileIdPresent (t : Nat) : FieldRef := ⟨⟨.tileId, t, 0, 0⟩, 7, 7⟩
abbrev F.tileIdNumber (t : Nat) : FieldRef := ⟨⟨.tileId, t, 0, 0⟩, 6, 0⟩
abbrev F.tileStatusRetired (t : Nat) : FieldRef := ⟨⟨.tileStatus, t, 0, 0⟩, 2, 2⟩
abbrev F.tileStatusRegionErr (t : Nat) : FieldRef := ⟨⟨.tileStatus, t, 0, 0⟩, 1, 1⟩
abbrev F.tileStatusSeqRun (t : Nat) : FieldRef := ⟨⟨.tileStatus, t, 0, 0⟩, 0, 0⟩
abbrev F.tileRegionPcSize (t : Nat) : FieldRef := ⟨⟨.tileRegion, t, 0, 0⟩, 18, 16⟩
abbrev F.tileRegionDwSize (t : Nat) : FieldRef := ⟨⟨.tileRegion, t, 0, 0⟩, 15, 8⟩
abbrev F.tileRegionPbSize (t : Nat) : FieldRef := ⟨⟨.tileRegion, t, 0, 0⟩, 7, 0⟩
abbrev F.tileStoreErrParity (t : Nat) : FieldRef := ⟨⟨.tileStoreErr, t, 0, 0⟩, 31, 16⟩
abbrev F.tileStoreErrAccess (t : Nat) : FieldRef := ⟨⟨.tileStoreErr, t, 0, 0⟩, 15, 0⟩
abbrev F.tileTcModeFreePf (t : Nat) : FieldRef := ⟨⟨.tileTcMode, t, 0, 0⟩, 19, 4⟩
abbrev F.tileTcModeFree (t : Nat) : FieldRef := ⟨⟨.tileTcMode, t, 0, 0⟩, 3, 0⟩
abbrev F.tilePcHitsHits (t : Nat) : FieldRef := ⟨⟨.tilePcHits, t, 0, 0⟩, 31, 0⟩
abbrev F.tilePcMissesMisses (t : Nat) : FieldRef := ⟨⟨.tilePcMisses, t, 0, 0⟩, 31, 0⟩
abbrev F.deStatusInq (t : Nat) : FieldRef := ⟨⟨.deStatus, t, 0, 0⟩, 15, 8⟩
abbrev F.deStatusPriorityWork (t : Nat) : FieldRef := ⟨⟨.deStatus, t, 0, 0⟩, 1, 1⟩
abbrev F.deStatusBusy (t : Nat) : FieldRef := ⟨⟨.deStatus, t, 0, 0⟩, 0, 0⟩
abbrev F.deSpareColValid (t : Nat) : FieldRef := ⟨⟨.deSpare, t, 0, 0⟩, 31, 31⟩
abbrev F.deSpareCol (t : Nat) : FieldRef := ⟨⟨.deSpare, t, 0, 0⟩, 30, 24⟩
abbrev F.deSpareRowValid (t : Nat) : FieldRef := ⟨⟨.deSpare, t, 0, 0⟩, 23, 23⟩
abbrev F.deSpareRow (t : Nat) : FieldRef := ⟨⟨.deSpare, t, 0, 0⟩, 22, 16⟩
abbrev F.deSpareAdderSpares (t : Nat) : FieldRef := ⟨⟨.deSpare, t, 0, 0⟩, 3, 0⟩
abbrev F.deChkCntReplayed (t : Nat) : FieldRef := ⟨⟨.deChkCnt, t, 0, 0⟩, 31, 16⟩
abbrev F.deChkCntVotes (t : Nat) : FieldRef := ⟨⟨.deChkCnt, t, 0, 0⟩, 15, 0⟩
abbrev F.vuChkCntReplayed (t : Nat) : FieldRef := ⟨⟨.vuChkCnt, t, 0, 0⟩, 31, 16⟩
abbrev F.vuChkCntVotes (t : Nat) : FieldRef := ⟨⟨.vuChkCnt, t, 0, 0⟩, 15, 0⟩
abbrev F.vuSpareMapValid (t k : Nat) : FieldRef := ⟨⟨.vuSpareMap, t, 0, k⟩, 31, 31⟩
abbrev F.vuSpareMapLane (t k : Nat) : FieldRef := ⟨⟨.vuSpareMap, t, 0, k⟩, 5, 0⟩
abbrev F.pfDescWord (t u k : Nat) : FieldRef := ⟨⟨.pfDesc, t, u, k⟩, 31, 0⟩
abbrev F.pfCtrlStop (t u : Nat) : FieldRef := ⟨⟨.pfCtrl, t, u, 0⟩, 1, 1⟩
abbrev F.pfCtrlPush (t u : Nat) : FieldRef := ⟨⟨.pfCtrl, t, u, 0⟩, 0, 0⟩
abbrev F.pfStatusRefused (t u : Nat) : FieldRef := ⟨⟨.pfStatus, t, u, 0⟩, 31, 31⟩
abbrev F.pfStatusReason (t u : Nat) : FieldRef := ⟨⟨.pfStatus, t, u, 0⟩, 30, 28⟩
abbrev F.pfStatusFullPushes (t u : Nat) : FieldRef := ⟨⟨.pfStatus, t, u, 0⟩, 23, 16⟩
abbrev F.pfStatusQueued (t u : Nat) : FieldRef := ⟨⟨.pfStatus, t, u, 0⟩, 2, 0⟩
abbrev F.cqCfgDepth (t k : Nat) : FieldRef := ⟨⟨.cqCfg, t, 0, k⟩, 7, 0⟩
abbrev F.cqStateHeld (t k : Nat) : FieldRef := ⟨⟨.cqState, t, 0, k⟩, 31, 24⟩
abbrev F.cqStateReady (t k : Nat) : FieldRef := ⟨⟨.cqState, t, 0, k⟩, 23, 16⟩
abbrev F.cqStateInflight (t k : Nat) : FieldRef := ⟨⟨.cqState, t, 0, k⟩, 15, 8⟩
abbrev F.cqStateCredits (t k : Nat) : FieldRef := ⟨⟨.cqState, t, 0, k⟩, 7, 0⟩
abbrev F.cadCfgLocked : FieldRef := ⟨⟨.cadCfg, 0, 0, 0⟩, 31, 31⟩
abbrev F.cadCfgWindow : FieldRef := ⟨⟨.cadCfg, 0, 0, 0⟩, 16, 8⟩
abbrev F.cadCfgPeriod : FieldRef := ⟨⟨.cadCfg, 0, 0, 0⟩, 6, 0⟩
abbrev F.cadStretchPending : FieldRef := ⟨⟨.cadStretch, 0, 0, 0⟩, 16, 16⟩
abbrev F.cadStretchLocalReq : FieldRef := ⟨⟨.cadStretch, 0, 0, 0⟩, 15, 8⟩
abbrev F.cadStretchInForce : FieldRef := ⟨⟨.cadStretch, 0, 0, 0⟩, 7, 0⟩
abbrev F.cadAvsTarget : FieldRef := ⟨⟨.cadAvs, 0, 0, 0⟩, 23, 16⟩
abbrev F.cadAvsMargin : FieldRef := ⟨⟨.cadAvs, 0, 0, 0⟩, 15, 8⟩
abbrev F.cadAvsRail : FieldRef := ⟨⟨.cadAvs, 0, 0, 0⟩, 7, 0⟩
abbrev F.cadBeatLoBeat : FieldRef := ⟨⟨.cadBeatLo, 0, 0, 0⟩, 31, 0⟩
abbrev F.cadBeatHiBeat : FieldRef := ⟨⟨.cadBeatHi, 0, 0, 0⟩, 31, 0⟩
abbrev F.glbTmapCtrlErr : FieldRef := ⟨⟨.glbTmapCtrl, 0, 0, 0⟩, 1, 1⟩
abbrev F.glbTmapCtrlArm : FieldRef := ⟨⟨.glbTmapCtrl, 0, 0, 0⟩, 0, 0⟩
abbrev F.glbTmapCurValid (k : Nat) : FieldRef := ⟨⟨.glbTmapCur, 0, 0, k⟩, 7, 7⟩
abbrev F.glbTmapCurPhys (k : Nat) : FieldRef := ⟨⟨.glbTmapCur, 0, 0, k⟩, 6, 0⟩
abbrev F.glbTmapNextEntry (k : Nat) : FieldRef := ⟨⟨.glbTmapNext, 0, 0, k⟩, 7, 0⟩
abbrev F.partProgBaseLoBase (n : Nat) : FieldRef := ⟨⟨.partProgBaseLo, n, 0, 0⟩, 31, 0⟩
abbrev F.partProgBaseHiBase (n : Nat) : FieldRef := ⟨⟨.partProgBaseHi, n, 0, 0⟩, 4, 0⟩
abbrev F.partProgCtrlVariantNext (n : Nat) : FieldRef := ⟨⟨.partProgCtrl, n, 0, 0⟩, 17, 16⟩
abbrev F.partProgStatusVariant (n : Nat) : FieldRef := ⟨⟨.partProgStatus, n, 0, 0⟩, 17, 16⟩
abbrev F.partProgStatusDetail (n : Nat) : FieldRef := ⟨⟨.partProgStatus, n, 0, 0⟩, 15, 8⟩
abbrev F.partProgStatusState (n : Nat) : FieldRef := ⟨⟨.partProgStatus, n, 0, 0⟩, 1, 0⟩
abbrev F.partProgStartWindow (n : Nat) : FieldRef := ⟨⟨.partProgStart, n, 0, 0⟩, 31, 0⟩
abbrev F.tileTcEntryEntry (t k : Nat) : FieldRef := ⟨⟨.tileTcEntry, t, 0, k⟩, 22, 2⟩
abbrev F.tileSeqPosWindow (t : Nat) : FieldRef := ⟨⟨.tileSeqPos, t, 0, 0⟩, 31, 16⟩
abbrev F.tileSeqPosPos (t : Nat) : FieldRef := ⟨⟨.tileSeqPos, t, 0, 0⟩, 15, 0⟩
abbrev F.tileSeqLagMax (t : Nat) : FieldRef := ⟨⟨.tileSeqLag, t, 0, 0⟩, 31, 16⟩
abbrev F.tileSeqLagNow (t : Nat) : FieldRef := ⟨⟨.tileSeqLag, t, 0, 0⟩, 15, 0⟩
abbrev F.tileSeqStatusAbsorbed (t : Nat) : FieldRef := ⟨⟨.tileSeqStatus, t, 0, 0⟩, 31, 16⟩
abbrev F.tileSeqStatusOverruns (t : Nat) : FieldRef := ⟨⟨.tileSeqStatus, t, 0, 0⟩, 15, 8⟩
abbrev F.tileSeqStatusLate (t : Nat) : FieldRef := ⟨⟨.tileSeqStatus, t, 0, 0⟩, 0, 0⟩
abbrev F.netStatusRedSat : FieldRef := ⟨⟨.netStatus, 0, 0, 0⟩, 2, 2⟩
abbrev F.netStatusLinkFail : FieldRef := ⟨⟨.netStatus, 0, 0, 0⟩, 1, 1⟩
abbrev F.netStatusBadDest : FieldRef := ⟨⟨.netStatus, 0, 0, 0⟩, 0, 0⟩
abbrev F.netCompatPart : FieldRef := ⟨⟨.netCompat, 0, 0, 0⟩, 15, 0⟩
abbrev F.netRidObjBase (k : Nat) : FieldRef := ⟨⟨.netRid, 0, 0, k⟩, 31, 18⟩
abbrev F.netRidIdCount (k : Nat) : FieldRef := ⟨⟨.netRid, 0, 0, k⟩, 16, 8⟩
abbrev F.netRidIdBase (k : Nat) : FieldRef := ⟨⟨.netRid, 0, 0, k⟩, 7, 0⟩
abbrev F.netSeamReplays (k : Nat) : FieldRef := ⟨⟨.netSeam, 0, 0, k⟩, 31, 16⟩
abbrev F.netSeamSparesFree (k : Nat) : FieldRef := ⟨⟨.netSeam, 0, 0, k⟩, 15, 8⟩
abbrev F.rimeStatusReplays : FieldRef := ⟨⟨.rimeStatus, 0, 0, 0⟩, 31, 16⟩
abbrev F.rimeStatusDiscards : FieldRef := ⟨⟨.rimeStatus, 0, 0, 0⟩, 15, 0⟩
abbrev F.netRstatReplays (t : Nat) : FieldRef := ⟨⟨.netRstat, t, 0, 0⟩, 31, 16⟩
abbrev F.netRstatDiscards (t : Nat) : FieldRef := ⟨⟨.netRstat, t, 0, 0⟩, 15, 8⟩
abbrev F.netRstatSpareValid (t : Nat) : FieldRef := ⟨⟨.netRstat, t, 0, 0⟩, 6, 6⟩
abbrev F.netRstatSpareLane (t : Nat) : FieldRef := ⟨⟨.netRstat, t, 0, 0⟩, 5, 0⟩
abbrev F.netCredVc3 (t k : Nat) : FieldRef := ⟨⟨.netCred, t, 0, k⟩, 31, 24⟩
abbrev F.netCredVc2 (t k : Nat) : FieldRef := ⟨⟨.netCred, t, 0, k⟩, 23, 16⟩
abbrev F.netCredVc1 (t k : Nat) : FieldRef := ⟨⟨.netCred, t, 0, k⟩, 15, 8⟩
abbrev F.netCredVc0 (t k : Nat) : FieldRef := ⟨⟨.netCred, t, 0, k⟩, 7, 0⟩
abbrev F.netRctxValid (t k : Nat) : FieldRef := ⟨⟨.netRctx, t, 0, k⟩, 31, 31⟩
abbrev F.netRctxMask (t k : Nat) : FieldRef := ⟨⟨.netRctx, t, 0, k⟩, 30, 26⟩
abbrev F.netRctxPart (t k : Nat) : FieldRef := ⟨⟨.netRctx, t, 0, k⟩, 25, 22⟩
abbrev F.netRctxDest (t k : Nat) : FieldRef := ⟨⟨.netRctx, t, 0, k⟩, 21, 14⟩
abbrev F.netRctxNextEntry (t k : Nat) : FieldRef := ⟨⟨.netRctxNext, t, 0, k⟩, 31, 14⟩
abbrev F.portCfgReset (p : Nat) : FieldRef := ⟨⟨.portCfg, p, 0, 0⟩, 2, 2⟩
abbrev F.portCfgLoopback (p : Nat) : FieldRef := ⟨⟨.portCfg, p, 0, 0⟩, 1, 1⟩
abbrev F.portCfgEnable (p : Nat) : FieldRef := ⟨⟨.portCfg, p, 0, 0⟩, 0, 0⟩
abbrev F.portStatusBadPart (p : Nat) : FieldRef := ⟨⟨.portStatus, p, 0, 0⟩, 18, 18⟩
abbrev F.portStatusBadClass (p : Nat) : FieldRef := ⟨⟨.portStatus, p, 0, 0⟩, 17, 17⟩
abbrev F.portStatusRetrained (p : Nat) : FieldRef := ⟨⟨.portStatus, p, 0, 0⟩, 16, 16⟩
abbrev F.portStatusLaneOk (p : Nat) : FieldRef := ⟨⟨.portStatus, p, 0, 0⟩, 15, 12⟩
abbrev F.portStatusLanes (p : Nat) : FieldRef := ⟨⟨.portStatus, p, 0, 0⟩, 6, 4⟩
abbrev F.portStatusState (p : Nat) : FieldRef := ⟨⟨.portStatus, p, 0, 0⟩, 2, 0⟩
abbrev F.portFecCorrected (p : Nat) : FieldRef := ⟨⟨.portFec, p, 0, 0⟩, 31, 16⟩
abbrev F.portFecUncorrectable (p : Nat) : FieldRef := ⟨⟨.portFec, p, 0, 0⟩, 15, 0⟩
abbrev F.portReplayRequested (p : Nat) : FieldRef := ⟨⟨.portReplay, p, 0, 0⟩, 31, 16⟩
abbrev F.portReplayResent (p : Nat) : FieldRef := ⟨⟨.portReplay, p, 0, 0⟩, 15, 0⟩
abbrev F.portLatRtt (p : Nat) : FieldRef := ⟨⟨.portLat, p, 0, 0⟩, 31, 16⟩
abbrev F.portLatOneWay (p : Nat) : FieldRef := ⟨⟨.portLat, p, 0, 0⟩, 15, 0⟩
abbrev F.portRetryOccupancy (p : Nat) : FieldRef := ⟨⟨.portRetry, p, 0, 0⟩, 9, 0⟩
abbrev F.portCredDepth (p k : Nat) : FieldRef := ⟨⟨.portCred, p, 0, k⟩, 31, 16⟩
abbrev F.portCredHeld (p k : Nat) : FieldRef := ⟨⟨.portCred, p, 0, k⟩, 15, 0⟩
abbrev F.cadAlignAligned : FieldRef := ⟨⟨.cadAlign, 0, 0, 0⟩, 31, 31⟩
abbrev F.cadAlignLeft : FieldRef := ⟨⟨.cadAlign, 0, 0, 0⟩, 30, 30⟩
abbrev F.cadAlignPathMismatch : FieldRef := ⟨⟨.cadAlign, 0, 0, 0⟩, 29, 29⟩
abbrev F.cadAlignErrMax : FieldRef := ⟨⟨.cadAlign, 0, 0, 0⟩, 23, 16⟩
abbrev F.cadAlignError : FieldRef := ⟨⟨.cadAlign, 0, 0, 0⟩, 15, 0⟩
abbrev F.cadMasterEpoch : FieldRef := ⟨⟨.cadMaster, 0, 0, 0⟩, 31, 24⟩
abbrev F.cadMasterSlot : FieldRef := ⟨⟨.cadMaster, 0, 0, 0⟩, 9, 0⟩
abbrev F.cadMarksCount : FieldRef := ⟨⟨.cadMarks, 0, 0, 0⟩, 31, 0⟩
abbrev F.glbBridgeEnabled : FieldRef := ⟨⟨.glbBridge, 0, 0, 0⟩, 31, 31⟩
abbrev F.glbBridgeSpeed : FieldRef := ⟨⟨.glbBridge, 0, 0, 0⟩, 30, 28⟩
abbrev F.glbBridgeWidth : FieldRef := ⟨⟨.glbBridge, 0, 0, 0⟩, 27, 23⟩
abbrev F.glbBridgeNumVf : FieldRef := ⟨⟨.glbBridge, 0, 0, 0⟩, 5, 0⟩
abbrev F.glbBridgeCntDropped : FieldRef := ⟨⟨.glbBridgeCnt, 0, 0, 0⟩, 31, 16⟩
abbrev F.glbBridgeCntFlr : FieldRef := ⟨⟨.glbBridgeCnt, 0, 0, 0⟩, 15, 0⟩
abbrev F.partWgtEpochLoEpoch (n : Nat) : FieldRef := ⟨⟨.partWgtEpochLo, n, 0, 0⟩, 31, 0⟩
abbrev F.partWgtEpochHiEpoch (n : Nat) : FieldRef := ⟨⟨.partWgtEpochHi, n, 0, 0⟩, 31, 0⟩
abbrev F.partWgtStatusStage (n : Nat) : FieldRef := ⟨⟨.partWgtStatus, n, 0, 0⟩, 31, 28⟩
abbrev F.partWgtStatusSwap (n : Nat) : FieldRef := ⟨⟨.partWgtStatus, n, 0, 0⟩, 27, 24⟩
abbrev F.partWgtStatusFail (n : Nat) : FieldRef := ⟨⟨.partWgtStatus, n, 0, 0⟩, 23, 16⟩
abbrev F.partWgtStatusLayersDone (n : Nat) : FieldRef := ⟨⟨.partWgtStatus, n, 0, 0⟩, 15, 0⟩
abbrev F.partWgtCntRerequests (n : Nat) : FieldRef := ⟨⟨.partWgtCnt, n, 0, 0⟩, 31, 16⟩
abbrev F.partWgtCntReadbackErr (n : Nat) : FieldRef := ⟨⟨.partWgtCnt, n, 0, 0⟩, 15, 0⟩
abbrev F.partWgtHoldRolledBack (n : Nat) : FieldRef := ⟨⟨.partWgtHold, n, 0, 0⟩, 31, 16⟩
abbrev F.partWgtHoldHeld (n : Nat) : FieldRef := ⟨⟨.partWgtHold, n, 0, 0⟩, 15, 0⟩
abbrev F.partWgtLepochEpoch (n k : Nat) : FieldRef := ⟨⟨.partWgtLepoch, n, 0, k⟩, 31, 0⟩
abbrev F.ringCmdBaseLoBase (f : Nat) : FieldRef := ⟨⟨.ringCmdBaseLo, f, 0, 0⟩, 31, 0⟩
abbrev F.ringCmdBaseHiBase (f : Nat) : FieldRef := ⟨⟨.ringCmdBaseHi, f, 0, 0⟩, 31, 0⟩
abbrev F.ringCmdSizeLog2 (f : Nat) : FieldRef := ⟨⟨.ringCmdSize, f, 0, 0⟩, 3, 0⟩
abbrev F.ringCmdTailTail (f : Nat) : FieldRef := ⟨⟨.ringCmdTail, f, 0, 0⟩, 11, 0⟩
abbrev F.ringCmdHeadHead (f : Nat) : FieldRef := ⟨⟨.ringCmdHead, f, 0, 0⟩, 11, 0⟩
abbrev F.ringRplBaseLoBase (f : Nat) : FieldRef := ⟨⟨.ringRplBaseLo, f, 0, 0⟩, 31, 0⟩
abbrev F.ringRplBaseHiBase (f : Nat) : FieldRef := ⟨⟨.ringRplBaseHi, f, 0, 0⟩, 31, 0⟩
abbrev F.ringRplSizeLog2 (f : Nat) : FieldRef := ⟨⟨.ringRplSize, f, 0, 0⟩, 3, 0⟩
abbrev F.ringRplHeadHead (f : Nat) : FieldRef := ⟨⟨.ringRplHead, f, 0, 0⟩, 11, 0⟩
abbrev F.ringRplTailTail (f : Nat) : FieldRef := ⟨⟨.ringRplTail, f, 0, 0⟩, 11, 0⟩
abbrev F.ringStatusOutstanding (f : Nat) : FieldRef := ⟨⟨.ringStatus, f, 0, 0⟩, 31, 16⟩
abbrev F.ringStatusErr (f : Nat) : FieldRef := ⟨⟨.ringStatus, f, 0, 0⟩, 1, 1⟩
abbrev F.ringStatusEnable (f : Nat) : FieldRef := ⟨⟨.ringStatus, f, 0, 0⟩, 0, 0⟩
abbrev F.funcIrqCauseMulti (f k : Nat) : FieldRef := ⟨⟨.funcIrqCause, f, 0, k⟩, 31, 31⟩
abbrev F.funcIrqCauseSlot (f k : Nat) : FieldRef := ⟨⟨.funcIrqCause, f, 0, k⟩, 25, 16⟩
abbrev F.funcIrqCauseClass (f k : Nat) : FieldRef := ⟨⟨.funcIrqCause, f, 0, k⟩, 5, 0⟩
abbrev F.moulinBaseLoBaselo (f : Nat) : FieldRef := ⟨⟨.moulinBaseLo, f, 0, 0⟩, 31, 0⟩
abbrev F.moulinBaseHiBasehi (f : Nat) : FieldRef := ⟨⟨.moulinBaseHi, f, 0, 0⟩, 31, 0⟩
abbrev F.moulinSizeLog2 (f : Nat) : FieldRef := ⟨⟨.moulinSize, f, 0, 0⟩, 4, 0⟩
abbrev F.moulinHeadHead (f : Nat) : FieldRef := ⟨⟨.moulinHead, f, 0, 0⟩, 15, 0⟩
abbrev F.moulinTailTail (f : Nat) : FieldRef := ⟨⟨.moulinTail, f, 0, 0⟩, 15, 0⟩
abbrev F.mbxSendDataData (u k : Nat) : FieldRef := ⟨⟨.mbxSendData, 0, u, k⟩, 31, 0⟩
abbrev F.mbxHostSendDataData (f u k : Nat) : FieldRef := ⟨⟨.mbxHostSendData, f, u, k⟩, 31, 0⟩
abbrev F.mbxSendCtrlRefused (u : Nat) : FieldRef := ⟨⟨.mbxSendCtrl, 0, u, 0⟩, 31, 16⟩
abbrev F.mbxSendCtrlPeerLost (u : Nat) : FieldRef := ⟨⟨.mbxSendCtrl, 0, u, 0⟩, 1, 1⟩
abbrev F.mbxSendCtrlGo (u : Nat) : FieldRef := ⟨⟨.mbxSendCtrl, 0, u, 0⟩, 0, 0⟩
abbrev F.mbxHostSendCtrlRefused (f u : Nat) : FieldRef := ⟨⟨.mbxHostSendCtrl, f, u, 0⟩, 31, 16⟩
abbrev F.mbxHostSendCtrlPeerLost (f u : Nat) : FieldRef := ⟨⟨.mbxHostSendCtrl, f, u, 0⟩, 1, 1⟩
abbrev F.mbxHostSendCtrlGo (f u : Nat) : FieldRef := ⟨⟨.mbxHostSendCtrl, f, u, 0⟩, 0, 0⟩
abbrev F.mbxRecvDataData (u k : Nat) : FieldRef := ⟨⟨.mbxRecvData, 0, u, k⟩, 31, 0⟩
abbrev F.mbxHostRecvDataData (f u k : Nat) : FieldRef := ⟨⟨.mbxHostRecvData, f, u, k⟩, 31, 0⟩
abbrev F.mbxRecvCtrlReceived (u : Nat) : FieldRef := ⟨⟨.mbxRecvCtrl, 0, u, 0⟩, 31, 16⟩
abbrev F.mbxRecvCtrlDone (u : Nat) : FieldRef := ⟨⟨.mbxRecvCtrl, 0, u, 0⟩, 1, 1⟩
abbrev F.mbxRecvCtrlFlag (u : Nat) : FieldRef := ⟨⟨.mbxRecvCtrl, 0, u, 0⟩, 0, 0⟩
abbrev F.mbxHostRecvCtrlReceived (f u : Nat) : FieldRef := ⟨⟨.mbxHostRecvCtrl, f, u, 0⟩, 31, 16⟩
abbrev F.mbxHostRecvCtrlDone (f u : Nat) : FieldRef := ⟨⟨.mbxHostRecvCtrl, f, u, 0⟩, 1, 1⟩
abbrev F.mbxHostRecvCtrlFlag (f u : Nat) : FieldRef := ⟨⟨.mbxHostRecvCtrl, f, u, 0⟩, 0, 0⟩
abbrev F.mbxCfgSecure (k : Nat) : FieldRef := ⟨⟨.mbxCfg, 0, 0, k⟩, 31, 31⟩
abbrev F.mbxCfgPeer (k : Nat) : FieldRef := ⟨⟨.mbxCfg, 0, 0, k⟩, 25, 16⟩
abbrev F.mbxCfgPart (k : Nat) : FieldRef := ⟨⟨.mbxCfg, 0, 0, k⟩, 3, 0⟩
abbrev F.syncPartCount (k : Nat) : FieldRef := ⟨⟨.syncPart, 0, 0, k⟩, 30, 16⟩
abbrev F.syncPartBase (k : Nat) : FieldRef := ⟨⟨.syncPart, 0, 0, k⟩, 13, 0⟩
abbrev F.syncStatusWaiting : FieldRef := ⟨⟨.syncStatus, 0, 0, 0⟩, 31, 16⟩
abbrev F.syncStatusOverflow : FieldRef := ⟨⟨.syncStatus, 0, 0, 0⟩, 1, 1⟩
abbrev F.syncStatusTypeErr : FieldRef := ⟨⟨.syncStatus, 0, 0, 0⟩, 0, 0⟩
abbrev F.syncObjValue (k : Nat) : FieldRef := ⟨⟨.syncObj, 0, 0, k⟩, 31, 0⟩
abbrev F.syncCfgType (k : Nat) : FieldRef := ⟨⟨.syncCfg, 0, 0, k⟩, 1, 0⟩
abbrev F.partSvcStatusActive (n : Nat) : FieldRef := ⟨⟨.partSvcStatus, n, 0, 0⟩, 31, 16⟩
abbrev F.partSvcStatusQueued (n : Nat) : FieldRef := ⟨⟨.partSvcStatus, n, 0, 0⟩, 15, 0⟩
abbrev F.partSvcCntLate (n : Nat) : FieldRef := ⟨⟨.partSvcCnt, n, 0, 0⟩, 31, 16⟩
abbrev F.partSvcCntDone (n : Nat) : FieldRef := ⟨⟨.partSvcCnt, n, 0, 0⟩, 15, 0⟩
abbrev F.partKvFreePages (n : Nat) : FieldRef := ⟨⟨.partKvFree, n, 0, 0⟩, 31, 0⟩
abbrev F.partKvLentPages (n : Nat) : FieldRef := ⟨⟨.partKvLent, n, 0, 0⟩, 31, 0⟩
abbrev F.partKvBorrowedPages (n : Nat) : FieldRef := ⟨⟨.partKvBorrowed, n, 0, 0⟩, 31, 0⟩
abbrev F.partSvcEvtPreempted (n : Nat) : FieldRef := ⟨⟨.partSvcEvt, n, 0, 0⟩, 31, 16⟩
abbrev F.partSvcEvtRestarted (n : Nat) : FieldRef := ⟨⟨.partSvcEvt, n, 0, 0⟩, 15, 0⟩
abbrev F.partCfgState (n : Nat) : FieldRef := ⟨⟨.partCfg, n, 0, 0⟩, 31, 30⟩
abbrev F.partCfgTenant (n : Nat) : FieldRef := ⟨⟨.partCfg, n, 0, 0⟩, 21, 16⟩
abbrev F.partCfgResE (n : Nat) : FieldRef := ⟨⟨.partCfg, n, 0, 0⟩, 15, 8⟩
abbrev F.partCfgResW (n : Nat) : FieldRef := ⟨⟨.partCfg, n, 0, 0⟩, 7, 0⟩
abbrev F.partTilesTiles (n k : Nat) : FieldRef := ⟨⟨.partTiles, n, 0, k⟩, 31, 0⟩
abbrev F.partHbmLen (n k : Nat) : FieldRef := ⟨⟨.partHbm, n, 0, k⟩, 27, 16⟩
abbrev F.partHbmBase (n k : Nat) : FieldRef := ⟨⟨.partHbm, n, 0, k⟩, 11, 0⟩
abbrev F.partQosOverride (n : Nat) : FieldRef := ⟨⟨.partQos, n, 0, 0⟩, 31, 31⟩
abbrev F.partQosHbmShare (n : Nat) : FieldRef := ⟨⟨.partQos, n, 0, 0⟩, 24, 16⟩
abbrev F.partQosWeight (n : Nat) : FieldRef := ⟨⟨.partQos, n, 0, 0⟩, 7, 0⟩
abbrev F.partIsoHbm (n : Nat) : FieldRef := ⟨⟨.partIso, n, 0, 0⟩, 31, 16⟩
abbrev F.partIsoRegDenied (n : Nat) : FieldRef := ⟨⟨.partIso, n, 0, 0⟩, 15, 0⟩
abbrev F.partLinkShareEntries (n k : Nat) : FieldRef := ⟨⟨.partLinkShare, n, 0, k⟩, 7, 0⟩
abbrev F.partIrqCfgTimeUs (n k : Nat) : FieldRef := ⟨⟨.partIrqCfg, n, 0, k⟩, 31, 12⟩
abbrev F.partIrqCfgCount (n k : Nat) : FieldRef := ⟨⟨.partIrqCfg, n, 0, k⟩, 11, 0⟩
abbrev F.partIrqRouteVec (n : Nat) : FieldRef := ⟨⟨.partIrqRoute, n, 0, 0⟩, 23, 0⟩
abbrev F.partIrqPendPending (n : Nat) : FieldRef := ⟨⟨.partIrqPend, n, 0, 0⟩, 15, 0⟩
abbrev F.cadExtActive : FieldRef := ⟨⟨.cadExt, 0, 0, 0⟩, 31, 24⟩
abbrev F.cadExtSupply : FieldRef := ⟨⟨.cadExt, 0, 0, 0⟩, 23, 16⟩
abbrev F.cadExtExtensions : FieldRef := ⟨⟨.cadExt, 0, 0, 0⟩, 15, 0⟩
abbrev F.logStatusFolding : FieldRef := ⟨⟨.logStatus, 0, 0, 0⟩, 31, 31⟩
abbrev F.logStatusStalled : FieldRef := ⟨⟨.logStatus, 0, 0, 0⟩, 30, 30⟩
abbrev F.logStatusWrapped : FieldRef := ⟨⟨.logStatus, 0, 0, 0⟩, 29, 29⟩
abbrev F.logStatusIngest : FieldRef := ⟨⟨.logStatus, 0, 0, 0⟩, 24, 16⟩
abbrev F.logStatusSummary : FieldRef := ⟨⟨.logStatus, 0, 0, 0⟩, 10, 0⟩
abbrev F.logFillUndrained : FieldRef := ⟨⟨.logFill, 0, 0, 0⟩, 16, 0⟩
abbrev F.logLostLost : FieldRef := ⟨⟨.logLost, 0, 0, 0⟩, 31, 0⟩
abbrev F.logMoulinMode : FieldRef := ⟨⟨.logMoulin, 0, 0, 0⟩, 17, 16⟩
abbrev F.logMoulinMaxDelay : FieldRef := ⟨⟨.logMoulin, 0, 0, 0⟩, 13, 0⟩
abbrev F.logSpillBaseBase : FieldRef := ⟨⟨.logSpillBase, 0, 0, 0⟩, 31, 0⟩
abbrev F.logSpillLenLen : FieldRef := ⟨⟨.logSpillLen, 0, 0, 0⟩, 31, 0⟩
abbrev F.glbHoldParts : FieldRef := ⟨⟨.glbHold, 0, 0, 0⟩, 31, 16⟩
abbrev F.glbHoldHolds : FieldRef := ⟨⟨.glbHold, 0, 0, 0⟩, 15, 0⟩
abbrev F.glbReserveEast : FieldRef := ⟨⟨.glbReserve, 0, 0, 0⟩, 15, 8⟩
abbrev F.glbReserveWest : FieldRef := ⟨⟨.glbReserve, 0, 0, 0⟩, 7, 0⟩
abbrev F.glbRedirectValid (k : Nat) : FieldRef := ⟨⟨.glbRedirect, 0, 0, k⟩, 31, 31⟩
abbrev F.glbRedirectFrom (k : Nat) : FieldRef := ⟨⟨.glbRedirect, 0, 0, k⟩, 25, 16⟩
abbrev F.glbRedirectTo (k : Nat) : FieldRef := ⟨⟨.glbRedirect, 0, 0, k⟩, 9, 0⟩
abbrev F.pwrDomSwitches (k : Nat) : FieldRef := ⟨⟨.pwrDom, 0, 0, k⟩, 31, 16⟩
abbrev F.pwrDomReq (k : Nat) : FieldRef := ⟨⟨.pwrDom, 0, 0, k⟩, 5, 4⟩
abbrev F.pwrDomLocked (k : Nat) : FieldRef := ⟨⟨.pwrDom, 0, 0, k⟩, 2, 2⟩
abbrev F.pwrDomState (k : Nat) : FieldRef := ⟨⟨.pwrDom, 0, 0, k⟩, 1, 0⟩
abbrev F.pwrStatusRamping : FieldRef := ⟨⟨.pwrStatus, 0, 0, 0⟩, 7, 0⟩
abbrev F.pwrInstallSave : FieldRef := ⟨⟨.pwrInstall, 0, 0, 0⟩, 0, 0⟩
abbrev F.thmCfgShut : FieldRef := ⟨⟨.thmCfg, 0, 0, 0⟩, 29, 20⟩
abbrev F.thmCfgTh : FieldRef := ⟨⟨.thmCfg, 0, 0, 0⟩, 19, 10⟩
abbrev F.thmCfgWarn : FieldRef := ⟨⟨.thmCfg, 0, 0, 0⟩, 9, 0⟩
abbrev F.thmStatusShutdown : FieldRef := ⟨⟨.thmStatus, 0, 0, 0⟩, 31, 31⟩
abbrev F.thmStatusThrottle : FieldRef := ⟨⟨.thmStatus, 0, 0, 0⟩, 30, 30⟩
abbrev F.thmStatusWarn : FieldRef := ⟨⟨.thmStatus, 0, 0, 0⟩, 29, 29⟩
abbrev F.thmStatusCfgErr : FieldRef := ⟨⟨.thmStatus, 0, 0, 0⟩, 28, 28⟩
abbrev F.thmStatusReq : FieldRef := ⟨⟨.thmStatus, 0, 0, 0⟩, 27, 20⟩
abbrev F.thmStatusHottest : FieldRef := ⟨⟨.thmStatus, 0, 0, 0⟩, 19, 13⟩
abbrev F.thmStatusTmax : FieldRef := ⟨⟨.thmStatus, 0, 0, 0⟩, 11, 0⟩
abbrev F.thmSensBroken (k : Nat) : FieldRef := ⟨⟨.thmSens, 0, 0, k⟩, 31, 31⟩
abbrev F.thmSensRate (k : Nat) : FieldRef := ⟨⟨.thmSens, 0, 0, k⟩, 25, 24⟩
abbrev F.thmSensRaw (k : Nat) : FieldRef := ⟨⟨.thmSens, 0, 0, k⟩, 23, 12⟩
abbrev F.thmSensTemp (k : Nat) : FieldRef := ⟨⟨.thmSens, 0, 0, k⟩, 11, 0⟩
abbrev F.supCfgStretch : FieldRef := ⟨⟨.supCfg, 0, 0, 0⟩, 23, 16⟩
abbrev F.supCfgResetPct : FieldRef := ⟨⟨.supCfg, 0, 0, 0⟩, 15, 8⟩
abbrev F.supCfgWarnPct : FieldRef := ⟨⟨.supCfg, 0, 0, 0⟩, 7, 0⟩
abbrev F.supStatusReq : FieldRef := ⟨⟨.supStatus, 0, 0, 0⟩, 15, 8⟩
abbrev F.supStatusCfgErr : FieldRef := ⟨⟨.supStatus, 0, 0, 0⟩, 2, 2⟩
abbrev F.supStatusHold : FieldRef := ⟨⟨.supStatus, 0, 0, 0⟩, 1, 1⟩
abbrev F.supStatusWarn : FieldRef := ⟨⟨.supStatus, 0, 0, 0⟩, 0, 0⟩
abbrev F.supRailWarn (k : Nat) : FieldRef := ⟨⟨.supRail, 0, 0, k⟩, 31, 31⟩
abbrev F.supRailMin (k : Nat) : FieldRef := ⟨⟨.supRail, 0, 0, k⟩, 27, 16⟩
abbrev F.supRailWarnings (k : Nat) : FieldRef := ⟨⟨.supRail, 0, 0, k⟩, 15, 0⟩
abbrev F.hkTimerPeriod : FieldRef := ⟨⟨.hkTimer, 0, 0, 0⟩, 19, 0⟩
abbrev F.hkMaskMask (k : Nat) : FieldRef := ⟨⟨.hkMask, 0, 0, k⟩, 31, 0⟩
abbrev F.hkUrgentQueued : FieldRef := ⟨⟨.hkUrgent, 0, 0, 0⟩, 18, 16⟩
abbrev F.hkUrgentChannel : FieldRef := ⟨⟨.hkUrgent, 0, 0, 0⟩, 5, 0⟩
abbrev F.hkStatusMissed : FieldRef := ⟨⟨.hkStatus, 0, 0, 0⟩, 31, 24⟩
abbrev F.hkStatusFifoLost : FieldRef := ⟨⟨.hkStatus, 0, 0, 0⟩, 23, 16⟩
abbrev F.hkStatusUrgRefused : FieldRef := ⟨⟨.hkStatus, 0, 0, 0⟩, 15, 10⟩
abbrev F.hkStatusBusy : FieldRef := ⟨⟨.hkStatus, 0, 0, 0⟩, 9, 9⟩
abbrev F.hkStatusFifoLevel : FieldRef := ⟨⟨.hkStatus, 0, 0, 0⟩, 8, 0⟩
abbrev F.hkFifoValid : FieldRef := ⟨⟨.hkFifo, 0, 0, 0⟩, 31, 31⟩
abbrev F.hkFifoSource : FieldRef := ⟨⟨.hkFifo, 0, 0, 0⟩, 30, 29⟩
abbrev F.hkFifoChannel : FieldRef := ⟨⟨.hkFifo, 0, 0, 0⟩, 28, 23⟩
abbrev F.hkFifoScan : FieldRef := ⟨⟨.hkFifo, 0, 0, 0⟩, 22, 12⟩
abbrev F.hkFifoCode : FieldRef := ⟨⟨.hkFifo, 0, 0, 0⟩, 11, 0⟩
abbrev F.hkCmpEvtEvent : FieldRef := ⟨⟨.hkCmpEvt, 0, 0, 0⟩, 15, 0⟩
abbrev F.hkPwmEnable (k : Nat) : FieldRef := ⟨⟨.hkPwm, 0, 0, k⟩, 31, 31⟩
abbrev F.hkPwmDelay (k : Nat) : FieldRef := ⟨⟨.hkPwm, 0, 0, k⟩, 15, 0⟩
abbrev F.hkValueValid (k : Nat) : FieldRef := ⟨⟨.hkValue, 0, 0, k⟩, 31, 31⟩
abbrev F.hkValueSource (k : Nat) : FieldRef := ⟨⟨.hkValue, 0, 0, k⟩, 30, 29⟩
abbrev F.hkValueScan (k : Nat) : FieldRef := ⟨⟨.hkValue, 0, 0, k⟩, 22, 12⟩
abbrev F.hkValueCode (k : Nat) : FieldRef := ⟨⟨.hkValue, 0, 0, k⟩, 11, 0⟩
abbrev F.hkCmpBndHigh (k : Nat) : FieldRef := ⟨⟨.hkCmpBnd, 0, 0, k⟩, 27, 16⟩
abbrev F.hkCmpBndLow (k : Nat) : FieldRef := ⟨⟨.hkCmpBnd, 0, 0, k⟩, 11, 0⟩
abbrev F.hkCmpCfgEnable (k : Nat) : FieldRef := ⟨⟨.hkCmpCfg, 0, 0, k⟩, 31, 31⟩
abbrev F.hkCmpCfgAction (k : Nat) : FieldRef := ⟨⟨.hkCmpCfg, 0, 0, k⟩, 30, 30⟩
abbrev F.hkCmpCfgState (k : Nat) : FieldRef := ⟨⟨.hkCmpCfg, 0, 0, k⟩, 29, 28⟩
abbrev F.hkCmpCfgChannel (k : Nat) : FieldRef := ⟨⟨.hkCmpCfg, 0, 0, k⟩, 27, 22⟩
abbrev F.hkCmpCfgStretch (k : Nat) : FieldRef := ⟨⟨.hkCmpCfg, 0, 0, k⟩, 15, 8⟩
abbrev F.hkCmpCfgHyst (k : Nat) : FieldRef := ⟨⟨.hkCmpCfg, 0, 0, k⟩, 7, 0⟩
abbrev F.glbRstLast : FieldRef := ⟨⟨.glbRst, 0, 0, 0⟩, 31, 28⟩
abbrev F.glbRstSupplyRun : FieldRef := ⟨⟨.glbRst, 0, 0, 0⟩, 27, 24⟩
abbrev F.glbRstWarm : FieldRef := ⟨⟨.glbRst, 0, 0, 0⟩, 15, 8⟩
abbrev F.glbRstModule : FieldRef := ⟨⟨.glbRst, 0, 0, 0⟩, 7, 0⟩
abbrev F.pwrModeChanging : FieldRef := ⟨⟨.pwrMode, 0, 0, 0⟩, 3, 3⟩
abbrev F.pwrModeState : FieldRef := ⟨⟨.pwrMode, 0, 0, 0⟩, 2, 0⟩
abbrev F.pwrWakePin : FieldRef := ⟨⟨.pwrWake, 0, 0, 0⟩, 1, 1⟩
abbrev F.pwrWakeGo : FieldRef := ⟨⟨.pwrWake, 0, 0, 0⟩, 0, 0⟩
abbrev F.pwrSlotReadyOut : FieldRef := ⟨⟨.pwrSlot, 0, 0, 0⟩, 21, 21⟩
abbrev F.pwrSlotAttn : FieldRef := ⟨⟨.pwrSlot, 0, 0, 0⟩, 20, 18⟩
abbrev F.pwrSlotRdy : FieldRef := ⟨⟨.pwrSlot, 0, 0, 0⟩, 17, 15⟩
abbrev F.pwrSlotSlot : FieldRef := ⟨⟨.pwrSlot, 0, 0, 0⟩, 9, 0⟩
abbrev F.secStatusErasePending : FieldRef := ⟨⟨.secStatus, 0, 0, 0⟩, 3, 3⟩
abbrev F.secStatusInstall : FieldRef := ⟨⟨.secStatus, 0, 0, 0⟩, 2, 2⟩
abbrev F.secStatusRecovery : FieldRef := ⟨⟨.secStatus, 0, 0, 0⟩, 1, 1⟩
abbrev F.secStatusKeysValid : FieldRef := ⟨⟨.secStatus, 0, 0, 0⟩, 0, 0⟩
abbrev F.secSessCtrlEnd : FieldRef := ⟨⟨.secSessCtrl, 0, 0, 0⟩, 2, 2⟩
abbrev F.secSessCtrlGo : FieldRef := ⟨⟨.secSessCtrl, 0, 0, 0⟩, 1, 1⟩
abbrev F.secSessCtrlOpen : FieldRef := ⟨⟨.secSessCtrl, 0, 0, 0⟩, 0, 0⟩
abbrev F.secSessNonceNonce (k : Nat) : FieldRef := ⟨⟨.secSessNonce, 0, 0, k⟩, 31, 0⟩
abbrev F.secDbgNonceNonce (k : Nat) : FieldRef := ⟨⟨.secDbgNonce, 0, 0, k⟩, 31, 0⟩
abbrev F.secDbgFails : FieldRef := ⟨⟨.secDbg, 0, 0, 0⟩, 31, 24⟩
abbrev F.secDbgScope : FieldRef := ⟨⟨.secDbg, 0, 0, 0⟩, 2, 1⟩
abbrev F.secDbgOpen : FieldRef := ⟨⟨.secDbg, 0, 0, 0⟩, 0, 0⟩
abbrev F.secFwFuses : FieldRef := ⟨⟨.secFw, 0, 0, 0⟩, 23, 16⟩
abbrev F.secFwSvn : FieldRef := ⟨⟨.secFw, 0, 0, 0⟩, 15, 2⟩
abbrev F.secFwActivating : FieldRef := ⟨⟨.secFw, 0, 0, 0⟩, 1, 1⟩
abbrev F.secFwSlot : FieldRef := ⟨⟨.secFw, 0, 0, 0⟩, 0, 0⟩
abbrev F.secSessRespWord (k : Nat) : FieldRef := ⟨⟨.secSessResp, 0, 0, k⟩, 31, 0⟩
abbrev F.ctrPcLoCount (t k : Nat) : FieldRef := ⟨⟨.ctrPcLo, t, 0, k⟩, 31, 0⟩
abbrev F.ctrPcLoShCount (t k : Nat) : FieldRef := ⟨⟨.ctrPcLoSh, t, 0, k⟩, 31, 0⟩
abbrev F.ctrPcHiCount (t k : Nat) : FieldRef := ⟨⟨.ctrPcHi, t, 0, k⟩, 15, 0⟩
abbrev F.ctrPcHiShCount (t k : Nat) : FieldRef := ⟨⟨.ctrPcHiSh, t, 0, k⟩, 15, 0⟩
abbrev F.ctrPcCfgEvent (t k : Nat) : FieldRef := ⟨⟨.ctrPcCfg, t, 0, k⟩, 26, 0⟩
abbrev F.ctrTileStatusTdOvf (t : Nat) : FieldRef := ⟨⟨.ctrTileStatus, t, 0, 0⟩, 17, 17⟩
abbrev F.ctrTileStatusOvf (t : Nat) : FieldRef := ⟨⟨.ctrTileStatus, t, 0, 0⟩, 15, 0⟩
abbrev F.ctrTileStatusShTdOvf (t : Nat) : FieldRef := ⟨⟨.ctrTileStatusSh, t, 0, 0⟩, 17, 17⟩
abbrev F.ctrTileStatusShOvf (t : Nat) : FieldRef := ⟨⟨.ctrTileStatusSh, t, 0, 0⟩, 15, 0⟩
abbrev F.ctrTdLoCount (t u k : Nat) : FieldRef := ⟨⟨.ctrTdLo, t, u, k⟩, 31, 0⟩
abbrev F.ctrTdLoShCount (t u k : Nat) : FieldRef := ⟨⟨.ctrTdLoSh, t, u, k⟩, 31, 0⟩
abbrev F.ctrTdHiExt (t u k : Nat) : FieldRef := ⟨⟨.ctrTdHi, t, u, k⟩, 31, 16⟩
abbrev F.ctrTdHiCount (t u k : Nat) : FieldRef := ⟨⟨.ctrTdHi, t, u, k⟩, 15, 0⟩
abbrev F.ctrTdHiShExt (t u k : Nat) : FieldRef := ⟨⟨.ctrTdHiSh, t, u, k⟩, 31, 16⟩
abbrev F.ctrTdHiShCount (t u k : Nat) : FieldRef := ⟨⟨.ctrTdHiSh, t, u, k⟩, 15, 0⟩
abbrev F.ctrPortLoCount (p u k : Nat) : FieldRef := ⟨⟨.ctrPortLo, p, u, k⟩, 31, 0⟩
abbrev F.ctrPortLoShCount (p u k : Nat) : FieldRef := ⟨⟨.ctrPortLoSh, p, u, k⟩, 31, 0⟩
abbrev F.ctrPortHiExt (p u k : Nat) : FieldRef := ⟨⟨.ctrPortHi, p, u, k⟩, 31, 16⟩
abbrev F.ctrPortHiCount (p u k : Nat) : FieldRef := ⟨⟨.ctrPortHi, p, u, k⟩, 15, 0⟩
abbrev F.ctrPortHiShExt (p u k : Nat) : FieldRef := ⟨⟨.ctrPortHiSh, p, u, k⟩, 31, 16⟩
abbrev F.ctrPortHiShCount (p u k : Nat) : FieldRef := ⟨⟨.ctrPortHiSh, p, u, k⟩, 15, 0⟩
abbrev F.ctrPortWinBytes (p u k : Nat) : FieldRef := ⟨⟨.ctrPortWin, p, u, k⟩, 31, 0⟩
abbrev F.ctrPortWinShBytes (p u k : Nat) : FieldRef := ⟨⟨.ctrPortWinSh, p, u, k⟩, 31, 0⟩
abbrev F.ctrSeamLoCount (r u k : Nat) : FieldRef := ⟨⟨.ctrSeamLo, r, u, k⟩, 31, 0⟩
abbrev F.ctrSeamLoShCount (r u k : Nat) : FieldRef := ⟨⟨.ctrSeamLoSh, r, u, k⟩, 31, 0⟩
abbrev F.ctrSeamHiExt (r u k : Nat) : FieldRef := ⟨⟨.ctrSeamHi, r, u, k⟩, 31, 16⟩
abbrev F.ctrSeamHiCount (r u k : Nat) : FieldRef := ⟨⟨.ctrSeamHi, r, u, k⟩, 15, 0⟩
abbrev F.ctrSeamHiShExt (r u k : Nat) : FieldRef := ⟨⟨.ctrSeamHiSh, r, u, k⟩, 31, 16⟩
abbrev F.ctrSeamHiShCount (r u k : Nat) : FieldRef := ⟨⟨.ctrSeamHiSh, r, u, k⟩, 15, 0⟩
abbrev F.ctrSeamWinBytes (r u k : Nat) : FieldRef := ⟨⟨.ctrSeamWin, r, u, k⟩, 31, 0⟩
abbrev F.ctrSeamWinShBytes (r u k : Nat) : FieldRef := ⟨⟨.ctrSeamWinSh, r, u, k⟩, 31, 0⟩
abbrev F.ctrCtrlPortOvf : FieldRef := ⟨⟨.ctrCtrl, 0, 0, 0⟩, 3, 3⟩
abbrev F.ctrCtrlTest : FieldRef := ⟨⟨.ctrCtrl, 0, 0, 0⟩, 2, 2⟩
abbrev F.ctrCtrlMode : FieldRef := ⟨⟨.ctrCtrl, 0, 0, 0⟩, 1, 0⟩
abbrev F.ctrSnapBeatLoBeat : FieldRef := ⟨⟨.ctrSnapBeatLo, 0, 0, 0⟩, 31, 0⟩
abbrev F.ctrSnapBeatHiBeat : FieldRef := ⟨⟨.ctrSnapBeatHi, 0, 0, 0⟩, 31, 0⟩
abbrev F.ctrSnapCauseFrozen : FieldRef := ⟨⟨.ctrSnapCause, 0, 0, 0⟩, 1, 1⟩
abbrev F.ctrSnapCauseCause : FieldRef := ⟨⟨.ctrSnapCause, 0, 0, 0⟩, 0, 0⟩

end Sys2Proof.Machine
end

