-- ==== Sys2Proof/Machine/State.lean ====
section
/-! DEFINITION. The state of the module: every register, array, store, queue, counter, mode and pin the spec gives it, as plain
data; what the module has sent, in the order in which it sent it; and the commands that wait. -/

namespace Sys2Proof.Machine

/-- Why the module stops. -/
inductive Fault where
  /-- Raised by HBM_BURST of partition 0 on a byte offset at or beyond 96,000,000,000, which R16 says does not exist (the
  regions of a tenant partition cannot reach it, R341). Safe: the model stops where the spec gives no effect. -/
  | noSuchHbmAddress
  deriving DecidableEq, Repr

/-- Why a command has no meaning. -/
inductive Refusal where
  /-- Raised only by an arm of Machine/Dispatch.lean whose command has no meaning yet. Safe. -/
  | notModelled (mnemonic : String)
  deriving DecidableEq, Repr

/-- The module. -/
structure State where
  /-- commands waiting, first in, first out -/
  pending : List Instr := []
  /-- the registers by address; an unlisted one holds its reset value (Machine/RegReset.lean) -/
  regs : Sparse Word := []
  /-- counter values by the address of their LO register (R453, R464): a programmable counter in bits 47 to 0, a fixed one with
  EXT in bits 63 to 48 -/
  ctr : Sparse (BitVec 64) := []
  /-- array a of tile t at 128 t + a -/
  arrays : Sparse ArrSt := []
  tiles : Sparse TileSt := []
  /-- routers 0 to 95, hubs 96 and 97 -/
  routers : Sparse RouterSt := []
  /-- rime messages waiting for their apply beat (R214), in order of arrival -/
  rime : List (BitVec 64 × RimeMsg) := []
  syncWaits : List SyncWait := []
  ports : Sparse PortSt := []
  cad : CadSt := {}
  parts : Sparse PartSt := []
  bridge : BridgeSt := {}
  log : LogSt := {}
  pwr : PwrSt := {}
  thm : ThmSt := {}
  hk : HkSt := {}
  firn : FirnSt := {}
  sec : SecSt := {}
  /-- HBM4 by byte offset (R16) -/
  hbm : Sparse Byte := []
  /-- 4 KiB lines of HBM4 marked bad (R356) -/
  hbmBad : List Nat := []
  /-- bytes of the window over seam bundle r on channel v in direction d, 0 West to East, at 8 r + 2 v + d (R461) -/
  seamBytes : Sparse Nat := []
  /-- the model's own: how many free values have been taken (see the assumption log); not a part of the module -/
  free : Nat := 0
  /-- what the module has sent: replies, link messages, rime messages, writes to host memory, MSI-X (function, vector) -/
  replies : List Reply := []
  linkOut : List LinkMsg := []
  /-- the messages that have arrived whole from other modules, each with its source slot (R223); what one does is its own command's -/
  linkIn : List (Nat × LinkMsg) := []
  rimeOut : List RimeMsg := []
  hostOut : List (Nat × Bytes) := []
  msix : List (Nat × Nat) := []
  /-- values that SMBus Block Reads returned (R468) -/
  smbOut : List Word := []
  deriving DecidableEq, Repr

/-- The module with every register and unit at its reset value and nothing commanded yet: input power has not come up, so every
power domain is off (PWR_DOMk.STATE resets to 0) until POWER_ON runs. -/
def State.reset : State where
  pending := []

end Sys2Proof.Machine
end

