-- ==== Sys2Proof/Machine/Sparse.lean ====
section
/-! DEFINITION. Sparse tables. A table is read with the function `d` that says what an unlisted key reads as; a write of that
value removes the entry, so equal tables are equal lists. -/

namespace Sys2Proof.Machine

variable {α : Type}

/-- The entry of key k, or what an unlisted key reads as. -/
def Sparse.get (d : Nat → α) (m : Sparse α) (k : Nat) : α :=
  (List.lookup k m).getD (d k)

/-- Write f (k - base) to each key k from base to base + n - 1. -/
def Sparse.setRange [DecidableEq α] (d : Nat → α) (m : Sparse α) (base n : Nat) (f : Nat → α) : Sparse α :=
  m.filter (fun e => e.1 < base) ++
    (((List.range n).map (fun j => (base + j, f j))).filter (fun e => e.2 ≠ d e.1) ++
      m.filter (fun e => base + n ≤ e.1))

/-- Write one key. -/
def Sparse.set [DecidableEq α] (d : Nat → α) (m : Sparse α) (k : Nat) (v : α) : Sparse α :=
  Sparse.setRange d m k 1 (fun _ => v)

/-- Replace every listed entry by g of it, dropping those that then read as unlisted. -/
def Sparse.mapAll [DecidableEq α] (d : Nat → α) (m : Sparse α) (g : Nat → α → α) : Sparse α :=
  (m.map (fun e => (e.1, g e.1 e.2))).filter (fun e => e.2 ≠ d e.1)

/-- The canonical form: keys strictly rising, no entry equal to what an unlisted key reads as. -/
def Sparse.wf [DecidableEq α] (d : Nat → α) (m : Sparse α) : Bool :=
  decide (m.Pairwise (fun a b => a.1 < b.1)) && m.all (fun e => e.2 ≠ d e.1)

end Sys2Proof.Machine
end

