-- ==== Sys2Proof/Machine/RegReset.lean ====
section
/-! DEFINITION. Addresses of registers, the register of an address, and what a register holds at reset (R9, R11, R12).

A field whose reset value the spec takes from a record holds at `State.reset` what the record of an IL9-96 with no bad tile,
the default reserve of 4, a fresh repair map, slot 0, no port with a peer and the default cadence gives (assumption 4). -/

namespace Sys2Proof.Machine

/-- The base of instance i of a block (Table 0.3, R251, Table 17.2). -/
def Block.base : Block → Nat → Nat
  | .glb, _ => 0
  | .tile, t => 0x10000000 + t * 0x100000
  | .port, p => 0x20000000 + p * 0x10000
  | .part, n => 0x30000000 + n * 0x10000
  | .hk, _ => 0x40000000
  | .sec, _ => 0x50000000
  | .ctrTile, t => 0x60000000 + t * 0x1000
  | .ctrPort, p => 0x60100000 + p * 0x400
  | .ctrSeam, r => 0x60110000 + r * 0x100
  | .ctrCtl, _ => 0x60120000
  | .bar, f => (f + 1) * 0x100000000

/-- How many instances a block has, and how far apart they lie. -/
def Block.shape : Block → Nat × Nat
  | .glb => (1, 0x10000000)
  | .tile => (96, 0x100000)
  | .port => (16, 0x10000)
  | .part => (16, 0x10000)
  | .hk => (1, 0x10000000)
  | .sec => (1, 0x10000000)
  | .ctrTile => (96, 0x1000)
  | .ctrPort => (16, 0x400)
  | .ctrSeam => (6, 0x100)
  | .ctrCtl => (1, 0x10000)
  | .bar => (64, 0x100000000)

/-- The address of a register (R9). A register of a bridge function's BAR0, which is not in control space, stands above it. -/
def Reg.addr (r : Reg) : Nat :=
  r.kind.geom.block.base r.i + r.kind.geom.off + r.j * r.kind.geom.js + r.k * r.kind.geom.ks

/-- The register of kind κ at offset o of instance i of its block. -/
def RegKind.atOffset (κ : RegKind) (i o : Nat) : Option Reg :=
  let g := κ.geom
  if o < g.off then none
  else
    let d := o - g.off
    let j := if g.jc ≤ 1 then 0 else d / g.js
    let e := if g.jc ≤ 1 then d else d % g.js
    let k := e / g.ks
    if e % g.ks = 0 ∧ k < g.kc ∧ (g.jc ≤ 1 ∨ j < g.jc) then some ⟨κ, i, j, k⟩ else none

/-- All blocks. -/
def Block.all : List Block := [.glb, .tile, .port, .part, .hk, .sec, .ctrTile, .ctrPort, .ctrSeam, .ctrCtl, .bar]

/-- The register of a block at an address. -/
def Block.regAt (b : Block) (a : Nat) : Option Reg :=
  let n := b.shape.1
  let st := b.shape.2
  if a < b.base 0 ∨ b.base 0 + n * st ≤ a then none
  else
    let i := (a - b.base 0) / st
    b.kinds.findSome? (fun κ => κ.atOffset i ((a - b.base 0) % st))

/-- The register at an address, if there is one (R10). -/
def Reg.ofAddr (a : Nat) : Option Reg :=
  Block.all.findSome? (fun b => b.regAt a)

/-- The depth of a fabric buffer that output d of a router sends into (Table 7.6): ejection, or a mesh input, or for a seam
column's output across the seam the seam input. -/
def credDepth (t d : Nat) : Nat :=
  if d = 0 then 8
  else if d = 2 ∧ 42 ≤ t ∧ t < 48 then 8
  else if d = 4 ∧ 48 ≤ t ∧ t < 54 then 8
  else 4

/-- The receive buffers of the six pools (Table 8.3). -/
def poolSize : Nat → Nat
  | 0 => 1024 | 1 => 256 | 2 => 64 | 3 => 64 | 4 => 512 | 5 => 32 | _ => 0

/-- The tile map's reset entry of logical tile k for reserve r and no bad tile (R186, R362): the good tiles of a half in
ascending order, less the reserve tiles. -/
def mapEntry (reserve : Nat) (k : Nat) : Nat :=
  let w := (reserve + 1) / 2
  let e := reserve / 2
  if k < 48 - w then 128 + k
  else if 48 ≤ k ∧ k < 96 - e then 128 + k
  else 0

/-- The installed comparator settings of R410: LOW 0 and HIGH, then CFG. -/
def cmpBnd : Nat → Nat
  | 0 => 2700 * 65536 | 1 => 2700 * 65536 | 2 => 1700 * 65536 | 3 => 2000 * 65536 | _ => 0

/-- See `cmpBnd`: ENABLE, ACTION, CHANNEL, STRETCH and HYST. -/
def cmpCfg : Nat → Nat
  | 0 => 2 ^ 31 + 2 ^ 30 + 40 * 2 ^ 22 + 20 * 256 + 40
  | 1 => 2 ^ 31 + 2 ^ 30 + 41 * 2 ^ 22 + 20 * 256 + 40
  | 2 => 2 ^ 31 + 42 * 2 ^ 22 + 40
  | 3 => 2 ^ 31 + 43 * 2 ^ 22 + 40
  | _ => 0

/-- The reset value of the fields of a register that Table rows give as a number. -/
def fieldsReset (fs : List FieldRow) : Nat := fs.foldl (fun n f => n + f.reset * 2 ^ f.lo) 0

/-- What the reset value takes from the register's own index or from a record. -/
def Reg.resetExtra (r : Reg) : Nat :=
  match r.kind with
  | .tileId => 128 + r.i
  | .cqState => 1
  | .cadCfg => 16 * 256 + 40
  | .glbTmapCur => mapEntry 4 r.k
  | .netSeam => 16 * 256
  | .netCred => let c := credDepth r.i r.k; c * 0x1000000 + c * 0x10000 + c * 0x100 + c
  | .portCred => poolSize r.k * 65536
  | .mbxCfg => if r.k < 8 then 2 ^ 31 else 0
  | .glbReserve => 2 * 256 + 2
  | .hkMask => if r.k = 0 then 0xFFFFFFFF else 0xFFF
  | .hkCmpBnd => cmpBnd r.k
  | .hkCmpCfg => cmpCfg r.k
  | .partCfg => if r.i = 0 then 2 ^ 30 else 0
  | .secStatus => 4
  | _ => 0

/-- What a register holds at reset. -/
def Reg.resetWord (r : Reg) : Word :=
  BitVec.ofNat 32 (fieldsReset r.kind.fields + r.resetExtra)

/-- What an unlisted address reads as. -/
def regDefault (a : Nat) : Word :=
  match Reg.ofAddr a with
  | some r => r.resetWord
  | none => 0

end Sys2Proof.Machine
end

