-- ==== Sys2Proof/Machine/Ops.lean ====
section
/-! DEFINITION. The operations that the commands share: registers and their fields, the units of the state, ownership, the event
log, replies, messages, interrupts, counters, HBM4 bytes, and the Cleared-by letters. -/

namespace Sys2Proof.Machine

/-! ## Bits of a word -/

/-- Bits hi to lo of a word. -/
def bitsOf (w : Word) (hi lo : Nat) : Nat := w.toNat / 2 ^ lo % 2 ^ (hi + 1 - lo)

/-- The word with its bits hi to lo set to v. -/
def withBits (w : Word) (hi lo v : Nat) : Word :=
  BitVec.ofNat 32 (w.toNat / 2 ^ (hi + 1) * 2 ^ (hi + 1) + v % 2 ^ (hi + 1 - lo) * 2 ^ lo + w.toNat % 2 ^ lo)

/-- A truth value as a bit. -/
def bit (b : Bool) : Nat := if b then 1 else 0

/-! ## Registers -/

/-- What a register holds. -/
def State.getR (s : State) (r : Reg) : Word := Sparse.get regDefault s.regs r.addr

/-- Put a word into a register. -/
def State.setR (s : State) (r : Reg) (w : Word) : State :=
  { s with regs := Sparse.set regDefault s.regs r.addr w }

/-- What a field holds. -/
def State.getF (s : State) (f : FieldRef) : Nat := bitsOf (s.getR f.reg) f.hi f.lo

/-- Put a number into a field. -/
def State.setF (s : State) (f : FieldRef) (v : Nat) : State :=
  s.setR f.reg (withBits (s.getR f.reg) f.hi f.lo v)

/-- A one-bit field is 1. -/
def State.flag (s : State) (f : FieldRef) : Bool := s.getF f = 1

/-- Put a truth value into a one-bit field. -/
def State.setFlag (s : State) (f : FieldRef) (b : Bool) : State := s.setF f (bit b)

/-- Add n to a field that wraps. -/
def State.addF (s : State) (f : FieldRef) (n : Nat) : State := s.setF f (s.getF f + n)

/-- Add n to a field that stops at its largest value. -/
def State.satF (s : State) (f : FieldRef) (n : Nat) : State :=
  s.setF f (min (s.getF f + n) (2 ^ (f.hi + 1 - f.lo) - 1))

/-! ## Units -/

/-- Array a of tile t. -/
def State.arr (s : State) (t a : Nat) : ArrSt := Sparse.get (fun _ => {}) s.arrays (128 * t + a)
/-- Replace array a of tile t. -/
def State.setArr (s : State) (t a : Nat) (x : ArrSt) : State :=
  { s with arrays := Sparse.set (fun _ => {}) s.arrays (128 * t + a) x }
/-- Tile t. -/
def State.tile (s : State) (t : Nat) : TileSt := Sparse.get (fun _ => {}) s.tiles t
/-- Replace tile t. -/
def State.setTile (s : State) (t : Nat) (x : TileSt) : State :=
  { s with tiles := Sparse.set (fun _ => {}) s.tiles t x }
/-- Router t, or hub 96 or 97. -/
def State.router (s : State) (t : Nat) : RouterSt := Sparse.get (fun _ => {}) s.routers t
/-- Replace a router. -/
def State.setRouter (s : State) (t : Nat) (x : RouterSt) : State :=
  { s with routers := Sparse.set (fun _ => {}) s.routers t x }
/-- Port p. -/
def State.port (s : State) (p : Nat) : PortSt := Sparse.get (fun _ => {}) s.ports p
/-- Replace port p. -/
def State.setPort (s : State) (p : Nat) (x : PortSt) : State :=
  { s with ports := Sparse.set (fun _ => {}) s.ports p x }
/-- Partition n. -/
def State.prt (s : State) (n : Nat) : PartSt := Sparse.get (fun _ => {}) s.parts n
/-- Replace partition n. -/
def State.setPrt (s : State) (n : Nat) (x : PartSt) : State :=
  { s with parts := Sparse.set (fun _ => {}) s.parts n x }

/-- Change one unit. -/
def State.modArr (s : State) (t a : Nat) (f : ArrSt → ArrSt) : State := s.setArr t a (f (s.arr t a))
/-- See `State.modArr`. -/
def State.modTile (s : State) (t : Nat) (f : TileSt → TileSt) : State := s.setTile t (f (s.tile t))
/-- See `State.modArr`. -/
def State.modPort (s : State) (p : Nat) (f : PortSt → PortSt) : State := s.setPort p (f (s.port p))
/-- See `State.modArr`. -/
def State.modPrt (s : State) (n : Nat) (f : PartSt → PartSt) : State := s.setPrt n (f (s.prt n))
/-- See `State.modArr`. -/
def State.modRouter (s : State) (n : Nat) (f : RouterSt → RouterSt) : State := s.setRouter n (f (s.router n))

/-- Do f for every element, in order. -/
def State.each {α : Type} (s : State) (l : List α) (f : State → α → State) : State := l.foldl f s

/-- Do f when b holds. -/
def State.when (s : State) (b : Bool) (f : State → State) : State := if b then f s else s

/-- Arrays named by a mask, in ascending order. -/
def maskArrays (mask : BitVec 128) : List Nat := (List.range 128).filter (fun a => mask.getLsbD a)

/-- Take a fresh free value's number. -/
def State.fresh (s : State) : State := { s with free := s.free + 1 }

/-- Count n free values. -/
def State.freshN (s : State) (n : Nat) : State := { s with free := s.free + n }

/-! ## The module's shape, cadence and windows -/

/-- The half of a tile: 0 West, 1 East (R8). -/
def halfOf (t : Nat) : Nat := if t < 48 then 0 else 1

/-- The configuration record marks the tile bad, or the tile has been retired and the map has moved on (R3, R364). -/
def State.absent (s : State) (t : Nat) : Bool := !s.flag (F.tileIdPresent t)

/-- The domain of power switching that holds a register's block (Table 14.1), if one does. -/
def domainOf (r : Reg) : Option Nat :=
  match r.kind.geom.block with
  | .tile => some (r.i / 2)
  | .port => some (48 + r.i)
  | .sec => some 70
  | .bar => some 71
  | _ => none

/-- A power domain is on. -/
def State.domOn (s : State) (k : Nat) : Bool := s.getF (F.pwrDomState k) = 2

/-- The tile runs: its domain is on and it is present. -/
def State.tileOn (s : State) (t : Nat) : Bool := s.domOn (t / 2) && !s.absent t

/-- The length L of a window in beats (R162, CAD_CFG.WINDOW). -/
def State.winLen (s : State) : Nat := 256 * max 1 (s.getF F.cadCfgWindow)

/-- The window of a beat, and the current one. -/
def State.winOf (s : State) (b : Nat) : Nat := b / s.winLen
/-- See `State.winOf`. -/
def State.win (s : State) : Nat := s.winOf s.cad.beat.toNat

/-- The cadence is locked (R155). -/
def State.locked (s : State) : Bool := s.flag F.cadCfgLocked

/-- This module's slot (R241). -/
def State.slot (s : State) : Nat := s.getF F.pwrSlotSlot

/-- The slot whose placements this module holds: its own, or that of the failed module whose place it has taken (R371). -/
def State.placeSlot (s : State) : Nat := s.pwr.serves.getD s.slot

/-- The slot entry of a slot in the topology table in force (Table 8.5). -/
def State.slotEntry (s : State) (n : Nat) : SlotEntry :=
  ((s.firn.topo.slots).find? (fun e => e.slot = n)).getD { slot := n }

/-- This module's slot entry; a module that stands for a failed one has that one's roles and buddy relation (R371). -/
def State.me (s : State) : SlotEntry :=
  let e := s.slotEntry s.slot
  match s.pwr.serves with
  | none => e
  | some f =>
    let x := s.slotEntry f
    { e with master := x.master, standbyMaster := x.standbyMaster, bridge := x.bridge && e.pcieWired, standby := false, buddy := x.buddy }

/-- The slots of the topology table that hold a module, this one aside. -/
def State.others (s : State) : List Nat :=
  ((s.firn.topo.slots).filter (fun e => e.present && e.slot ≠ s.slot)).map (·.slot)

/-- The bridge of this module's group, and its standby module. -/
def State.bridgeSlot (s : State) : Nat :=
  (((s.firn.topo.slots).find? (fun e => e.bridge && e.group = s.me.group)).map (·.slot)).getD s.slot
/-- See `State.bridgeSlot`. -/
def State.standbySlot (s : State) : Option Nat :=
  ((s.firn.topo.slots).find? (fun e => e.standby && e.group = s.me.group)).map (·.slot)

/-! ## Ownership (R332, R186) -/

/-- The physical tile of logical tile k (R186). No program addresses a tile that the record marks bad (R3), so an entry that names one
gives none. -/
def State.phys (s : State) (k : Nat) : Option Nat :=
  if k < 96 ∧ s.flag (F.glbTmapCurValid k) ∧ s.firn.cfg.bad.contains (s.getF (F.glbTmapCurPhys k)) = false then
    some (s.getF (F.glbTmapCurPhys k))
  else none

/-- The logical tile that a physical tile serves. -/
def State.logical (s : State) (t : Nat) : Option Nat := (List.range 96).find? (fun k => s.phys k = some t)

/-- Partition n owns logical tile k. -/
def State.ownsLogical (s : State) (n k : Nat) : Bool :=
  n ≠ 0 && k < 96 && (s.getR (R.partTiles n (k / 32))).getLsbD (k % 32)

/-- The partition that owns a physical tile: a tile that no tenant partition owns belongs to partition 0. -/
def State.ownerOf (s : State) (t : Nat) : Nat :=
  match s.logical t with
  | none => 0
  | some k => ((List.range 16).find? (fun n => s.ownsLogical n k)).getD 0

/-- The physical tiles of a partition. -/
def State.tilesOf (s : State) (n : Nat) : List Nat := (List.range 96).filter (fun t => s.ownerOf t = n)

/-- A partition exists. -/
def State.partState (s : State) (n : Nat) : Nat := s.getF (F.partCfgState n)

/-- The tenant of a partition. -/
def State.tenantOf (s : State) (n : Nat) : Nat := s.getF (F.partCfgTenant n)

/-- The partition's program state (PART_PROG_STATUS.STATE): 0 none, 1 loaded, 2 running, 3 stopping. -/
def State.progState (s : State) (n : Nat) : Nat := s.getF (F.partProgStatusState n)

/-- A program of the partition is running (or stopping, R190). -/
def State.running (s : State) (n : Nat) : Bool := 2 ≤ s.progState n

/-- A partition runs an image with the COMPAT flag (R171, R215). -/
def State.compat (s : State) (n : Nat) : Bool := s.running n && (s.prt n).prog.any (·.compat)

/-- A program of some partition is running. -/
def State.anyRunning (s : State) : Bool := (List.range 16).any s.running

/-! ## The event log (R375 to R378) -/

/-- The unit numbers of SOURCE (Table 13.6): tile t's unit u; the endpoint itself is 0xFF. -/
def srcTile (t u : Nat) : Nat := t * 256 + u
/-- The control complex, the housekeeping island, port p, HBM4 controller c and the security block as SOURCE. -/
def srcCtl : Nat := 0x72FF
/-- See `srcCtl`. -/
def srcHk : Nat := 0x75FF
/-- See `srcCtl`. -/
def srcPort (p : Nat) : Nat := (0x60 + p) * 256 + 0xFF
/-- See `srcCtl`. -/
def srcHbm (c : Nat) : Nat := (0x70 + c) * 256 + 0xFF
/-- See `srcCtl`. -/
def srcSec : Nat := 0x73FF
/-- See `srcCtl`. -/
def srcBridge : Nat := 0x74FF

/-- Supply-caused: a supply warning or its hold is in force (R359, R365). -/
def State.supplyActive (s : State) : Bool := s.flag F.supStatusWarn || s.flag F.supStatusHold

/-- Fold a report into the summary table (R378): into the entry of its SOURCE and CODE, else into a free one. -/
def foldSummary (e : Entry) (now : BitVec 64) : List Summary → Option (List Summary)
  | [] => none
  | x :: xs =>
    if x.first.source = e.source ∧ x.first.code = e.code then
      some ({ x with count := min (x.count + 1) 0xFFFFFFFF, last := now } :: xs)
    else (foldSummary e now xs).map (x :: ·)

/-- The log keeps a report (R377, R378): in the ingest queue while it holds fewer than 256; otherwise a no-fold report is lost,
and any other folds into the summary table, takes a free summary entry, or is lost. -/
def State.ingest (s : State) (e : Entry) : State :=
  if s.log.ingest.length < 256 then { s with log := { s.log with ingest := s.log.ingest ++ [e] } }
  else if e.flags / 4 % 2 = 1 then s.addF F.logLostLost 1
  else
    match foldSummary e s.cad.beat s.log.summary with
    | some l => { s with log := { s.log with summary := l } }
    | none =>
      if s.log.summary.length < 1024 then
        { s with log := { s.log with summary := s.log.summary ++ [⟨e, 1, s.cad.beat⟩] } }
      else s.addF F.logLostLost 1

/-- The recovered internal events 0x0Fxx, by code (Table 10.3, QUERY item 5). -/
def State.countCode (s : State) (code : Nat) : State :=
  if code / 256 = 0x0F then
    { s with log := { s.log with
        counts := Sparse.set (fun _ => 0) s.log.counts code (Sparse.get (fun _ => 0) s.log.counts code + 1) } }
  else s

/-- Report an event to the log: source, code, partition (0xFF none), FLAGS bits beyond supply-caused, request tag, DETAIL. -/
def State.report (s : State) (source code part flags tag detail : Nat) : State :=
  (s.countCode code).ingest
    { beat := s.cad.beat, subns := Config.subns s.cad.beat.toNat, source := source, code := code, part := part,
      flags := if s.supplyActive && flags / 2 % 2 = 0 then flags + 2 else flags, tag := tag, detail := BitVec.ofNat 64 detail }

/-- Report an event that no supply warning marks: source, code, partition, DETAIL. -/
def State.logEv (s : State) (source code part detail : Nat) : State := s.report source code part 0 0 detail

/-- DETAIL that holds several items (see `Config.detailBits`). -/
def detail (code : Nat) (items : List Nat) : Nat := (Config.detailBits code items).toNat

/-- The 0x14xx code of an access or configuration event: 0 HBM4 access suppressed, 1 PWR_DOM write refused, 2 tile store access
suppressed, 3 prefetcher descriptor refused, 4 endpoint or partition discard, 5 register or sync write refused, 6 link discard,
7 unknown message, 8 calibration or canary mismatch, 9 counter configuration refused, 10 refused tile core operation, 11 chunk or
check mismatch, 12 operand record invalid, 13 interrupt discarded, 14 domain event,
15 reduction saturated, 16 late request (R313 names no code). -/
def code14 (kind : Nat) : Nat := 0x1400 + (Config.code14 kind).toNat

/-- Report an event of a tile's unit for the partition that owns the tile. -/
def State.logTile (s : State) (t u code detail : Nat) : State :=
  s.report (srcTile t u) code (s.ownerOf t) 0 0 detail

/-- Report an event of a tile's unit at most once a window for all that shares the number `u'` (R47, R130). -/
def State.logTileOnceAs (s : State) (t u' u code detail : Nat) : State :=
  if (s.tile t).logged.contains (code * 256 + u') then s
  else (s.modTile t (fun x => { x with logged := (code * 256 + u') :: x.logged })).logTile t u code detail

/-- Report an event of a tile's unit at most once a window. -/
def State.logTileOnce (s : State) (t u code detail : Nat) : State := s.logTileOnceAs t u u code detail

/-! ## Messages -/

/-- The slot that traffic for a slot goes to (R371). -/
def State.redirect (s : State) (d : Nat) : Nat :=
  match (List.range 8).find? (fun k => s.flag (F.glbRedirectValid k) && s.getF (F.glbRedirectFrom k) = d) with
  | some k => s.getF (F.glbRedirectTo k)
  | none => d

/-- Hand a message to the ports (R223, R371). -/
def State.sendMsg (s : State) (m : LinkMsg) : State := { s with linkOut := s.linkOut ++ [{ m with dest := s.redirect m.dest }] }

/-- A management message, of class 7 (R255, Table 8.11): destination slot, subtype, payload. -/
def State.sendMgmt (s : State) (dest subtype : Nat) (payload : Bytes) : State :=
  s.sendMsg { cls := 7, dest := dest, stream := subtype, payload := payload }

/-- A management message to every other module of a list of slots. -/
def State.sendMgmtAll (s : State) (dests : List Nat) (subtype : Nat) (payload : Bytes) : State :=
  s.each (dests.filter (· ≠ s.slot)) (fun s d => s.sendMgmt d subtype payload)

/-- Word 0 of a rime message (R213): TYPE, DEST, SRC, PART and LEN, the number of further words. -/
def RimeMsg.word0 (m : RimeMsg) : Word :=
  BitVec.ofNat 32 (m.type % 64 * 2 ^ 26 + m.dest % 256 * 2 ^ 18 + m.src % 256 * 2 ^ 10 + m.part % 16 * 2 ^ 6 + m.words.length % 4 * 2 ^ 4)

/-- The words of a message on a link, each with its parity bit (R213). -/
def RimeMsg.onLink (m : RimeMsg) : List (Word × Bool) :=
  (m.word0 :: m.words).map (fun w => (w, (List.range 32).foldl (fun b i => xor b (w.getLsbD i)) false))

/-- The order in which a link serves waiting messages (R214): reset, cadence, freeze and snapshot, fault and late, synchronisation. -/
def rimeRank (type : Nat) : Nat :=
  if 0x08 ≤ type ∧ type ≤ 0x0A then 0
  else if type = 0x18 ∨ type = 0x19 then 1
  else if type ≤ 0x03 then 2
  else if type = 0x10 ∨ type = 0x11 then 3
  else 4

/-- A message joins those that wait for the link, behind its own kind. -/
def rimeQueue (l : List RimeMsg) (m : RimeMsg) : List RimeMsg :=
  l.takeWhile (fun x => rimeRank x.type ≤ rimeRank m.type) ++ m :: l.dropWhile (fun x => rimeRank x.type ≤ rimeRank m.type)

/-- A rime message (R213). -/
def State.sendRime (s : State) (type dest src part : Nat) (words : List Word) : State :=
  { s with rimeOut := rimeQueue s.rimeOut ⟨type, dest, src, part, words⟩ }

/-- A beat of the rime link: the first message leaves, its words together, or a word of it has failed its parity and is sent again on its
hop; which of the two is free (R213, R214). -/
def State.rimeBeat (s : State) : State :=
  match s.rimeOut with
  | [] => s
  | _ :: rest =>
    if Config.freeNat s.free % 2 = 1 then (s.addF F.rimeStatusReplays 1).fresh else { s with rimeOut := rest }.fresh

/-- The next beat that is a valid apply beat (R214). -/
def State.applyAhead (s : State) : Nat := s.cad.beat.toNat + 128

/-- A rime message with an apply beat, which every node of the module keeps until that beat (R214). -/
def State.broadcastAt (s : State) (type part dest : Nat) (b : Nat) : State :=
  { s with
    rimeOut := rimeQueue s.rimeOut ⟨type, dest, 0x72, part, [BitVec.ofNat 32 b, BitVec.ofNat 32 (b / 2 ^ 32)]⟩
    rime := s.rime ++ [(BitVec.ofNat 64 b, ⟨type, dest, 0x72, part, []⟩)] }

/-- The modules that hold partition n: those its manifest's shards and placements name, and this one. -/
def State.modulesOf (s : State) (n : Nat) : List Nat :=
  let m : Option Manifest := (s.prt n).wgt.resident.man <|> (s.prt n).wgt.manifest
  let l := match m with
    | none => []
    | some m => m.places.map (fun p : Place => s.redirect p.slot)
  (l.filter (fun d => d ≠ s.slot && d ≠ s.placeSlot)).eraseDups

/-! ## Interrupts (R343, R344) -/

/-- The vector of a source class of a partition (PART_IRQ_ROUTE). -/
def State.irqVector (s : State) (n cls : Nat) : Nat := bitsOf (s.getR (R.partIrqRoute n)) (4 * cls + 3) (4 * cls)

/-- Send IRQ_RAISE for vector v with the classes collected (R344), and start again from 0. -/
def State.irqSend (s : State) (n v : Nat) (classes : Nat) : State :=
  (s.sendMgmt s.bridgeSlot 0x0020
      (leBytes 1 (s.tenantOf n) ++ leBytes 1 n ++ leBytes 1 v ++ leBytes 1 classes)).modPrt n
    (fun x => { x with irq := Sparse.set (fun _ => {}) x.irq v {} })

/-- An interrupt event of class cls of partition n (R344): from the apply beat of a partition reset to its end events are
neither counted nor raised (R346); RESET_DONE (4) is never coalesced. -/
def State.irq (s : State) (n cls : Nat) : State :=
  if (s.prt n).irqOff && cls ≠ 4 then s
  else
    let v := s.irqVector n cls
    if cls = 4 then
      s.sendMgmt s.bridgeSlot 0x0020 (leBytes 1 (s.tenantOf n) ++ leBytes 1 n ++ leBytes 1 v ++ leBytes 1 (2 ^ cls))
    else
      let q := Sparse.get (fun _ => {}) (s.prt n).irq v
      let count := q.count + 1
      let classes := q.classes ||| 2 ^ cls
      if max 1 (s.getF (F.partIrqCfgCount n v)) ≤ count then s.irqSend n v classes
      else s.modPrt n (fun x => { x with
        irq := Sparse.set (fun _ => {}) x.irq v { count := count, classes := classes, timer := 0 < s.getF (F.partIrqCfgTimeUs n v) } })

/-! ## Replies (R292 to R294) -/

/-- Status codes (Table 10.3). -/
def stOK : Nat := 0x0000
/-- See `stOK`. -/
def stBadOpcode : Nat := 0x0101
/-- See `stOK`. -/
def stBadParam : Nat := 0x0102
/-- See `stOK`. -/
def stNoResource : Nat := 0x0103
/-- See `stOK`. -/
def stNotPermitted : Nat := 0x0104
/-- See `stOK`. -/
def stWrongState : Nat := 0x0105
/-- See `stOK`. -/
def stDigest : Nat := 0x0201
/-- See `stOK`. -/
def stSignature : Nat := 0x0202
/-- See `stOK`. -/
def stShardMissing : Nat := 0x0203
/-- See `stOK`. -/
def stCancelled : Nat := 0x0301
/-- See `stOK`. -/
def stHeld : Nat := 0x0302

/-- Send a reply (Table 10.2). -/
def State.reply (s : State) (to_ : Sender) (tag : BitVec 32) (status detail : Nat) (payload : Bytes) : State :=
  { s with replies := s.replies ++ [⟨to_, tag, status, s.slot, detail, payload⟩] }

/-! ## Counters (R453, R454, R456) -/

/-- A counter's value by the address of its LO register. -/
def State.ctrGet (s : State) (lo : Nat) : BitVec 64 := Sparse.get (fun _ => 0) s.ctr lo
/-- Replace it. -/
def State.ctrSet (s : State) (lo : Nat) (v : Nat) : State :=
  { s with ctr := Sparse.set (fun _ => 0) s.ctr lo (BitVec.ofNat 64 v) }

/-- Counters are frozen (R462). -/
def State.frozen (s : State) : Bool := s.flag F.ctrSnapCauseFrozen

/-- Service mode (R453). -/
def State.service (s : State) : Bool := s.getF F.ctrCtrlMode = 0

/-- The low 48 bits of a counter's word. -/
def pcLow (v : BitVec 64) : Nat := v.toNat % 2 ^ 48

/-- Add n to programmable counter k of tile t (R454). -/
def State.pcAdd (s : State) (t k n : Nat) : State :=
  let lo := (R.ctrPcLo t k).addr
  let v := pcLow (s.ctrGet lo) + n
  if v < 2 ^ 48 then s.ctrSet lo v
  else if s.service then
    let hi := (R.ctrPcLo t (k + 1)).addr
    (s.ctrSet lo (v - 2 ^ 48)).ctrSet hi (pcLow (s.ctrGet hi) + 1)
  else (s.ctrSet lo (v - 2 ^ 48)).setR (R.ctrTileStatus t) (s.getR (R.ctrTileStatus t) ||| BitVec.ofNat 32 (2 ^ k))

/-- Does configuration word `cfg` count an event: code, the array, prefetcher or queue it concerns, its layer slot (R456). -/
def evMatch (cfg : Word) (code sel : Nat) (ls : Option Nat) : Bool :=
  bitsOf cfg 11 0 = code && code ≠ 0 &&
  (bitsOf cfg 19 12 = 0xFF || bitsOf cfg 19 12 = sel) &&
  (!cfg.getLsbD 26 || ls = some (bitsOf cfg 25 20))

/-- n events of a code in tile t (R456): every programmable counter set to it counts, unless counters are frozen; in service
mode only the even counters have effect. -/
def State.count (s : State) (t code sel : Nat) (ls : Option Nat) (n : Nat) : State :=
  if s.frozen then s
  else
    ((List.range 16).filter (fun k =>
        (!s.service || k % 2 = 0) && evMatch (s.getR (R.ctrPcCfg t k)) code sel ls)).foldl
      (fun s k => s.pcAdd t k n) s

/-- Add n to a fixed counter (R454): in service mode COUNT carries into EXT; otherwise COUNT wraps at 2^48 and the OVF bit of
its block is set by `ovf`. -/
def State.fixAdd (s : State) (lo n : Nat) (ovf : State → State) : State :=
  let v := (s.ctrGet lo).toNat + n
  if s.service then s.ctrSet lo v
  else if v < 2 ^ 48 then s.ctrSet lo v
  else ovf (s.ctrSet lo (v % 2 ^ 48))

/-- Add n to class j of unit u of tile t (R458, R460): retired 0, wasted 1, front 2, back 3, elastic 4. -/
def State.tdAdd (s : State) (t u j n : Nat) : State :=
  if s.frozen || n = 0 then s
  else s.fixAdd (R.ctrTdLo t u j).addr n (fun s => s.setFlag (F.ctrTileStatusTdOvf t) true)

/-- n elastic beats of unit u (0 ARR, 1 DE, 2 VU, 3 to 6 TC, 7 MOV, 8 NET, 9 SYN, 10 CHK) of tile t (R460). -/
def State.elastic (s : State) (t u n : Nat) : State := s.tdAdd t u 4 n

/-! ## HBM4 (R16, R341) -/

/-- The size of the module's HBM4 space. -/
def hbmSize : Nat := 96000000000

/-- A byte of HBM4. -/
def State.hbmByte (s : State) (a : Nat) : Byte := Sparse.get (fun _ => 0) s.hbm a

/-- n bytes of HBM4 from a. -/
def State.hbmRead (s : State) (a n : Nat) : Bytes := (List.range n).map (fun j => s.hbmByte (a + j))

/-- Write bytes from a. -/
def State.hbmWrite (s : State) (a : Nat) (bs : Bytes) : State :=
  { s with hbm := Sparse.setRange (fun _ => 0) s.hbm a bs.length (fun j => bs.getD j 0) }

/-- Zero the bytes from a to a + n - 1. -/
def State.hbmZero (s : State) (a n : Nat) : State :=
  { s with hbm := s.hbm.filter (fun e => e.1 < a || a + n ≤ e.1) }

/-- The regions of a partition (PART_HBM_W, PART_HBM_E): base and length in bytes. -/
def State.hbmRegions (s : State) (n : Nat) : List (Nat × Nat) :=
  [(s.getF (F.partHbmBase n 0) * 0x1000000, s.getF (F.partHbmLen n 0) * 0x1000000),
   (48000000000 + s.getF (F.partHbmBase n 1) * 0x1000000, s.getF (F.partHbmLen n 1) * 0x1000000)]

/-- The n bytes from a lie inside one region of partition p; accesses of partition 0 are not checked (R341), and reach the bytes that
there are (R16). -/
def State.hbmOwns (s : State) (p a n : Nat) : Bool :=
  if p = 0 then a + n ≤ hbmSize else (s.hbmRegions p).any (fun r => r.1 ≤ a && a + n ≤ r.1 + r.2)

/-- Count and log an access of a tenant partition that a controller suppressed (R341), once a window; NET_STATUS.BAD_DEST is set (R211). One of partition 0 is to bytes
that do not exist: nothing is counted (log entry 72). -/
def State.hbmDenied (s : State) (p a : Nat) : State :=
  let s := s.when (p ≠ 0) (fun s => (s.addF (F.partIsoHbm p) 1).setFlag F.netStatusBadDest true)
  if p = 0 || (s.prt p).isoLogged then s
  else (s.modPrt p (fun x => { x with isoLogged := true })).logEv (srcHbm (if a < 48000000000 then 0 else 1)) (code14 0) p a

/-! ## Reset letters (R12) -/

/-- Bits of a word set to those of `r`, for the fields of a list that carry the letter. -/
def clearFields (fs : List FieldRow) (l : Letter) (r w : Word) : Word :=
  fs.foldl (fun w f => if f.cleared.contains l then withBits w f.hi f.lo (bitsOf r f.hi f.lo) else w) w

/-- Return to reset every field that carries letter l, of the registers that `scope` accepts (R12). -/
def State.clearBy (s : State) (l : Letter) (scope : Reg → Bool) : State :=
  { s with regs := Sparse.mapAll regDefault s.regs (fun a w =>
      match Reg.ofAddr a with
      | some r => if scope r then clearFields r.kind.fields l r.resetWord w else w
      | none => w) }

/-- Clear the values of the counters whose LO address `scope` accepts (R453: values are cleared by the letters of their LO
registers). -/
def State.clearCtr (s : State) (scope : Nat → Bool) : State := { s with ctr := s.ctr.filter (fun e => !scope e.1) }

end Sys2Proof.Machine
end

