-- ==== Sys2Proof/Machine/Island.lean ====
section
/-! DEFINITION. The housekeeping island's shared operations: NV records, the local stretch request, power domains, the
indicators, and what a module that fails says to its masters (chapters 13 to 15). -/

namespace Sys2Proof.Machine

/-! ## NV records (R382) -/

/-- A log entry as bytes (Table 13.6). -/
def Entry.bytes (e : Entry) : Bytes :=
  leBytes 8 e.beat.toNat ++ leBytes 4 e.subns ++ leBytes 2 e.source ++ leBytes 2 e.code ++ leBytes 1 e.part ++
  leBytes 1 e.flags ++ leBytes 2 e.seq.toNat ++ leBytes 4 e.tag ++ leBytes 8 e.detail.toNat

/-- A log entry from its bytes. -/
def entryOf (b : Bytes) : Entry where
  beat := BitVec.ofNat 64 (fieldAt b 0 8)
  subns := fieldAt b 8 4
  source := fieldAt b 12 2
  code := fieldAt b 14 2
  part := fieldAt b 16 1
  flags := fieldAt b 17 1
  seq := BitVec.ofNat 16 (fieldAt b 18 2)
  tag := fieldAt b 20 4
  detail := BitVec.ofNat 64 (fieldAt b 24 8)

/-- The bytes of an NV record before its CRC (Table 13.8). -/
def State.nvBody (s : State) (kind value sensor : Nat) : Bytes :=
  leBytes 4 0x44564E56 ++ leBytes 4 s.firn.nvSeq ++ leBytes 1 kind ++ leBytes 3 0 ++
  leBytes 4 (Config.subns s.cad.beat.toNat) ++ leBytes 8 s.cad.beat.toNat ++ leBytes 4 value ++ leBytes 2 sensor ++ leBytes 2 0 ++
  leBytes 4 (s.getF F.logLostLost) ++ leBytes 28 0 ++
  (match s.log.lastWritten with | some e => e.bytes | none => leBytes 32 0) ++ leBytes 28 0

/-- Write an NV record of a kind: it takes the place of the oldest of 4,096 (R382). -/
def State.nvRecord (s : State) (kind value sensor : Nat) : State :=
  let b := s.nvBody kind value sensor
  { s with firn := { s.firn with
      nv := Sparse.set (fun _ => []) s.firn.nv (s.firn.nvSeq % 4096) (b ++ leBytes 4 (crc32 b).toNat)
      nvSeq := s.firn.nvSeq + 1 } }

/-- An NV record as NV_READ returns it: one whose CRC fails is zeros (R382). -/
def nvChecked (b : Bytes) : Bytes :=
  if b.length = 128 ∧ fieldAt b 124 4 = (crc32 (b.take 124)).toNat then b else leBytes 128 0

/-! ## Topology and masters -/

/-- A key of the firn key area whose USAGE has the bits of `use`. -/
def State.opKeyFor (s : State) (id use : Nat) : Option OpKey :=
  s.firn.opKeys.find? (fun k => k.id = id && k.usage &&& use = use)

/-- An operator key of USAGE bit 0 verifies the table's signature (R240). -/
def State.topoSigned (s : State) (bs : Bytes) : Bool :=
  let n := bs.length - 132
  s.firn.opKeys.any (fun k => k.usage % 2 = 1 && Config.verify k.key (bs.take n) (bs.drop n))

/-- The topology table in force is signed and has an entry for this slot, and no table has failed since (R240, R241). -/
def State.topoOk (s : State) : Bool :=
  s.cad.topoFault.isNone && s.topoSigned s.firn.topo.bytes && s.firn.topo.slots.any (fun e => e.slot = s.slot)

/-- The masters of the domain. -/
def State.masters (s : State) : List Nat := [s.firn.topo.master, s.firn.topo.standbyMaster].eraseDups

/-- A port is up. -/
def State.portUp (s : State) (p : Nat) : Bool := s.getF (F.portStatusState p) = 3

/-- Some port is up. -/
def State.anyPortUp (s : State) : Bool := (List.range 16).any s.portUp

/-- The module holds a slot role, or a partition with a running program, in a locked-cadence domain (R417, R448). -/
def State.servesDomain (s : State) : Bool :=
  s.locked && (s.me.master || s.me.standbyMaster || s.me.bridge || s.me.standby || s.anyRunning)

/-- Report itself failed to both masters (FAILED, Table 8.11), through a port that is up. -/
def State.sendFailed (s : State) (cause : Nat) : State :=
  if s.anyPortUp then
    s.sendMgmtAll s.masters 0x0905
      (leBytes 2 (Config.failCause cause).toNat ++ leBytes 2 0 ++ leBytes 8 s.cad.beat.toNat)
  else s

/-- The indicators and the READY contact (Table 15.5). -/
def State.indicate (s : State) (ready attn : Nat) (closed : Bool) : State :=
  ((s.setF F.pwrSlotRdy ready).setF F.pwrSlotAttn attn).setFlag F.pwrSlotReadyOut closed

/-- The attention indicator with no removal under way (Table 15.5): on while the module is failed, and while debug is open (R450). -/
def State.attn (s : State) : Nat := bit (s.pwr.failedModule || s.flag F.secDbgOpen)

/-- The module is failed (R370): it says so to its masters, logs 0x1202 and shows it (Table 15.5). -/
def State.failModule (s : State) (cause : Nat) : State :=
  (({ s with pwr := { s.pwr with failedModule := true } }.sendFailed cause).logEv srcCtl 0x1202 0xFF
    (detail 0x1202 [s.slot, (Config.failCause cause).toNat])).indicate 0 1 false

/-! ## Stretch requests (R245, R393) -/

/-- The largest stretch request the master holds (R245). -/
def CadSt.maxReq (c : CadSt) : Nat := c.reqs.foldl (fun m r => max m r.pct) 0

/-- The first multiple of 512 at least 1,024 beats after beat b (R245). -/
def stretchBeat (b : Nat) : Nat := (b + 1024 + 511) / 512 * 512

/-- The master keeps a slot's latest request; when the largest changes it announces the change (R245). -/
def State.masterTake (s : State) (slot pct : Nat) : State :=
  let old := s.cad.maxReq
  let c := { s.cad with reqs := ⟨slot, pct⟩ :: s.cad.reqs.filter (fun r => r.slot ≠ slot) }
  if c.maxReq = old then { s with cad := c }
  else ({ s with cad := { c with nextStretch := c.maxReq, stretchAt := some (stretchBeat s.cad.beat.toNat) } }).setFlag
    F.cadStretchPending true

/-- The stretch request of an enabled comparator with ACTION 1 outside its band (R409). -/
def State.cmpReq (s : State) (c : Nat) : Nat :=
  if s.flag (F.hkCmpCfgEnable c) && s.flag (F.hkCmpCfgAction c) && s.getF (F.hkCmpCfgState c) ≠ 0 then
    min 50 (s.getF (F.hkCmpCfgStretch c))
  else 0

/-- The module's local request (R393): the largest of the thermal, supply and comparator requests. -/
def State.localReq (s : State) : Nat :=
  (List.range 16).foldl (fun m c => max m (s.cmpReq c)) (max (s.getF F.thmStatusReq) (s.getF F.supStatusReq))

/-- A master or the standby master holds a slot's latest request; the one that sends marks announces a change (R245, R246). -/
def State.keepReq (s : State) (slot pct : Nat) : State :=
  if s.cad.masterNow then s.masterTake slot pct
  else { s with cad := { s.cad with reqs := ⟨slot, pct⟩ :: s.cad.reqs.filter (fun r => r.slot ≠ slot) } }

/-- Send a REQ of a percentage to the masters (R245); one that is a master itself holds its own request. -/
def State.reqTo (s : State) (pct : Nat) : State :=
  let s := s.each (s.masters.filter (· ≠ s.slot)) (fun s d =>
    s.sendMsg { cls := 4, dest := d, stream := 1, payload := leBytes 1 pct ++ leBytes 7 0 ++ leBytes 8 s.cad.beat.toNat })
  if s.cad.masterNow || s.me.master || s.me.standbyMaster then s.keepReq s.slot pct else s

/-- Send a REQ of the local request (R245). -/
def State.sendReq (s : State) : State := s.reqTo s.localReq

/-- The local request may have changed: put it into CAD_STRETCH, send a REQ when it has in a locked domain (R245), and in free
cadence put it in force at once (R394). -/
def State.refreshReq (s : State) : State :=
  let r := s.localReq
  if s.getF F.cadStretchLocalReq = r then s
  else
    let s := s.setF F.cadStretchLocalReq r
    if s.locked then s.sendReq else s.setF F.cadStretchInForce r

/-! ## Rails, indicators and units -/

/-- Every unit stops at its current handshake, so that no value crosses a commit boundary. -/
def State.stopUnits (s : State) : State := { s with pwr := { s.pwr with stopped := true } }

/-- The core, array-analogue and SRAM rails turn off; a debug opening's erase stops, and goes on at the next start (R449). -/
def State.railsOff (s : State) : State := { s with pwr := { s.pwr with railsOn := false }, sec := { s.sec with erasing := none } }

/-- The SMB_ALERT_N pin is driven low: the attention indicator is on (R468). -/
def State.smbAlert (s : State) : Bool := s.getF F.pwrSlotAttn = 1

/-- The set point of a rail in quarter millivolts (R397): of the core rail, the lower of the old and the new one while the old
one is remembered. -/
def State.setPoint (s : State) (rail : Nat) : Nat :=
  match rail with
  | 0 =>
    let now := 2400 + 10 * s.getF F.cadAvsRail
    match s.pwr.oldSet with
    | some o => min now (2400 + 10 * o)
    | none => now
  | 1 => 4 * s.pwr.railArr
  | _ => 4 * s.pwr.railSram

/-! ## Power domains (R384 to R387) -/

/-- What a domain that is switched off loses: the arrays and engines of a tile pair, a port's state, the security block's RAM. -/
def State.domainLost (s : State) (k : Nat) : State :=
  if k < 48 then
    { s with
      arrays := s.arrays.filter (fun e => e.1 / 128 / 2 ≠ k)
      tiles := s.tiles.filter (fun e => e.1 / 2 ≠ k)
      routers := s.routers.filter (fun e => e.1 / 2 ≠ k ∨ 96 ≤ e.1) }.clearBy .o (fun r =>
        r.kind.geom.block = Block.tile && r.i / 2 = k)
  else if k < 64 then
    { s with ports := s.ports.filter (fun e => e.1 ≠ k - 48) }.clearBy .p (fun r => r.kind.geom.block = Block.port && r.i = k - 48)
  else if k = 70 then
    { s with sec := { s.sec with tenantKeys := [], manKeys := [], keyMsgs := [] } }.clearBy .m (fun r =>
        r.kind.geom.block = Block.sec)
  else if k = 71 then s.setFlag F.glbBridgeEnabled false
  else s

/-- A domain's mode becomes m, with what it loses when it goes off (R386). -/
def State.domainSet (s : State) (k m : Nat) : State :=
  let s := (s.setF (F.pwrDomState k) m).addF (F.pwrDomSwitches k) 1
  if m = 0 then s.domainLost k else s

/-- Start to switch domains from the waiting list, in ascending domain order, while fewer than four ramp (R386). -/
def startRamps : Nat → List (Nat × Nat) → List (Nat × Nat) → List (Nat × Nat) × List (Nat × Nat)
  | 0, ramp, wait => (ramp, wait)
  | n + 1, ramp, wait =>
    match wait with
    | [] => (ramp, [])
    | x :: xs => if ramp.length < 4 then startRamps n (ramp ++ [x]) xs else (ramp, wait)

/-- Insert a request in ascending domain order, in place of an earlier one of the same domain. -/
def insertDom (x : Nat × Nat) (l : List (Nat × Nat)) : List (Nat × Nat) :=
  let l := l.filter (fun y => y.1 ≠ x.1)
  l.filter (fun y => y.1 < x.1) ++ x :: l.filter (fun y => x.1 < y.1)

/-- Move waiting requests into the ramping set, and show the switching domains (R386). -/
def State.rampNext (s : State) : State :=
  let busy := s.pwr.domRamp.map Prod.fst
  let ready := s.pwr.domWait.filter (fun x => !busy.contains x.1)
  let held := s.pwr.domWait.filter (fun x => busy.contains x.1)
  let q := startRamps ready.length s.pwr.domRamp ready
  let s := { s with pwr := { s.pwr with domRamp := q.1, domWait := (q.2 ++ held).foldr insertDom [] } }
  (s.each q.1 (fun s x => s.setF (F.pwrDomState x.1) 3)).setF F.pwrStatusRamping q.1.length

/-- The mode a domain will have once its requests are served. -/
def State.domainGoal (s : State) (k : Nat) : Nat :=
  match (s.pwr.domWait.find? (fun x => x.1 = k)) <|> (s.pwr.domRamp.find? (fun x => x.1 = k)) with
  | some x => x.2
  | none => s.getF (F.pwrDomState k)

/-- A request for a domain's mode by firmware (R386, R387): a LOCKED domain, REQ 3, and retain of anything but a tile pair are
ignored, and so is any mode but off for the endpoint of a module that is no bridge (R15). -/
def State.domainReq (s : State) (k req : Nat) : State :=
  if s.flag (F.pwrDomLocked k) then s.logEv srcHk (code14 1) 0xFF k
  else if req = 3 ∨ (req = 1 ∧ 48 ≤ k) ∨ (k = 71 ∧ req ≠ 0 ∧ s.me.bridge = false) then s
  else
    let s := s.setF (F.pwrDomReq k) req
    if s.domainGoal k = req then s
    else { s with pwr := { s.pwr with domWait := insertDom (k, req) s.pwr.domWait } }.rampNext

/-- Switch a domain to a mode as part of a sequence of the module. -/
def State.domainForce (s : State) (k m : Nat) : State :=
  let s := s.setF (F.pwrDomReq k) m
  if s.getF (F.pwrDomState k) = m then s else s.domainSet k m

/-- Every switched domain goes off, and nothing ramps (R395, R425). -/
def State.allDomainsOff (s : State) : State :=
  let s := { s with pwr := { s.pwr with domRamp := [], domWait := [] } }.setF F.pwrStatusRamping 0
  s.each ((List.range 72).filter (fun k => s.getF (F.pwrDomState k) ≠ 0)) (fun s k => s.domainForce k 0)

/-- The bridge's endpoint comes up (R15, R254): speed and width are what the link trains to, which no rule fixes. -/
def State.bridgeOn (s : State) : State :=
  let k := s.free
  let s := (s.setFlag F.glbBridgeEnabled true).setF F.glbBridgeSpeed (1 + Config.freeNat k % 6)
  let s := s.setF F.glbBridgeWidth (if Config.freeNat (k + 1) % 2 = 0 then 8 else 16)
  { s with free := k + 2, bridge := { s.bridge with linkUp := true } }

end Sys2Proof.Machine
end

