-- ==== Sys2Proof/Machine/Host.lean ====
section
/-! DEFINITION. Command packets: the checks of R293 to R296, replies and their entries in the host's reply ring (R297, R298),
commands that stay outstanding (R294), and mailbox messages (R301 to R304). -/

namespace Sys2Proof.Machine

/-! ## Opcodes (Table 10.4) -/

/-- The opcodes: whether a tenant may use it, and whether it acts on the module as a whole. -/
def opcodes : List (Nat × Bool × Bool) :=
  [(0x0000, true, true), (0x0001, true, true), (0x0002, true, true), (0x0003, true, true), (0x0004, true, false),
   (0x0100, false, false), (0x0101, false, false), (0x0102, true, false), (0x0103, false, false), (0x0104, true, false),
   (0x0200, false, true), (0x0201, false, true), (0x0202, false, true), (0x0203, false, true),
   (0x0300, true, false), (0x0301, true, false), (0x0302, true, false), (0x0303, true, false)] ++
  [(0x0400, true, false), (0x0401, true, false), (0x0402, true, false), (0x0403, true, false), (0x0404, true, false),
   (0x0500, true, false), (0x0501, true, false), (0x0502, true, false), (0x0503, true, false), (0x0504, true, false),
   (0x0600, true, true), (0x0601, false, true), (0x0602, true, false), (0x0603, false, true), (0x0604, false, true)] ++
  [(0x0700, false, true), (0x0701, false, true), (0x0800, true, true), (0x0801, true, true), (0x0802, false, true),
   (0x0900, false, true), (0x0901, false, true), (0x0902, false, true), (0x0903, false, true), (0x0904, false, true)]

/-- A command's parameter bytes have the LENGTH of its opcode, and its reserved bytes are 0 (R293, Table 10.4); variable parts have the
length that the bytes before them say. -/
def paramsOk (opcode len : Nat) (p : Bytes) : Bool :=
  match opcode with
  | 0x0001 | 0x0301 | 0x0303 | 0x0501 | 0x0503 => len = 4
  | 0x0002 | 0x0401 | 0x0402 | 0x0604 => len = 8
  | 0x0003 => 8 ≤ len && len = 8 + 4 * fieldAt p 4 4
  | 0x0004 => len = 8 && fieldAt p 3 1 = 0
  | 0x0104 => len = 8 && fieldAt p 1 1 = 0
  | 0x0602 => len = 8 && fieldAt p 2 2 = 0
  | 0x0201 | 0x0300 | 0x0302 | 0x0400 | 0x0700 => 8 ≤ len
  | 0x0100 | 0x0500 => len = 64
  | 0x0103 | 0x0504 => len = 16
  | 0x0404 | 0x0900 | 0x0901 | 0x0903 => len = 1
  | 0x0502 => 192 ≤ len
  | 0x0600 => len = 12
  | 0x0601 | 0x0800 => len = 32
  | 0x0603 => len = 2
  | 0x0802 => true
  | _ => len = 0

/-- The opcode acts on the module as a whole (Table 10.4). -/
def wholeOp (opcode : Nat) : Bool := opcodes.any (fun o => o.1 = opcode && o.2.2)

/-- The command acts on the module as a whole: QUERY of the items that are a partition's registers does not (Table 10.4). -/
def wholeCmd (opcode : Nat) (whole : Bool) (p : Bytes) : Bool :=
  whole && !(opcode = 1 && (fieldAt p 0 4 = 2 || fieldAt p 0 4 = 3))

/-! ## Checks and replies (R293 to R298) -/

/-- Firmware takes commands: the control cores have booted, the module is not in Deep, and no activation has stopped intake
(R384, R444). -/
def State.intake (s : State) : Bool := s.pwr.booted && s.getF F.pwrModeState ≠ 3 && s.sec.activating ≠ 2

/-- The entries of a function's command or reply ring (R297): 2^LOG2 with LOG2 held to 4 to 12. -/
def ringSize (log2 : Nat) : Nat := 2 ^ min 12 (max 4 log2)

/-- Installation mode: the firn key area holds no operator key (R437). -/
def State.installing (s : State) : Bool := s.firn.opKeys.isEmpty

/-- A secure requester (R438). -/
def State.secure (s : State) : Requester → Bool
  | .core => true
  | .host f => f.val = 0 && (s.flag F.secSessCtrlOpen || s.installing)
  | .bar2 _ => false
  | .config _ => false
  | .tileCore _ => false
  | .smbus => s.installing || (s.flag F.secStatusRecovery && !s.pwr.booted)

/-- The sender of a command as a requester (R438). -/
def State.secureSender (s : State) : Sender → Bool
  | .slot _ => true
  | .host f => f = 0 && (s.flag F.secSessCtrlOpen || s.installing)

/-- The outstanding commands of a sender. -/
def State.outOf (s : State) (x : Sender) : List Outst := s.bridge.outst.filter (fun o => decide (o.sender = x))

/-- Write a reply entry of function f into its reply ring, and its payload to the reply buffer when it is longer than 48 bytes
(R297, R298). While the PCIe link is down the DMA cannot write: ERR is set, and nothing is written (DESIGN CHOICE, log entry 77: the
spec does not say whether such an entry is written later). -/
def State.ringReply (s : State) (f rbufAddr : Nat) (tag : BitVec 32) (status source dtl : Nat) (payload : Bytes) : State :=
  let base := (s.getR (R.ringRplBaseLo f)).toNat + (s.getR (R.ringRplBaseHi f)).toNat * 2 ^ 32
  let size := ringSize (s.getF (F.ringRplSizeLog2 f))
  let tail := s.getF (F.ringRplTailTail f) % size
  let hd := leBytes 4 tag.toNat ++ leBytes 2 status ++ leBytes 2 source ++ leBytes 4 dtl ++ leBytes 4 payload.length
  let long := if payload.length ≤ 48 then [] else [(rbufAddr, payload)]
  let body := if payload.length ≤ 48 then payload ++ leBytes (48 - payload.length) 0 else leBytes 48 0
  if !s.bridge.linkUp then s.setFlag (F.ringStatusErr f) true
  else { s with hostOut := s.hostOut ++ long ++ [(base + 64 * tail, hd ++ body)] }.setF (F.ringRplTailTail f) ((tail + 1) % size)

/-- The COMPLETE interrupt of the partition that a command names, once its reply is sent (R343). -/
def State.completeIrq (s : State) (part : Option Nat) : State :=
  match part with
  | some n => if s.partState n = 0 then s else s.irq n 0
  | none => s

/-- Complete a command: its reply, its entry in the ring when the bridge fetched it, and the COMPLETE interrupt of the partition
it named (R292, R297, Table 12.3). -/
def State.complete (s : State) (to_ : Sender) (tag : BitVec 32) (part : Option Nat) (status dtl : Nat) (payload : Bytes) : State :=
  let s1 := s.reply to_ tag status dtl payload
  let s2 :=
    match s.bridge.outst.find? (fun o => decide (o.sender = to_) && o.tag = tag) with
    | none => s1
    | some o =>
      let s1 := { s1 with bridge := { s1.bridge with outst := s1.bridge.outst.erase o } }
      match to_ with
      | .host f => if o.dropped then s1.addF F.glbBridgeCntDropped 1
                   else s1.ringReply f o.rbuf tag status s.slot dtl payload
      | .slot _ => s1
  s2.completeIrq part

/-- The partition a command names, none for a command that acts on the module as a whole (R293). -/
def namedPart (h : CmdHdr) (whole : Bool) : Option Nat := if whole then none else some h.part.val

/-- Complete the command of header h. -/
def State.done (s : State) (h : CmdHdr) (whole : Bool) (status dtl : Nat) (payload : Bytes) : State :=
  s.complete h.sender h.tag (namedPart h whole) status dtl payload

/-- The tenant check of R293: the tenant is the function's; a tenant other than 0 uses no opcode marked 0 and names a partition
bound to it. -/
def State.permitted (s : State) (h : CmdHdr) (whole any : Bool) : Bool :=
  (match h.sender with
   | .host f => decide (h.tenant.val = f)
   | .slot _ => true) &&
  (h.tenant.val = 0 || (any && (whole || (s.partState h.part ≠ 0 && s.tenantOf h.part = h.tenant.val))))

/-- The header's own checks of R294: a sender with 256 commands outstanding (the host's commands wait in their ring instead),
and a tag that is already outstanding. -/
def State.tagUsed (s : State) (h : CmdHdr) : Bool :=
  (s.outOf h.sender).any (fun o => o.tag = h.tag && o.started)
/-- See `State.tagUsed`. -/
def State.tooMany (s : State) (h : CmdHdr) : Bool :=
  match h.sender with
  | .host _ => false
  | .slot _ => 256 ≤ (s.outOf h.sender).length

/-- A command waits until every earlier command of its sender has started; with ORDERED, until every one has completed (R294). -/
def State.mustWait (s : State) (h : CmdHdr) : Bool :=
  let before := (s.outOf h.sender).takeWhile (fun o => o.tag ≠ h.tag)
  (h.flags.getLsbD 0 && !before.isEmpty) || before.any (fun o => !o.started)

/-- Answer a command that never becomes outstanding (R294): its reply and its COMPLETE interrupt. -/
def State.turnAway (s : State) (h : CmdHdr) (whole : Bool) (status dtl : Nat) : State :=
  (s.reply h.sender h.tag status dtl []).completeIrq (namedPart h whole)

/-- The partition is being reset or destroyed, so commands that name it end at once (R295, R346). -/
def State.resettingPart (s : State) (h : CmdHdr) (whole : Bool) : Bool := !whole && 2 ≤ s.partState h.part

/-- A command of this module (R293 to R296): `any` for opcodes of Who "T"; `whole` when it acts on the module as a whole; the
parameter check, the precondition of Table 10.4, the resource check, the size of the reply payload; then its effect. While
firmware takes no commands, or while the command waits for earlier ones, nothing happens; one that names a partition under reset does not
wait (R295). -/
def State.command (s : State) (h : CmdHdr) (any whole param state res : Bool) (size : Nat) (run : State → State) : State :=
  if !s.intake then s
  else if s.tooMany h then s.turnAway h whole stNoResource 256
  else if s.tagUsed h then s.turnAway h whole stBadParam 0
  else if s.mustWait h && !s.resettingPart h whole then s
  else if !s.permitted h whole any then
    (s.when (!whole) (fun s => s.addF (F.partIsoRegDenied h.part) 1)).done h whole stNotPermitted 0 []
  else if 4 ≤ h.flags.toNat || !param then s.done h whole stBadParam 0 []
  else if s.resettingPart h whole || !state then s.done h whole stWrongState 0 []
  else if !res then s.done h whole stNoResource 0 []
  else if 48 < size ∧ h.rbuf < size ∧ (match h.sender with | .host _ => true | .slot _ => false) = true then
    s.done h whole stBadParam size []
  else run s

/-- The command starts and its reply comes later (R294): it stays outstanding under an opcode, with an argument, in its place among its
sender's commands. -/
def State.outstand (s : State) (h : CmdHdr) (opcode arg : Nat) : State :=
  let old := s.bridge.outst.find? (fun o => decide (o.sender = h.sender) && o.tag = h.tag)
  let rb := match old with | some o => o.rbuf | none => 0
  let o : Outst := ⟨h.sender, h.tag, h.part, h.tenant, opcode, rb, true, arg, false⟩
  { s with bridge := { s.bridge with
      outst := if old.isSome then s.bridge.outst.map (fun x => if x.sender = h.sender ∧ x.tag = h.tag then o else x)
               else s.bridge.outst ++ [o] } }

/-- The outstanding commands of an opcode, and of a partition. -/
def State.waitingFor (s : State) (opcode : Nat) (part : Option Nat) : List Outst :=
  s.bridge.outst.filter (fun o => o.started && o.opcode = opcode && (match part with | some n => o.part = n | none => true))

/-- Complete every outstanding command of an opcode (and partition). -/
def State.completeAll (s : State) (opcode : Nat) (part : Option Nat) (status dtl : Nat) (payload : Bytes) : State :=
  s.each (s.waitingFor opcode part) (fun s o => s.complete o.sender o.tag part status dtl payload)

/-- Every command running in a partition completes with CANCELLED (R295); those that act on the module as a whole run in none (R293). -/
def State.cancelPart (s : State) (n : Nat) (but : Nat) : State :=
  s.each (s.bridge.outst.filter (fun o => o.started && o.part = n && o.opcode ≠ but && !wholeOp o.opcode)) (fun s o =>
    s.complete o.sender o.tag (some n) stCancelled 0 [])

/-- Commands of other slots that have started and not answered end with CANCELLED when this module resets (R299); `kept` is an opcode
whose commands outlive the reset. -/
def State.cancelRelayed (s : State) (kept : Nat) : State :=
  s.each (s.bridge.outst.filter (fun o => o.started && o.opcode ≠ kept && (match o.sender with | .slot _ => true | .host _ => false))) (fun s o =>
    s.complete o.sender o.tag (if wholeOp o.opcode then none else some o.part) stCancelled 0 [])

/-- Bytes laid at an offset of a string that grows to hold them, for objects that arrive in pieces. -/
def putPiece (old : Bytes) (off : Nat) (data : Bytes) : Bytes :=
  (old.take off ++ List.replicate (off - old.length) 0) ++ data ++ old.drop (off + data.length)

/-! ## Mailboxes (R301 to R304) -/

/-- A channel's peer is the host (R301): only on a module whose endpoint is enabled can a host reach it. -/
def State.mbxHostPeer (s : State) (c : Nat) : Bool := s.getF (F.mbxCfgPeer c) = 0x3FF

/-- Copy 16 words into the host end of channel c, or into the module end, and set FLAG (R302). -/
def State.mbxDeliver (s : State) (toHost : Bool) (c : Nat) (d : Nat → Word) : State :=
  if toHost then
    let s := s.each (List.range 16) (fun s k => s.setR (R.mbxHostRecvData 0 c k) (d k))
    (s.setFlag (F.mbxHostRecvCtrlFlag 0 c) true).addF (F.mbxHostRecvCtrlReceived 0 c) 1
  else
    let s := s.each (List.range 16) (fun s k => s.setR (R.mbxRecvData c k) (d k))
    (s.setFlag (F.mbxRecvCtrlFlag c) true).addF (F.mbxRecvCtrlReceived c) 1

/-- Send the words of the module end of channel c: to the host end, or as MBX_MSG to the peer module (R302). -/
def State.mbxSend (s : State) (c : Nat) : State :=
  let d := fun k => s.getR (R.mbxSendData c k)
  let s' := s.setFlag (F.mbxSendCtrlGo c) true
  if s.mbxHostPeer c then s'.mbxDeliver true c d
  else s'.sendMgmt (s.getF (F.mbxCfgPeer c)) 0x0011
    (leBytes 1 c ++ leBytes 3 0 ++ ((List.range 16).map (fun k => leBytes 4 (d k).toNat)).flatten)

/-- Firmware answers a key message in the reverse direction of its channel (R440): OP, status, zeros; while GO is set the answer
waits. -/
def State.keyAnswer (s : State) (c op status : Nat) : State :=
  if s.flag (F.mbxSendCtrlGo c) then { s with sec := { s.sec with answers := s.sec.answers ++ [(c, op, status)] } }
  else
    (s.each (List.range 16) (fun s k => s.setR (R.mbxSendData c k)
      (if k = 0 then BitVec.ofNat 32 op else if k = 1 then BitVec.ofNat 32 status else 0))).mbxSend c

/-- GO of the module end clears, and the next answer that waits for the channel goes out. -/
def State.mbxFree (s : State) (c : Nat) : State :=
  let s := s.setFlag (F.mbxSendCtrlGo c) false
  match s.sec.answers.find? (fun a => a.1 = c) with
  | some a => { s with sec := { s.sec with answers := s.sec.answers.erase a } }.keyAnswer c a.2.1 a.2.2
  | none => s

/-- The peers of a slot are lost (R303): its channels with GO set clear GO and set PEER_LOST. -/
def State.mbxPeerLost (s : State) (slot : Nat) : State :=
  s.each ((List.range 32).filter (fun c => s.getF (F.mbxCfgPeer c) = slot && s.flag (F.mbxSendCtrlGo c))) (fun s c =>
    (s.setFlag (F.mbxSendCtrlPeerLost c) true).mbxFree c)

end Sys2Proof.Machine
end

