-- ==== Sys2Proof/Machine/Faults.lean ====
section
/-! DEFINITION. Shared operations on faults: partition holds (R363), the interrupts that log entries raise (Table 12.3), and the
requests that a hold or a lost page stops. -/

namespace Sys2Proof.Machine

/-- Log an event of a partition that raises its FAULT interrupt (Table 12.3): a deadline fault, a late request, a clamp, a failed
canary. -/
def State.faultIrq (s : State) (n : Nat) : State := if s.partState n = 0 then s else s.irq n 2

/-- A request that is admitted and not at its end. -/
def Request.active (r : Request) : Bool :=
  match r.state with
  | .prefill | .decode | .wait _ | .restart => true
  | _ => false

/-- A hold moves an active request to WAIT and discards the step whose token has not returned (R363); the state that it left is
1 PREFILL or 2 DECODE. The prompt positions of a discarded step are passed again (DEDUCED, log entry 69). -/
def Request.park (r : Request) : Request :=
  match r.state with
  | .prefill => { r with state := .wait 1, passed := r.redo, inFlight := false, held := true }
  | .decode =>
    if r.inFlight ∧ r.redo < r.passed then { r with state := .wait 1, passed := r.redo, inFlight := false, held := true }
    else { r with state := .wait 2, inFlight := false, held := true }
  | _ => r

/-- A held request goes back to the state it left (Table 11.3). -/
def Request.unpark (r : Request) : Request :=
  match r.state with
  | .wait 1 => { r with state := .prefill, held := false }
  | .wait 2 => { r with state := .decode, held := false }
  | _ => r

/-- Change every request of a service. -/
def Svc.mapReqs (v : Svc) (f : Request → Request) : Svc := { v with reqs := v.reqs.map f }

/-- Change every service of a partition. -/
def State.mapSvcs (s : State) (n : Nat) (f : Svc → Svc) : State :=
  s.modPrt n (fun x => { x with svcs := x.svcs.map f })

/-- This module is the front module of a service. -/
def State.isFront (s : State) (v : Svc) : Bool := v.front = s.placeSlot

/-- Ask the program of partition n to stop at the end of window w (R190). -/
def State.stopAt (s : State) (n w : Nat) : State :=
  if s.progState n < 2 then s
  else (s.modPrt n (fun x => { x with stopWin := some w })).setF (F.partProgStatusState n) 3

/-- A module takes part in a hold of partition n (R363): the program stops at the end of window y − 1, and the front module's
requests wait. -/
def State.takeHold (s : State) (n cause y : Nat) : State :=
  let held := ((s.prt n).svcs.filter s.isFront).flatMap (fun v => v.reqs.filter Request.active)
  let s := s.mapSvcs n (fun v => if s.isFront v then v.mapReqs Request.park else v)
  let s := s.modPrt n (fun x => { x with hold := some cause })
  let s := (s.setR R.glbHold (s.getR R.glbHold ||| BitVec.ofNat 32 (2 ^ (16 + n)))).addF F.glbHoldHolds 1
  (s.each held (fun s _ => s.irq n 3)).stopAt n (y - 1)

/-- The modules that are told of a partition: those that hold it, and every other one when this module does not (log entry 80). -/
def State.holdersOf (s : State) (n : Nat) : List Nat := if s.partState n = 0 then s.others else s.modulesOf n

/-- A hold of partition n reaches this module (R363): one that does not hold the partition only notes it, when it is the standby module
that will. -/
def State.heldHere (s : State) (n cause y to_ : Nat) : State :=
  if s.partState n = 0 then s.modPrt n (fun x => { x with hold := if to_ = s.slot then some cause else x.hold })
  else s.takeHold n cause y

/-- This module coordinates a hold of partition n from the second window ahead (R363). -/
def State.beginHold (s : State) (n cause from_ to_ : Nat) : State :=
  let y := s.win + 2
  let s := s.modPrt n (fun x => { x with coordHold := true })
  let dests := if to_ = 0xFFFF || to_ = s.slot then s.holdersOf n else (s.holdersOf n ++ [to_]).eraseDups
  let s := s.each dests (fun s d => s.sendMgmt d 0x0904
    (leBytes 1 n ++ leBytes 1 0 ++ leBytes 2 cause ++ leBytes 8 y ++ leBytes 2 from_ ++ leBytes 2 to_))
  s.heldHere n cause y to_

/-- A held partition goes on at window z (R363): its program starts at window 0 of its image, and its requests are released, but those
that wait for a page (R319). -/
def State.takeResume (s : State) (n z : Nat) : State :=
  let s := s.mapSvcs n (fun v => if s.isFront v then v.mapReqs (fun r =>
    if r.pages = 0 then r.unpark else { r with held := false }) else v)
  let s := s.modPrt n (fun x => { x with hold := none, coordHold := false, stopWin := none,
                                         startWin := if x.prog.isSome then some z else x.startWin })
  s.setR R.glbHold (s.getR R.glbHold &&& ~~~ BitVec.ofNat 32 (2 ^ (16 + n)))

/-- RESUME goes to the other modules that hold the partition. -/
def State.sendResume (s : State) (n z : Nat) : State :=
  s.each (s.holdersOf n) (fun s d => s.sendMgmt d 0x0906 (leBytes 1 n ++ leBytes 7 0 ++ leBytes 8 z))

/-- The coordinator ends a hold: RESUME names the second window ahead (R363). -/
def State.endHold (s : State) (n : Nat) : State := (s.sendResume n (s.win + 2)).takeResume n (s.win + 2)

/-- One 0x1204 entry for each request of a partition's services that has been active here since the array's last passing canary
(R369); the entries are not folded. -/
def State.suspectRequests (s : State) (n t a : Nat) : State :=
  let tags := fun (v : Svc) => (v.reqs.filter Request.active).map (·.tag) ++
    (v.ended.filter (fun e => (s.arr t a).canaryPass.toNat ≤ e.2.toNat)).map Prod.fst
  s.each (((s.prt n).svcs.filter s.isFront).flatMap (fun v => (tags v).eraseDups)) (fun s tag =>
    s.report srcCtl 0x1204 n 4 tag (128 * t + a))

/-! ## Tiles that fail for good (R350, R362, R364) -/

/-- The reserve tile that a retirement in a half takes: the highest-numbered present tile without a logical tile that takes no other
failed tile's place (R364). -/
def State.reserveTile (s : State) (half : Nat) : Option Nat :=
  ((List.range 48).map (fun i => half * 48 + 47 - i)).find? (fun t =>
    !s.absent t && (s.logical t).isNone && !s.flag (F.tileStatusRetired t) && !(s.tile t).failed &&
    !(List.range 96).any (fun u => (s.tile u).heir = some t))

/-- A half has one reserve tile less (GLB_RESERVE). -/
def State.reserveLess (s : State) (half : Nat) : State :=
  let gf := if half = 0 then F.glbReserveWest else F.glbReserveEast
  s.setF gf (s.getF gf - 1)

/-- The count of a partition's reserve tiles in a half. -/
def resField (n half : Nat) : FieldRef := if half = 0 then F.partCfgResW n else F.partCfgResE n

/-- A tile is recorded as bad: from the next power-on or module reset it reads as absent (R364). -/
def State.markBad (s : State) (t : Nat) : State :=
  { s with firn := { s.firn with cfg := { s.firn.cfg with bad := (t :: s.firn.cfg.bad).eraseDups } } }

/-- A tile stops for good and is retired (R362): its partition is held while a reserve tile of its own takes over, or the module
fails when it has none in that half (R350). A reserve tile that fails leaves one less. -/
def State.retire (s : State) (t : Nat) : State :=
  let n := s.ownerOf t
  let h := halfOf t
  let s := (s.modTile t (fun x => { x with failed := true })).markBad t
  if n = 0 then (s.setFlag (F.tileStatusRetired t) true).when (s.logical t).isNone (fun s => s.reserveLess h)
  else if s.getF (resField n h) = 0 then s.failModule 9
  else
    let r := s.reserveTile h
    let s := ((s.setF (resField n h) (s.getF (resField n h) - 1)).reserveLess h).modTile t (fun x => { x with heir := r })
    let s := match r with
      | some r => (s.setR (R.tileRegion r) (s.getR (R.tileRegion t))).each (List.range 128) (fun s a =>
          s.setR (R.arrCfg r a) (s.getR (R.arrCfg t a) &&& 0x7FFF))
      | none => s
    if (s.prt n).hold.isSome then s else s.beginHold n 1 s.slot 0xFFFF

/-- A tile fails permanently through unit u (R362). -/
def State.failTile (s : State) (t u : Nat) : State :=
  if (s.tile t).failed then s else (s.logTile t u 0x1201 (srcTile t u)).retire t

end Sys2Proof.Machine
end

