-- ==== Sys2Proof/Machine/Store.lean ====
section
/-! DEFINITION. The current image (R260), the tile store with its regions, checks and restores (R126 to R132, R355), and the page
cache (R133, R134). -/

namespace Sys2Proof.Machine

/-! ## The current image -/

/-- The layer that placement i of a manifest belongs to (Table 9.3). -/
def Manifest.layerOf (m : Manifest) (i : Nat) : Option ManLayer :=
  m.layers.find? (fun l => l.firstPlace ≤ i && i < l.firstPlace + l.placeCount)

/-- The manifest of the current epoch. -/
def WgtSt.man (w : WgtSt) : Option Manifest := w.resident.man

/-- The image slot and the placement that `find` names (R260): of the staging slot when the placement's layer there is one that the swap
front has passed, else of the resident slot. Each manifest indexes its own slot. -/
def WgtSt.current (w : WgtSt) (find : Manifest → Option Nat) : Option (ImageSlot × Nat) :=
  let passed := match w.swap, w.staging.man with
    | some sw, some m => (find m).bind (fun i => (m.layerOf i).bind (fun l =>
        if sw.drained.contains l.layer then some (w.staging, i) else none))
    | _, _ => none
  passed <|> (w.resident.man.bind find).map (fun i => (w.resident, i))

/-- The placement of array a of logical tile k on slot m: the one held, when it is a placement of that array. -/
def Manifest.arrayPlace (m : Manifest) (slot k a : Nat) (held : Option Nat) : Option Nat :=
  let here := fun (i : Nat) => match m.places[i]? with
    | some p => p.slot = slot && p.ltile = k && p.array = a
    | none => false
  match held with
  | some i => if here i then some i else (List.range m.places.length).find? here
  | none => (List.range m.places.length).find? here

/-- The bytes of a streamed placement in the stream area (R281). -/
def WgtSt.streamImage (w : WgtSt) (p : Place) : Bytes :=
  (List.range p.length).map (fun i => Sparse.get (fun _ => 0) w.stream (p.dest + i))

/-- A placement's image in a slot; a streamed layer's is the one in the stream area (R276, R284). -/
def WgtSt.imageIn (w : WgtSt) (x : ImageSlot × Nat) : Bytes :=
  match x.1.man.bind (fun m => (m.layerOf x.2).bind (fun l => if l.kind = 2 then m.places[x.2]? else none)) with
  | some p => w.streamImage p
  | none => Sparse.get (fun _ => []) x.1.images x.2

/-- The image slot and placement of array a of tile t (R260, R284), none where no layer is placed. -/
def State.place (s : State) (t a : Nat) : Option (ImageSlot × Nat) :=
  (s.logical t).bind (fun k => (s.prt (s.ownerOf t)).wgt.current (fun m => m.arrayPlace s.placeSlot k a (s.arr t a).held))

/-- The current image of array a of tile t (R260), none where no layer is placed. -/
def State.arrImage (s : State) (t a : Nat) : Option Bytes :=
  (s.place t a).map (s.prt (s.ownerOf t)).wgt.imageIn

/-- Row r of an array image (R74, R259). -/
def imageRow (img : Bytes) (r : Nat) : BitVec 1024 := BitVec.ofNat 1024 (fieldAt img (128 * r) 128)

/-- Scale line l of an array image (R75, R259). -/
def imageLine (img : Bytes) (l : Nat) : Bytes := (img.drop (131072 + 64 * l)).take 64

/-- The placement of a DE image on logical tile k of a slot that covers a byte of the DE weight region. -/
def Manifest.dePlace (m : Manifest) (slot k off : Nat) : Option Nat :=
  (List.range m.places.length).find? (fun i =>
    match m.places[i]?, m.layerOf i with
    | some p, some l => l.kind = 1 && p.slot = slot && p.ltile = k && p.dest ≤ off && off < p.dest + p.length
    | _, _ => false)

/-- The n bytes at an offset of a tile's DE weight region, from the current images (Table 5.3). -/
def State.deImage (s : State) (t off n : Nat) : Bytes :=
  let w := (s.prt (s.ownerOf t)).wgt
  match (s.logical t).bind (fun k => w.current (fun m => m.dePlace s.placeSlot k off)) with
  | some x =>
    let dest := ((x.1.man.bind (fun m => m.places[x.2]?)).map Place.dest).getD 0
    ((w.imageIn x).drop (off - dest)).take n
  | none => []

/-! ## Words of the store -/

/-- The parity of a word's 64 bits: true when they hold an odd number of ones. -/
def oddOnes (n : Nat) (w : Nat) : Bool := (List.range n).foldl (fun b i => xor b (w.testBit i)) false

/-- The word is sound (R126). -/
def PWord.good (w : PWord) : Bool := oddOnes 64 w.data.toNat = w.par

/-- A word with the parity that a write forms (R131). -/
def PWord.mk' (d : DWord) : PWord := ⟨d, oddOnes 64 d.toNat⟩

/-- Size of a tile store. -/
def storeSize : Nat := 0x800000

/-- Word w of a tile's store. -/
def TileSt.word (x : TileSt) (w : Nat) : PWord := Sparse.get (fun _ => {}) x.store w

/-- The byte at offset o. -/
def TileSt.byte (x : TileSt) (o : Nat) : Byte := (((x.word (o / 8)).data >>> (8 * (o % 8))).setWidth 8 : BitVec 8)

/-- n bytes from offset o. -/
def TileSt.bytes (x : TileSt) (o n : Nat) : Bytes := (List.range n).map (fun j => x.byte (o + j))

/-- The word w after the bytes bs have been laid at offset o. -/
def TileSt.merged (x : TileSt) (o : Nat) (bs : Bytes) (w : Nat) : PWord :=
  PWord.mk' (BitVec.ofNat 64 (leNat ((List.range 8).map (fun j =>
    let b := 8 * w + j
    if o ≤ b ∧ b < o + bs.length then bs.getD (b - o) 0 else x.byte b))))

/-- Lay bytes at offset o (R126, R131): every word touched gets new parity. -/
def TileSt.put (x : TileSt) (o : Nat) (bs : Bytes) : TileSt :=
  if bs.isEmpty then x
  else
    let w0 := o / 8
    let n := (o + bs.length + 7) / 8 - w0
    { x with store := Sparse.setRange (fun _ => {}) x.store w0 n (fun j => x.merged o bs (w0 + j)) }

/-- Words of the bytes o to o + n - 1 that fail parity. -/
def TileSt.badWords (x : TileSt) (o n : Nat) : List Nat :=
  if n = 0 then []
  else (x.store.filter (fun e => o / 8 ≤ e.1 && e.1 < (o + n + 7) / 8 && !e.2.good)).map Prod.fst

/-- A read of these bytes meets no bad word. -/
def TileSt.sound (x : TileSt) (o n : Nat) : Bool := (x.badWords o n).isEmpty

/-- A write of these bytes meets no bad word that it must merge with (R131): only its first and last words can be partial. -/
def TileSt.mergeable (x : TileSt) (o n : Nat) : Bool :=
  (o % 8 = 0 || (x.word (o / 8)).good) && ((o + n) % 8 = 0 || (x.word ((o + n) / 8)).good)

/-! ## Regions (R128 to R130) -/

/-- The end of the program buffer, of the DE weight region, and of scratch. -/
def State.pbEnd (s : State) (t : Nat) : Nat := s.getF (F.tileRegionPbSize t) * 0x10000
/-- See `State.pbEnd`. -/
def State.dwEnd (s : State) (t : Nat) : Nat := s.pbEnd t + s.getF (F.tileRegionDwSize t) * 0x10000
/-- The page cache's size for a PC_SIZE code. -/
def pcBytes (code : Nat) : Nat := if code = 0 then 0 else if 4 ≤ code then 0 else 2 ^ (code - 1) * 0x100000
/-- See `State.pbEnd`. -/
def State.scratchEnd (s : State) (t : Nat) : Nat := storeSize - pcBytes (s.getF (F.tileRegionPcSize t))

/-- An action or a tile core may touch these bytes: the DE weight region and scratch (R130). -/
def State.actOk (s : State) (t o n : Nat) : Bool := s.pbEnd t ≤ o && o + n ≤ s.scratchEnd t

/-- Count and log a suppressed access (R130). -/
def State.denyStore (s : State) (t o : Nat) : State :=
  (s.addF (F.tileStoreErrAccess t) 1).logTileOnce t 0x88 (code14 2) o

/-- What an action reads: zeros where the access is suppressed (R130). -/
def State.stRead (s : State) (t o n : Nat) : Bytes :=
  if s.actOk t o n then (s.tile t).bytes o n else List.replicate n 0

/-- The count and log of an action's read. -/
def State.noteRead (s : State) (t o n : Nat) : State := if s.actOk t o n then s else s.denyStore t o

/-- The writer records of the scratch lines that bytes touch (R355). -/
def TileSt.noteWriter (x : TileSt) (o n pos slot : Nat) (ins : List Nat) : TileSt :=
  (List.range ((o + n + 511) / 512 - o / 512)).foldl (fun x j =>
    let line := o / 512 + j
    let lo := max o (512 * line)
    let hi := min (o + n) (512 * line + 512)
    { x with writers := Sparse.set (fun _ => ⟨0, 0, [], 0, []⟩) x.writers line ⟨pos, slot, ins, lo, x.bytes lo (hi - lo)⟩ }) x

/-- An action of slot `slot` writes bytes (R130, R131, R355); `ins` are the scratch lines it read. -/
def State.stWrite (s : State) (t o : Nat) (bs : Bytes) (slot : Nat) (ins : List Nat) : State :=
  if s.actOk t o bs.length then
    s.modTile t (fun x => (x.put o bs).noteWriter o bs.length (s.getF (F.tileSeqPosPos t)) slot ins)
  else s.denyStore t o

/-- The scratch lines that bytes lie in. -/
def linesOf (o n : Nat) : List Nat := (List.range ((o + n + 511) / 512 - o / 512)).map (fun j => o / 512 + j)

/-- A read or merge waits while its bad words are restored (R131). -/
def State.askRestore (s : State) (t o n : Nat) : State :=
  s.modTile t (fun x => { x with restoring := (x.restoring ++ x.badWords o n).eraseDups })

/-! ## The page cache (R133, R134) -/

/-- Sets of a tile's page cache. -/
def State.pcSets (s : State) (t : Nat) : Nat := 16 * (pcBytes (s.getF (F.tileRegionPcSize t)) / 0x100000)

/-- Where line (set, way) of the cache lies in the store. -/
def State.pcAddr (s : State) (t set way : Nat) : Nat := s.scratchEnd t + (set * 16 + way) * 4096

/-- Allocate HBM4 line `line` (R134): the lowest-numbered invalid way of its set, else the least recently used. -/
def TileSt.pcVictim (x : TileSt) (set : Nat) : Nat :=
  let here := x.pcache.filter (fun l => l.set = set)
  match (List.range 16).find? (fun w => !here.any (fun l => l.way = w)) with
  | some w => w
  | none => (here.foldl (fun (m : Nat × Nat) l => if l.stamp < m.1 then (l.stamp, l.way) else m) (x.pstamp + 1, 0)).2

/-- Where the image of a placement lies in HBM4 (R258): an HBM4 data image where its manifest says. -/
def ImageSlot.placeAt (x : ImageSlot) (n part i : Nat) : Nat :=
  Config.weightBase n part +
    match x.man.bind (fun m => if (m.layerOf i).any (fun l => l.kind = 3) then m.places[i]? else none) with
    | some p => p.dest
    | none => Config.imageOffset n i

/-- A byte of an image slot's images in HBM4, and of its canary entries (R258, Table 9.1), where the weight area has it. -/
def ImageSlot.byteAt (x : ImageSlot) (n part a : Nat) : Option Byte :=
  let find := fun (l : Sparse Bytes) (at_ : Nat → Nat) => l.findSome? (fun e =>
    if at_ e.1 ≤ a && a < at_ e.1 + e.2.length then some (e.2.getD (a - at_ e.1) 0) else none)
  find x.images (x.placeAt n part) <|>
    find x.canary (fun i => Config.weightBase n 6 + Config.imageOffset (16 * part + n) i)

/-- A byte of a partition's weight area in HBM4. -/
def WgtSt.byteAt (w : WgtSt) (n a : Nat) : Option Byte :=
  let letter := fun (b : Bool) (k : Nat) => if b then k + 1 else k
  let stream := w.resident.man.bind (fun m => (List.range m.places.length).findSome? (fun i =>
    match m.places[i]?, m.layerOf i with
    | some p, some l =>
      let base := Config.weightBase n 5 + p.dest
      if l.kind = 2 && base ≤ a && a < base + p.length then some (Sparse.get (fun _ => 0) w.stream (p.dest + (a - base))) else none
    | _, _ => none))
  stream <|> w.resident.byteAt n (letter w.slotB 1) a <|> w.staging.byteAt n (letter (!w.slotB) 1) a <|>
    w.mirrorRes.byteAt n (letter w.slotB 3) a <|> w.mirrorStg.byteAt n (letter (!w.slotB) 3) a

/-- n bytes of HBM4 as a prefetcher and the page cache read them: where a partition's weight area lies, its images, stream area and
canary table (R258, R281), which the model keeps by name (log entry 74). -/
def State.hbmSeen (s : State) (a n : Nat) : Bytes :=
  (List.range n).map (fun j => (s.parts.findSome? (fun e => e.2.wgt.byteAt e.1 (a + j))).getD (s.hbmByte (a + j)))

/-! ## Requests to HBM4 (R339, R340, R356) -/

/-- The bursts of 64 bytes that k bytes from a take. -/
def burstsOf (a k : Nat) : Nat := if k = 0 then 0 else (a + k - 1) / 64 - a / 64 + 1

/-- No line that k bytes from a lie in is marked bad (R356). -/
def State.linesGood (s : State) (a k : Nat) : Bool := s.hbmBad.all (fun l => 4096 * l + 4096 ≤ a || a + k ≤ 4096 * l)

/-- Whole bursts in partition n's bucket at the controller of an address (R339). -/
def State.bucketOf (s : State) (n a : Nat) : Nat := (if 48000000000 ≤ a then (s.prt n).bucketE else (s.prt n).bucketW) / 256

/-- A request of partition n for `need` bursts at an address is served to its end now: outside locked cadence, or when the bucket holds
what is still to be served of it (R339). `key` names the request. -/
def State.hbmServed (s : State) (n a need key : Nat) : Bool :=
  !s.locked || need ≤ Sparse.get (fun _ => 0) (s.prt n).hbmPaid key + s.bucketOf n a

/-- In locked cadence the bucket serves as many of the request's bursts as it holds, and the rest of the request waits (R339). -/
def State.hbmPay (s : State) (n a need key : Nat) : State :=
  if !s.locked then s
  else
    let paid := Sparse.get (fun _ => 0) (s.prt n).hbmPaid key
    let k := min (need - paid) (s.bucketOf n a)
    s.modPrt n (fun x =>
      let x := { x with hbmPaid := Sparse.set (fun _ => 0) x.hbmPaid key (if need ≤ paid + k then 0 else paid + k) }
      if 48000000000 ≤ a then { x with bucketE := x.bucketE - 256 * k } else { x with bucketW := x.bucketW - 256 * k })

/-- The names of requests: a tile's by tile, unit and number; the loader's by placement; a KV page access by slot, tag and page. -/
def tileKey (t unit num : Nat) : Nat := 3 * ((num * 32 + unit) * 128 + t)
/-- See `tileKey`. -/
def loadKey (place : Nat) : Nat := 3 * place + 1
/-- See `tileKey`. -/
def kvKey (slot tag page : Nat) : Nat := 3 * ((page * 1024 + slot) * 65536 + tag) + 2

/-- A tile's requests are forgotten. -/
def State.hbmForget (s : State) (t : Nat) : State :=
  s.modPrt (s.ownerOf t) (fun x => { x with hbmPaid := x.hbmPaid.filter (fun e => e.1 % 3 ≠ 0 || e.1 / 3 % 128 ≠ t) })

/-- Put an HBM4 line into the cache. -/
def State.pcInstall (s : State) (t line : Nat) : State :=
  let sets := s.pcSets t
  if sets = 0 then s
  else
    let set := line % sets
    let way := (s.tile t).pcVictim set
    s.modTile t (fun x =>
      TileSt.put { x with
        pcache := x.pcache.filter (fun l => !(l.set = set && l.way = way)) ++ [PcLine.mk line set way (x.pstamp + 1)]
        pstamp := x.pstamp + 1 } (s.pcAddr t set way) (s.hbmSeen (4096 * line) 4096))

/-- A store to HBM4 updates a line that is present and marks a fill in flight stale (R134). It is no use of the line: its recency stays
(DESIGN CHOICE, log entry 86: R134 does not say). -/
def State.pcStore (s : State) (t addr : Nat) (bs : Bytes) : State :=
  let hit := fun (line : Nat) => addr / 4096 ≤ line && line ≤ (addr + bs.length - 1) / 4096
  let s := s.modTile t (fun x => { x with pfills := x.pfills.map (fun f => if hit f.line then { f with stale := true } else f) })
  s.each ((s.tile t).pcache.filter (fun l => hit l.line)) (fun s l =>
    let lo := max addr (4096 * l.line)
    let hi := min (addr + bs.length) (4096 * l.line + 4096)
    s.modTile t (fun x => x.put (s.pcAddr t l.set l.way + (lo - 4096 * l.line)) ((bs.drop (lo - addr)).take (hi - lo))))

/-- Invalidate the page cache (R134). -/
def TileSt.pcClear (x : TileSt) : TileSt := { x with pcache := [], pfills := [] }

/-! ## Restores (R131, R355) -/

/-- The slice that a tile's sequencer runs (R172, R175). -/
def State.sliceOf (s : State) (n kind num : Nat) : Option Slice :=
  match (s.prt n).prog with
  | some p => p.slices.find? (fun l => l.kind = kind && l.num = num && l.variant = s.getF (F.partProgStatusVariant n))
  | none => none

/-- The slice of a physical tile. -/
def State.tileSlice (s : State) (t : Nat) : Option Slice :=
  match s.logical t with
  | some k => s.sliceOf (s.ownerOf t) 0 k
  | none => none

/-- The ring slots of 4,096 bytes that the stream of a slice fills from slice byte o to its end (R189). -/
def Slice.slots (l : Slice) (o : Nat) : Nat := (l.len - o + 4095) / 4096

/-- The slice byte at which the window that LOOP_TO names begins (R190). -/
def Prog.loopOff (p : Prog) (l : Slice) : Nat :=
  match p.loopTo with
  | some w => l.wins.getD w 0
  | none => 0

/-- The slots of a tile's program ring (R189): as many of 4,096 bytes as the program buffer holds, up to the 128 of a queue. -/
def State.progRing (s : State) (t : Nat) : Nat := max 1 (min 128 (s.pbEnd t / 4096))

/-- The word at byte offset o of the program buffer from the image in HBM4 (Table 5.3): ring slot n, the first one not yet left behind
that lies there, holds its part of the pass under way or of the next one (R189). -/
def State.progWord (s : State) (t o : Nat) : Bytes :=
  match s.tileSlice t, (s.prt (s.ownerOf t)).prog with
  | some l, some p =>
    let q := (s.tile t).seq
    let depth := s.progRing t
    let n := q.freed + (o / 4096 + depth - q.freed % depth) % depth
    let cnt := l.slots q.passOff
    let k := if n < q.slot0 + cnt then q.passOff + (n - q.slot0) * 4096 else p.loopOff l + (n - q.slot0 - cnt) * 4096
    s.hbmRead (p.base + l.off + k + o % 4096) 8
  | _, _ => List.replicate 8 0

/-- The bytes of word w of scratch as its rebuilding gives them (R355): a writer record of this window exists, no line that its action
read was written later, and the action wrote all of the word; a part of a word would be merged with what cannot be rebuilt
(DEDUCED, log entry 73). Every line that the action read is sound. -/
def TileSt.rebuilt (x : TileSt) (w : Nat) : Option Bytes :=
  match List.lookup (w / 64) x.writers with
  | none => none
  | some v =>
    if !v.ins.all (fun i => x.sound (512 * i) 512) then none
    else if v.ins.any (fun i => match List.lookup i x.writers with | some u => v.pos < u.pos | none => false) then none
    else if v.at_ ≤ 8 * w && 8 * w + 8 ≤ v.at_ + v.bytes.length then some ((v.bytes.drop (8 * w - v.at_)).take 8)
    else none

/-- The bad words of the lines that the action which wrote word w read (R355). -/
def TileSt.badInputs (x : TileSt) (w : Nat) : List Nat :=
  match List.lookup (w / 64) x.writers with
  | some v => v.ins.flatMap (fun i => x.badWords (512 * i) 512)
  | none => []

/-- Restore a bad word from its source (R131, Table 5.3): a line of the page cache is invalidated and fetched again. -/
def State.restoreOne (s : State) (t w : Nat) : State :=
  let o := 8 * w
  let done := fun (s : State) => s.modTile t (fun x => { x with restoring := x.restoring.filter (· ≠ w) })
  let restored := fun (s : State) (code d : Nat) =>
    ((done s).addF (F.tileStoreErrParity t) 1).logTile t 0x88 code d |>.count t 0x051 0 none 1
  if (( s.tile t).word w).good then done s
  else if o < s.pbEnd t then restored (s.modTile t (·.put o (s.progWord t o))) 0x0F02 o
  else if o < s.dwEnd t then
    let b := s.deImage t (o - s.pbEnd t) 8
    restored (s.modTile t (·.put o (b ++ List.replicate (8 - b.length) 0))) 0x0F02 o
  else if s.scratchEnd t ≤ o then
    match (s.tile t).pcache.find? (fun l => s.pcAddr t l.set l.way ≤ o && o < s.pcAddr t l.set l.way + 4096) with
    | some l => restored (s.modTile t (fun x => { x with
        pcache := x.pcache.filter (fun m => m.line ≠ l.line), pfills := x.pfills ++ [⟨l.line, 0, false⟩] })) 0x0F02 o
    | none => restored (s.modTile t (·.put o (List.replicate 8 0))) 0x0F02 o
  else
    match (s.tile t).rebuilt w with
    | some b => restored (s.modTile t (·.put o b)) 0x0F06 (o / 512)
    | none =>
      let s := (done s).logTile t 0x88 0x1205 (o / 512)
      let n := s.ownerOf t
      if n = 0 ∨ (s.prt n).hold.isSome then s else s.beginHold n 5 s.slot 0xFFFF

/-- Restore a bad word; of a word of scratch a bad input of the action that wrote it first, and so on down (R355). -/
def State.restoreFrom : Nat → State → Nat → Nat → State
  | 0, s, t, w => s.restoreOne t w
  | k + 1, s, t, w =>
    if ((s.tile t).word w).good || 8 * w < s.dwEnd t || s.scratchEnd t ≤ 8 * w then s.restoreOne t w
    else (s.each ((s.tile t).badInputs w) (fun s v => State.restoreFrom k s t v)).restoreOne t w

/-- Restore a bad word (R131, R355): there are no more actions to repeat than lines that have a writer record. -/
def State.restoreWord (s : State) (t w : Nat) : State := State.restoreFrom (s.tile t).writers.length s t w

/-- TILE_STORE_SCRUB (R132): the scrub reads the next 512-byte line of the program buffer or the DE weight region; its bad words
are restored. -/
def execTileStoreScrub (t : TileN) (s : State) : Host.Outcome State Fault Refusal :=
  if !s.tileOn t then .next s
  else
    let line := (s.tile t).scrubLine
    let bad := (s.tile t).badWords (512 * line) 512
    let s := s.each bad (fun s w => s.restoreWord t w)
    let nxt := if s.dwEnd t ≤ 512 * (line + 1) then 0 else line + 1
    .next (s.modTile t (fun x => { x with scrubLine := nxt }))

/-- A TILE_REGION word keeps the limits of Table 5.2. -/
def regionOk (w : Word) : Bool :=
  let pb := bitsOf w 7 0
  let dw := bitsOf w 15 8
  let pc := bitsOf w 18 16
  4 ≤ pb && pc < 4 && pb * 0x10000 + dw * 0x10000 + pcBytes pc + 0x40000 ≤ storeSize

/-- A write of TILE_REGION (R129, R132, R134). -/
def State.setRegion (s : State) (t : Nat) (w : Word) : State :=
  if s.flag (F.tileStatusSeqRun t) || !regionOk w then s.setFlag (F.tileStatusRegionErr t) true
  else (s.setR (R.tileRegion t) (w &&& 0x7FFFF)).modTile t (fun x => { x.pcClear with scrubLine := 0 })

/-- TILE_REGION_WRITE (R129). -/
def execTileRegionWrite (t : TileN) (w : Word) (s : State) : Host.Outcome State Fault Refusal :=
  if !s.tileOn t then .next s else .next (s.setRegion t w)

/-- PAGE_CACHE_FILL (R134): the line arrives and takes its place; a fill that a store has hit is discarded and reissued. It draws the
line's bursts from the partition's bucket (R340), and waits while the line is bad (R356). -/
def execPageCacheFill (t : TileN) (line : Nat) (s : State) : Host.Outcome State Fault Refusal :=
  match (s.tile t).pfills.find? (fun f => f.line = line) with
  | none => .next s
  | some f =>
    if f.stale then
      .next (s.modTile t (fun x => { x with pfills := x.pfills.map (fun g => if g.line = line then { g with stale := false } else g) }))
    else if !s.linesGood (4096 * line) 4096 then .next s
    else
      let n := s.ownerOf t
      let ready := s.hbmServed n (4096 * line) 64 (tileKey t 31 line)
      let s := s.hbmPay n (4096 * line) 64 (tileKey t 31 line)
      .next (if ready then (s.modTile t (fun x => { x with pfills := x.pfills.filter (fun g => g.line ≠ line) })).pcInstall t line else s)

end Sys2Proof.Machine
end

