-- ==== Sys2Proof/Machine/Array.lean ====
section
/-! DEFINITION. Lamlet arrays: rows and their checks, the weight-sum file, the scale file, conversions, the narrow and wide
accumulators, calibration coefficients, the bounds of chapter 4, and column repair. -/

namespace Sys2Proof.Machine

/-! ## Shape (Tables 2.1, 2.4) -/

/-- Storage mode of an ARR_CFG word: codes 5 to 7 count as 0 (Table 2.8). -/
def modeOf (w : Word) : Nat := if 4 < bitsOf w 2 0 then 0 else bitsOf w 2 0

/-- Rows of a segment for an ARR_CFG word (Table 2.8). -/
def segOf (w : Word) : Nat := match bitsOf w 9 8 with | 1 => 128 | 2 => 64 | _ => 256

/-- Bit-columns of a weight group, weight groups, and logical columns of a mode (Table 2.4). -/
def groupBits (mode : Nat) : Nat := match mode with | 1 => 3 | 2 => 2 | 3 => 2 | _ => 4
/-- See `groupBits`. -/
def groupCount (mode : Nat) : Nat := match mode with | 1 => 341 | 2 => 512 | 3 => 512 | _ => 256
/-- See `groupBits`. -/
def logCols (mode : Nat) : Nat := if mode = 4 then 128 else groupCount mode

/-- The weight of group j of a row's data (Table 3.2, R72). -/
def weightAt (mode : Nat) (data : BitVec 1024) (j : Nat) : Int :=
  signed (groupBits mode) (data.toNat / 2 ^ (groupBits mode * j))

/-- The place value of bit i of a group of n (Table 2.4). -/
def placeVal (n i : Nat) : Int := if i + 1 = n then -(2 ^ i) else 2 ^ i

/-- The column groups that hold the check columns c0 to c11, in order. -/
def checkGroups : List Nat := [1, 2, 3, 4, 6, 7, 8, 9, 11, 12, 13, 14]

/-- The physical bit-column of data column c (0 to 1,023) or of check column c - 1,024. -/
def physCol (c : Nat) : Nat := if c < 1024 then 70 * (c / 64) + c % 64 else 70 * checkGroups.getD (c - 1024) 0 + 69

/-- The physical bit-column of spare k (Table 2.13). -/
def spareCol (k : Nat) : Nat := 70 * (k / 4) + 65 + k % 4

/-- What stands at a physical bit-column (Table 2.1): 0 data, 1 parity, 2 spare, 3 check, 4 reference; and its number. -/
def colKind (p : Nat) : Nat × Nat :=
  let g := p / 70
  let o := p % 70
  if o < 64 then (0, 64 * g + o)
  else if o = 64 then (1, g)
  else if o < 69 then (2, 4 * g + (o - 65))
  else match checkGroups.idxOf? g with
    | some i => (3, i)
    | none => (4, g / 5)

/-- Set bit i of a bit vector. -/
def setBit {n : Nat} (x : BitVec n) (i : Nat) (b : Bool) : BitVec n :=
  (x &&& ~~~ (BitVec.ofNat n (2 ^ i))) ||| (if b then BitVec.ofNat n (2 ^ i) else 0)

/-- The cell of a row at a physical bit-column. -/
def Row.col (r : Row) (p : Nat) : Bool :=
  match colKind p with
  | (0, i) => r.data.getLsbD i
  | (1, i) => r.parity.getLsbD i
  | (2, i) => r.spare.getLsbD i
  | (3, i) => r.check.getLsbD i
  | (_, i) => r.refs.getLsbD i

/-- Write one cell. -/
def Row.setCol (r : Row) (p : Nat) (b : Bool) : Row :=
  match colKind p with
  | (0, i) => { r with data := setBit r.data i b }
  | (1, i) => { r with parity := setBit r.parity i b }
  | (2, i) => { r with spare := setBit r.spare i b }
  | (3, i) => { r with check := setBit r.check i b }
  | (_, i) => { r with refs := setBit r.refs i b }

/-- What a row that nothing has written reads as: zeros, with the pattern of the reference columns (R63). -/
def rowDefault (i : Nat) : Row := { refs := if i % 2 = 0 then 0b0101 else 0b1001 }

/-- Row i of an array's cells. -/
def ArrSt.row (x : ArrSt) (i : Nat) : Row := Sparse.get rowDefault x.rows i
/-- Replace it. -/
def ArrSt.setRow (x : ArrSt) (i : Nat) (r : Row) : ArrSt := { x with rows := Sparse.set rowDefault x.rows i r }

/-! ## The row port (R24, R46, R56) -/

/-- The live spares in the order in which they went live. -/
def State.liveOrder (s : State) (t a : Nat) : List Nat :=
  let live := (List.range 64).filter (fun k => s.flag (F.arrSpareMapValid t a k) && s.flag (F.arrSpareMapLive t a k))
  let seq := (s.arr t a).liveSeq.filter live.contains
  live.filter (fun k => !seq.contains k) ++ seq

/-- The last of the pairs of each target. -/
def lastByTarget : List (Nat × Nat) → List (Nat × Nat)
  | [] => []
  | e :: l => if l.any (fun x => x.1 = e.1) then lastByTarget l else e :: lastByTarget l

/-- The spares in use: target and spare bit-column (Table 2.13). Of two live ones of one target the later is used (R66). -/
def State.spares (s : State) (t a : Nat) : List (Nat × Nat) :=
  lastByTarget ((s.liveOrder t a).map (fun k => (s.getF (F.arrSpareMapTarget t a k), spareCol k)))

/-- A row as the port and the converters see it: every spared column read from its spare. -/
def viewRow (sp : List (Nat × Nat)) (r : Row) : Row := sp.foldl (fun v x => v.setCol x.1 (r.col x.2)) r

/-- The sum of a row's weights (R46). -/
def rowSum (mode : Nat) (data : BitVec 1024) : Int :=
  (List.range (groupCount mode)).foldl (fun n j => n + weightAt mode data j) 0

/-- The parity bits of a row's words (R24). -/
def rowParity (data : BitVec 1024) : BitVec 16 :=
  (List.range 16).foldl (fun p g => setBit p g (oddOnes 64 (data.toNat / 2 ^ (64 * g)))) 0

/-- The data that the port writes: in W3 data bit-column d1023 is written as 0 (R43). -/
def portData (mode : Nat) (data : BitVec 1024) : BitVec 1024 := if mode = 1 then setBit data 1023 false else data

/-- The row after the port has written 16 data words (R43, R56): parity, check value and the live spares with it. -/
def writeRow (mode : Nat) (sp : List (Nat × Nat)) (r : Row) (data : BitVec 1024) : Row :=
  let data := portData mode data
  let n := { r with data := data, parity := rowParity data, check := BitVec.ofInt 12 (rowSum mode data) }
  sp.foldl (fun v x => if (colKind x.1).1 = 4 then v else v.setCol x.2 (n.col x.1)) n

/-- The mode of an array. -/
def State.mode (s : State) (t a : Nat) : Nat := modeOf (s.getR (R.arrCfg t a))
/-- The segment size of an array. -/
def State.segSize (s : State) (t a : Nat) : Nat := segOf (s.getR (R.arrCfg t a))

/-- Row i of an array as the port sees it. -/
def State.view (s : State) (t a i : Nat) : Row := viewRow (s.spares t a) ((s.arr t a).row i)

/-- The words whose parity column is being copied to a spare: they are verified by the check value instead (R360). -/
def State.parSkip (s : State) (t a : Nat) : List Nat :=
  (s.arr t a).fills.filterMap (fun f => if (colKind f.target).1 = 1 then some (colKind f.target).2 else none)

/-- Some word of a viewed row fails its parity. -/
def parityBad (skip : List Nat) (v : Row) : Bool :=
  (List.range 16).any (fun g => !skip.contains g && (oddOnes 64 (v.data.toNat / 2 ^ (64 * g)) != v.parity.getLsbD g))

/-- A viewed row fails its check value. -/
def checkBad (mode : Nat) (v : Row) : Bool := v.check ≠ BitVec.ofInt 12 (rowSum mode v.data)

/-- A port read of row i meets a mismatch (R59, R360). -/
def State.portBad (s : State) (t a i : Nat) : Bool :=
  let v := s.view t a i
  let skip := s.parSkip t a
  parityBad skip v || (!skip.isEmpty && checkBad (s.mode t a) v)

/-- The scrub's two checks of row i (R61). -/
def State.scrubBad (s : State) (t a i : Nat) : Bool :=
  s.portBad t a i || checkBad (s.mode t a) (s.view t a i)

/-- ARR_SCRUB shows the suspect rows (Table 2.12). -/
def State.showSuspects (s : State) (t a : Nat) : State :=
  let l := (s.arr t a).suspects
  (s.setFlag (F.arrScrubSuspect t a) (!l.isEmpty)).setF (F.arrScrubSuspectRow t a) (l.headD 0)

/-- Mark row i suspect (R62). -/
def State.markSuspect (s : State) (t a i : Nat) : State :=
  (s.modArr t a (fun x => if x.suspects.contains i then x else
    { x with suspects := x.suspects.filter (· < i) ++ i :: x.suspects.filter (i < ·) })).showSuspects t a

/-! ## The weight-sum file (R29) -/

/-- The entries of a block after a row of it changed from `old` to `new`. -/
def ArrSt.sumRow (x : ArrSt) (mode i : Nat) (old new : BitVec 1024) : ArrSt :=
  let b := 512 * (i / 64)
  { x with wsum := Sparse.setRange (fun _ => 0) x.wsum b (groupCount mode) (fun j =>
      Sparse.get (fun _ => 0) x.wsum (b + j) + BitVec.ofInt 10 (weightAt mode new j - weightAt mode old j)) }

/-- Recompute the entries of the block of row i from its 64 rows as the port reads them; a row that fails its read is suspect. -/
def State.resum (s : State) (t a i : Nat) : State :=
  let mode := s.mode t a
  let lo := 64 * (i / 64)
  let data := (List.range 64).map (fun r => (s.view t a (lo + r)).data)
  let s' := s.modArr t a (fun x => { x with
    wsum := Sparse.setRange (fun _ => 0) x.wsum (512 * (i / 64)) (groupCount mode) (fun j =>
      BitVec.ofInt 10 (data.foldl (fun n d => n + weightAt mode d j) 0)) })
  s'.each ((List.range 64).filter (fun r => s.scrubBad t a (lo + r))) (fun s r => s.markSuspect t a (lo + r))

/-- The array takes a storage mode (Table 2.8). When the mode's groups change, the sums of the rows as they stand are formed anew
with the new mode's groups, so that the differences of later row writes start from exact sums (R29). -/
def State.setMode (s : State) (t a mode : Nat) : State :=
  let old := s.mode t a
  let s := s.setF (F.arrCfgMode t a) mode
  let new := s.mode t a
  if groupBits old = groupBits new then s
  else s.each (List.range 16) (fun s b => s.modArr t a (fun x =>
    let data := (List.range 64).map (fun r => (s.view t a (64 * b + r)).data)
    { x with wsum := Sparse.setRange (fun _ => 0) x.wsum (512 * b) 512 (fun j =>
        if j < groupCount new then BitVec.ofInt 10 (data.foldl (fun n d => n + weightAt new d j) 0) else 0) }))

/-- The port writes row i (R29, R56). -/
def State.putRow (s : State) (t a i : Nat) (data : BitVec 1024) : State :=
  let mode := s.mode t a
  let bad := s.scrubBad t a i
  let old := (s.view t a i).data
  let sp := s.spares t a
  let s := s.modArr t a (fun x =>
    (x.setRow i (writeRow mode sp (x.row i) data)).sumRow mode i old data)
  (s.when bad (fun s => s.resum t a i)).count t 0x015 a none 1

/-- The sum of a weight group over the segment that starts at row lo (R29). -/
def ArrSt.segSum (x : ArrSt) (lo size j : Nat) : Int :=
  (List.range (size / 64)).foldl (fun n b => n + (Sparse.get (fun _ => 0) x.wsum (512 * (lo / 64 + b) + j)).toInt) 0

/-! ## The scale file (R60) -/

/-- Word w of the scale file. -/
def ArrSt.scaleWord (x : ArrSt) (w : Nat) : PWord := Sparse.get (fun _ => {}) x.scale w
/-- Scale byte b. -/
def ArrSt.scaleByte (x : ArrSt) (b : Nat) : Nat := (x.scaleWord (b / 8)).data.toNat / 2 ^ (8 * (b % 8)) % 256
/-- Scale line l as 64 bytes. -/
def ArrSt.line (x : ArrSt) (l : Nat) : Bytes := (List.range 64).map (fun b => BitVec.ofNat 8 (x.scaleByte (64 * l + b)))
/-- A word of a scale line fails its parity. -/
def ArrSt.lineBad (x : ArrSt) (l : Nat) : Bool := (List.range 8).any (fun w => !(x.scaleWord (8 * l + w)).good)
/-- Write a scale line. -/
def ArrSt.setLine (x : ArrSt) (l : Nat) (bs : Bytes) : ArrSt :=
  { x with scale := Sparse.setRange (fun _ => {}) x.scale (8 * l) 8 (fun w => PWord.mk' (BitVec.ofNat 64 (fieldAt bs (8 * w) 8))) }

/-! ## Conversions (R27 to R33, R97) -/

/-- The index of a range among 96, 192, 384 and 768. -/
def rangeIdx (range : Nat) : Nat := if range < 192 then 0 else if range < 384 then 1 else if range < 768 then 2 else 3

/-- The range of a layer slot's RANGE, held to the segment's coarsest (R31). -/
def rangeOf (code size : Nat) : Nat := min (96 * 2 ^ code) (3 * size)

/-- The coefficients of a converter at a range in a bank (R34, R65). -/
def ArrSt.coef (x : ArrSt) (bank range q p : Nat) : Coef :=
  Sparse.get (fun _ => {}) x.coefs (((bank * 4 + rangeIdx range) * 4 + q) * 1120 + p)

/-- One conversion (R32, R33): the segment sum, the converter's error in units of 1/1,024 step, its coefficients. The answer is the
snapped value, or for a saturated conversion the end of the interval that R110 gives it, and which guard fired (true: top). -/
def convert (k : Coef) (range size sum : Nat) (err : Int) : Nat × Option Bool :=
  let full := 1024 * range
  let x : Int := (sum : Int) * 131072 + err * range
  let coarse := decide (range = 3 * size)
  if x < -(512 * (range : Int)) then (0, some false)
  else if ((if coarse then 132 else 128) * full : Nat) ≤ x then (3 * size, some true)
  else
    let c := min (if coarse then 128 else 127) (x.toNat / full)
    let v := rneDiv ((64 * (c : Int) + 32 - k.o.toInt) * (2048 + k.g.toInt) * range) 16777216
    (min v.toNat (3 * size), none)

/-- The code of a conversion without correction, for calibration (R113). -/
def calCode (range sum : Nat) (err : Int) : Nat :=
  let x : Int := (sum : Int) * 131072 + err * range
  min 127 (x.toNat / (1024 * range))

/-- The sum that a bit-column of a segment gives for the drive levels of its rows (R28). -/
def ArrSt.colSum (x : ArrSt) (sp : List (Nat × Nat)) (c lo size : Nat) (lvl : Nat → Nat) : Nat :=
  let p := (sp.lookup (physCol c)).getD (physCol c)
  (List.range size).foldl (fun n i => if (x.row (lo + i)).col p then n + lvl (lo + i) else n) 0

/-- The bit-columns that a mode converts: the data columns (all but d1023 in W3, R43) and the check columns. -/
def convCols (mode : Nat) : List Nat := (List.range 1036).filter (fun c => !(mode = 1 && c = 1023))

/-- Element i of an A4 vector (R76). -/
def a4 (v : BitVec 4096) (i : Nat) : Int := signed 4 (v.toNat / 2 ^ (4 * i))

/-- The drive level of row i in a phase (R27). -/
def drive (v : BitVec 4096) (phaseH : Bool) (i : Nat) : Nat :=
  let u := (a4 v i + 8).toNat
  if phaseH then u / 4 else u % 4

/-- The values of all bit-columns of one conversion; a bit-column that is not converted has value 0. -/
def State.convertAll (s : State) (t a range lo size : Nat) (lvl : Nat → Nat) : List (Nat × Option Bool) :=
  let x := s.arr t a
  let sp := s.spares t a
  let bank := s.getF (F.arrCalStatusBank t a)
  let mode := s.mode t a
  (List.range 1036).map (fun c =>
    if mode = 1 ∧ c = 1023 then (0, none)
    else
      let p := (sp.lookup (physCol c)).getD (physCol c)
      convert (x.coef bank range (lo / 256) p) range size (x.colSum sp c lo size lvl) (Config.convError (2048 * s.free + p)))

/-! ## Narrow values (R30, R35 to R37, R45) -/

/-- The narrow value of physical group j from the snapped values of both phases, with the offset removed. -/
def groupNarrow (mode : Nat) (snapL snapH : List Nat) (wsum : Int) (j : Nat) : Int :=
  let n := groupBits mode
  (List.range n).foldl (fun (v : Int) i =>
    v + placeVal n i * ((snapL.getD (n * j + i) 0 : Int) + 4 * (snapH.getD (n * j + i) 0 : Int))) (-(8 * wsum))

/-- The check accumulator (R37). -/
def checkNarrow (snapL snapH : List Nat) (checks : Int) : Int :=
  (List.range 12).foldl (fun (v : Int) i =>
    v + placeVal 12 i * ((snapL.getD (1024 + i) 0 : Int) + 4 * (snapH.getD (1024 + i) 0 : Int))) (-(8 * checks))

/-- The logical narrow values from those of the groups: W4 paired halves the sum of the two copies (R45). -/
def logNarrow (mode : Nat) (g : List Int) : List Int :=
  if mode = 4 then (List.range 128).map (fun j => rneDiv (g.getD j 0 + g.getD (128 + j) 0) 2) else g

/-- A narrow value fits the 16-bit accumulator (R36). -/
def fits16 (v : Int) : Bool := decide (-32768 ≤ v) && decide (v ≤ 32767)

/-! ## Exact values (R92, R109) -/

/-- Row i as the DE takes it: a row that is suspect or fails its parity comes from the current image (R59, R62). -/
def State.exactRow (s : State) (t a i : Nat) : BitVec 1024 :=
  if (s.arr t a).suspects.contains i || s.portBad t a i then
    match s.arrImage t a with
    | some img => imageRow img i
    | none => (s.view t a i).data
  else (s.view t a i).data

/-- The DE reads rows through the port (R57, R59, R109): suspect rows come from the image and take no read; a row that fails its
parity is taken from the image, is reported as a word-parity fault, and waits for its rewrite alongside. -/
def State.deReads (s : State) (t a : Nat) (rows : List Nat) : State :=
  let port := rows.filter (fun i => !(s.arr t a).suspects.contains i)
  (s.count t 0x015 a none port.length).each (port.filter (s.portBad t a)) (fun s i => s.markSuspect t a i)

/-- The exact narrow values of a segment: the first copy in W4 paired (R109). -/
def State.exactNarrow (s : State) (t a lo size : Nat) (v : BitVec 4096) : List Int :=
  let mode := s.mode t a
  let rows := (List.range size).map (fun i => (s.exactRow t a (lo + i), a4 v (lo + i)))
  (List.range (logCols mode)).map (fun j => rows.foldl (fun n r => n + weightAt mode r.1 j * r.2) 0)

/-- Rows of a W4 paired segment whose two copies differ (R109). -/
def State.pairSplit (s : State) (t a lo size : Nat) : List Nat :=
  if s.mode t a ≠ 4 then []
  else (List.range size).map (lo + ·) |>.filter (fun i =>
    let d := s.exactRow t a i
    d.toNat % 2 ^ 512 ≠ d.toNat / 2 ^ 512)

/-- The check value of row i as the DE takes it: of a row that is suspect or fails its parity, that of the image's row (R62). -/
def State.exactRowCheck (s : State) (t a i : Nat) : Int :=
  if (s.arr t a).suspects.contains i || s.portBad t a i then (BitVec.ofInt 12 (rowSum (s.mode t a) (s.exactRow t a i))).toInt
  else (s.view t a i).check.toInt

/-- The exact sum of the check columns, from the check values that the DE takes (R62, R109). -/
def State.exactCheck (s : State) (t a lo size : Nat) (v : BitVec 4096) : Int :=
  (List.range size).foldl (fun n i => n + s.exactRowCheck t a (lo + i) * a4 v (lo + i)) 0

/-- The checks of an exact recomputation from the port's rows (R109): in W4 paired the rows whose two copies differ, and every row of
the segment when the check values do not give the sum of the exact values, are handled as suspect rows. -/
def State.exactChecks (s : State) (t a lo size : Nat) (v : BitVec 4096) : State :=
  let ex := s.exactNarrow t a lo size v
  let sumEx := if s.mode t a = 4 then 2 * ex.sum else ex.sum
  let rows := s.pairSplit t a lo size ++
    (if s.exactCheck t a lo size v = sumEx then [] else (List.range size).map (lo + ·))
  (s.deReads t a ((List.range size).map (lo + ·))).each rows (fun s i => s.markSuspect t a i)

/-- The exact sum of a bit-column in a phase (R358). -/
def State.exactCol (s : State) (t a c lo size : Nat) (lvl : Nat → Nat) : Nat :=
  (List.range size).foldl (fun n i =>
    let b := if c < 1024 then (s.exactRow t a (lo + i)).getLsbD c else (s.view t a (lo + i)).check.getLsbD (c - 1024)
    if b then n + lvl (lo + i) else n) 0

/-! ## Bounds (Tables 4.1 to 4.5) -/

/-- D_c of a range. -/
def dC (range : Nat) : Nat := match rangeIdx range with | 0 => 1 | 1 => 1 | 2 => 2 | _ => 5
/-- ⌈4.5 σ_c⌉ of a range. -/
def noise45 (range : Nat) : Nat := match rangeIdx range with | 0 => 2 | 1 => 3 | 2 => 5 | _ => 10
/-- The window W of a range. -/
def checkWin (range : Nat) : Nat := match rangeIdx range with | 0 => 20188 | 1 => 33866 | 2 => 64065 | _ => 126229
/-- A1 and A2 of a mode (Table 4.2). -/
def sumA1 (mode : Nat) : Nat := match mode with | 1 => 35 | 2 => 15 | 3 => 15 | _ => 75
/-- See `sumA1`. -/
def sumA2 (mode : Nat) : Nat := match mode with | 1 => 357 | 2 => 85 | 3 => 85 | _ => 1445

/-- The smallest k with k² ≥ num / den. -/
def sqrtUp (num den : Nat) : Nat :=
  let k := isqrtAux (num / den) 20 0
  if num ≤ k * k * den then k else k + 1

/-- The stated bound B_n (R99): S + ⌈3 σ_n⌉, with 3 σ_n = 1.05 step √(A2 / (n p)). -/
def boundB (mode range n : Nat) : Nat :=
  let p := if mode = 4 then 2 else 1
  sumA1 mode * dC range + sqrtUp ((105 * range) ^ 2 * sumA2 mode) (163840000 * n * p)

/-! ## Calibration (R64, R111 to R115) -/

/-- Blend: the coefficient that a calibration keeps from the exact raw value num / den, with α = 1 / 2^k (R113). -/
def blend (old : BitVec 8) (num : Int) (den k : Nat) : BitVec 8 :=
  BitVec.ofInt 8 (max (-128) (min 127
    (Config.coefRound (old.toInt * ((2 ^ k - 1 : Nat) : Int) * den + num) (den * 2 ^ k))))

/-- The coefficients from the codes of the low and the high point, each n codes summed: 16 and 112 steps are the points' sums, so
1 + γ = 96 / (kH - kL) and o = kL + 1/2 - (kH - kL) / 6. -/
def calCoef (old : Coef) (n kL kH k : Nat) : Coef where
  o := blend old.o (64 * (6 * (kL : Int) + 3 * n - ((kH : Int) - kL))) (6 * n) k
  g := blend old.g (2048 * (96 * (n : Int) - ((kH : Int) - kL))) (kH - kL) k

/-- The α of a kind of calibration as a power of one half. -/
def CalKind.alpha : CalKind → Nat
  | .routine => 3 | .forced => 1 | .initial => 0

/-- A calibration of the array pauses while a reference column is being copied to a spare (R360). -/
def ArrSt.calPaused (x : ArrSt) : Bool := x.fills.any (fun f => (colKind f.target).1 = 4)

/-- The swap of the coefficient banks (R65, R113): CAL_TEMP takes the tile temperature, the range latch clears, and exact
recomputation ends. -/
def State.calSwap (s : State) (t a : Nat) : State :=
  let s := s.setF (F.arrCalStatusBank t a) (1 - s.getF (F.arrCalStatusBank t a))
  let s := s.setF (F.arrCalStatusCalTemp t a) (s.getF (F.thmSensTemp t))
  let s := (s.setFlag (F.arrStatusRangeLatched t a) false).setF (F.arrCalStatusSetsDone t a) 0
  s.modArr t a (fun x => { x with cal := none, exact := false })

/-- One calibration set (R64, R111): range in the outer loop, quarter inside it, the low point before the high one. A reserved CAL
slot that comes while a forced calibration runs makes the next set of that calibration (DESIGN CHOICE, log entry 66: the spec says
nothing of such a slot). -/
def State.calSet (s : State) (t a : Nat) : State :=
  let x := s.arr t a
  if x.calPaused then s
  else
    let c := x.cal.getD {}
    let k := s.getF (F.arrCalStatusSetsDone t a)
    let range := 96 * 2 ^ (k / 8)
    let q := k / 2 % 4
    let bank := s.getF (F.arrCalStatusBank t a)
    let e := fun (p : Nat) => Config.convError (2048 * s.free + p)
    let x' :=
      if k % 2 = 0 then
        { x with cal := some { c with low := (List.range 1120).map (fun p => (p, calCode range (range / 8) (e p))) } }
      else
        { x with
          cal := some { c with low := [] }
          coefs := Sparse.setRange (fun _ => {}) x.coefs ((((1 - bank) * 4 + rangeIdx range) * 4 + q) * 1120) 1120 (fun p =>
            calCoef (x.coef bank range q p) 1 ((c.low.lookup p).getD 0) (calCode range (7 * range / 8) (e p)) c.kind.alpha) }
    let s := (s.setArr t a x').fresh
    if k = 31 then s.calSwap t a else s.setF (F.arrCalStatusSetsDone t a) (k + 1)

/-- Start a forced calibration (R113, R115) for a temperature difference; while one or an initial one runs the request is dropped;
during a supply warning and its hold it waits (R359). -/
def State.forceCal (s : State) (t a dT : Nat) : State :=
  match (s.arr t a).cal with
  | some ⟨.forced, _⟩ => s
  | some ⟨.initial, _⟩ => s
  | _ =>
    if s.supplyActive then s.modArr t a (fun x => { x with calDue := true })
    else
      ((s.modArr t a (fun x => { x with
          cal := some { kind := .forced }, calDue := false, exact := x.exact || x.exactDue, exactDue := false })).setF
        (F.arrCalStatusSetsDone t a) 0).logTile t a 0x0F11 (detail 0x0F11 [a, dT])

/-- Start a canary (R116, R118). A canary that repeats a failed one stays a repeat when another event asks for a canary (R119). -/
def State.startCanary (s : State) (t a : Nat) (again : Bool) : State :=
  (s.modArr t a (fun x => { x with
    canary := some { again := again || (match x.canary with | some c => c.again | none => false) } })).setFlag (F.arrCanaryRunning t a) true

/-! ## Canary vectors (R117) -/

/-- The layer slot of a layer in the loaded program of partition n: an empty one where the program has none. -/
def State.slotOfLayer (s : State) (n layer : Nat) : LayerSlot :=
  (((s.prt n).prog.bind (fun p => p.layers.find? (fun e => e.layer = layer)))).getD {}

/-- The conversion range of an array's canary: that which the program declares for the array's layer. -/
def State.canaryRange (s : State) (t a : Nat) : Nat :=
  let layer := match s.place t a with
    | some p => (p.1.man.bind (·.layerOf p.2)).map ManLayer.layer
    | none => none
  rangeOf (match layer with | some l => (s.slotOfLayer (s.ownerOf t) l).range | none => 0) (s.segSize t a)

/-- The sum that a bit-column of rows gives for the drive levels (R28). -/
def rowsSum (rows : Nat → Row) (c lo size : Nat) (lvl : Nat → Nat) : Nat :=
  (List.range size).foldl (fun n i => if (rows (lo + i)).col (physCol c) then n + lvl (lo + i) else n) 0

/-- No conversion sum of a vector exceeds 7/8 of the range. -/
def canaryFits (mode size range : Nat) (rows : Nat → Row) (v : BitVec 4096) : Bool :=
  (List.range (1024 / size)).all (fun k => (convCols mode).all (fun c =>
    [false, true].all (fun ph => decide (8 * rowsSum rows c (k * size) size (drive v ph) ≤ 7 * range))))

/-- Take rows out of a canary vector, highest first, until every conversion sum fits. A row that is taken out is not driven. -/
def trimCanary (mode size range : Nat) (rows : Nat → Row) : Nat → BitVec 4096 → BitVec 4096
  | 0, v => v
  | n + 1, v =>
    if canaryFits mode size range rows v then v
    else trimCanary mode size range rows n
      ((v &&& ~~~ BitVec.ofNat 4096 (15 * 2 ^ (4 * n))) ||| BitVec.ofNat 4096 (8 * 2 ^ (4 * n)))

/-- The canary vector of array a of tile t for rows, from the seed 128 t + a. -/
def canaryVecOf (t a mode size range : Nat) (rows : Nat → Row) : BitVec 4096 :=
  trimCanary mode size range rows 1024 (Config.canaryVec (128 * t + a))

/-- The exact narrow values of a vector over rows: segment s, column j at s C + j; the first copy in W4 paired. -/
def canaryValues (mode size : Nat) (rows : Nat → Row) (v : BitVec 4096) : List Int :=
  (List.range (1024 / size)).flatMap (fun k => (List.range (logCols mode)).map (fun j =>
    (List.range size).foldl (fun n i => n + weightAt mode (rows (k * size + i)).data j * a4 v (k * size + i)) 0))

/-- The rows of an array image as the port writes them. -/
def imageRows (mode : Nat) (img : Bytes) (i : Nat) : Row := writeRow mode [] {} (imageRow img i)

/-- An entry of the canary table: 16-bit values, rounded up to a multiple of 512 bytes. -/
def canaryEntry (vals : List Int) : Bytes :=
  let b := vals.flatMap (fun v => leBytes 2 (BitVec.ofInt 16 v).toNat)
  b ++ List.replicate ((512 - b.length % 512) % 512) 0

/-- The canary table's entry of an array image. -/
def imageCanary (t a mode size range : Nat) (img : Bytes) : Bytes :=
  canaryEntry (canaryValues mode size (imageRows mode img) (canaryVecOf t a mode size range (imageRows mode img)))

/-- The rows that an array's canary is made for: those of its current image, else its cells as the port reads them. -/
def State.canaryRows (s : State) (t a : Nat) : Nat → Row :=
  match s.arrImage t a with
  | some img => imageRows (s.mode t a) img
  | none => s.view t a

/-- The canary vector of an array. -/
def State.canaryVec (s : State) (t a range : Nat) : BitVec 4096 :=
  canaryVecOf t a (s.mode t a) (s.segSize t a) range (s.canaryRows t a)

/-! ## Column repair (R66, R67, R358 to R361) -/

/-- Free spares of an array. -/
def State.freeSpares (s : State) (t a : Nat) : List Nat :=
  (List.range 64).filter (fun k => !s.flag (F.arrSpareMapValid t a k))

/-- The spare that a repair of bit-column p takes (R66): of its own group, else of the nearest one, the lower group on a tie. -/
def State.pickSpare (s : State) (t a p : Nat) : Option Nat :=
  let g := p / 70
  let free := s.freeSpares t a
  (List.range 16).findSome? (fun d =>
    (if d ≤ g then free.find? (fun k => k / 4 = g - d) else none) <|> free.find? (fun k => k / 4 = g + d))

/-- The logical column that a data bit-column belongs to. -/
def colLogical (mode c : Nat) : Option Nat :=
  if mode = 1 ∧ c = 1023 then none else some (c / groupBits mode % logCols mode)

/-- The logical columns of an array that are under cover: while a spare fills, and those of a failed canary (R119, R360, R361). -/
def ArrSt.deCols (x : ArrSt) : List Nat := (x.cover ++ x.failCols).eraseDups

/-- The cover of array a of tile t has become what its state says: the tile's list keeps the order in which its columns came (R361). -/
def State.recover (s : State) (t a : Nat) : State :=
  let now := (s.arr t a).deCols
  let new := now.filter (fun j => !(s.tile t).covers.contains (a, j))
  (s.modTile t (fun x => { x with
    covers := x.covers.filter (fun e => e.1 ≠ a || now.contains e.2) ++ new.map (fun j => (a, j)) })).when (!new.isEmpty) (fun s =>
      s.modArr t a (fun x => { x with coverNew := true }))

/-- The columns of an array that the tile covers, of which there are at most 16 (R361). -/
def State.coverHeld (s : State) (t a : Nat) : List Nat :=
  (((s.tile t).covers.take 16).filter (fun e => e.1 = a)).map Prod.snd

/-- A column of the array is beyond the sixteenth that the tile would cover (R361). -/
def State.coverOver (s : State) (t a : Nat) : Bool := ((s.tile t).covers.drop 16).any (fun e => e.1 = a)

/-- The DE covers the logical column of a bit-column while its spare fills (R360, R361). -/
def State.coverFor (s : State) (t a p : Nat) : State :=
  match colKind p with
  | (0, c) => match colLogical (s.mode t a) c with
    | some j => (s.modArr t a (fun x => { x with cover := (x.cover ++ [j]).eraseDups })).recover t a
    | none => s
  | _ => s

/-- The logical columns whose bit-columns the fills under way copy. -/
def State.fillCols (s : State) (t a : Nat) : List Nat :=
  (s.arr t a).fills.filterMap (fun f =>
    if f.release then none
    else match colKind f.target with
      | (0, c) => colLogical (s.mode t a) c
      | _ => none)

/-- The cover for a bit-column ends, unless another fill covers the same logical column. -/
def State.uncoverFor (s : State) (t a p : Nat) : State :=
  match colKind p with
  | (0, c) => match colLogical (s.mode t a) c with
    | some j => s.when (!(s.fillCols t a).contains j) (fun s =>
        (s.modArr t a (fun x => { x with cover := x.cover.filter (· ≠ j) })).recover t a)
    | none => s
  | _ => s

/-- Start to copy a column to spare k (R66, R70). -/
def State.startFill (s : State) (t a k p : Nat) : State :=
  let s := s.setR (R.arrSpareMap t a k) (BitVec.ofNat 32 (2 ^ 31 + p))
  let s := s.setF (F.arrStatusSparesFree t a) (s.freeSpares t a).length
  (s.modArr t a (fun x => { x with fills := x.fills ++ [FillSt.mk k p false] })).coverFor t a p

/-- Repair a faulty bit-column (R66), logged as `code`; with no free spare the array is a failed unit (R67). While a supply warning
and its hold are in force nothing is repaired, and the event is logged with the supply-caused flag (R359). -/
def State.repairCol (s : State) (t a p code : Nat) : State :=
  if s.supplyActive then s.logTile t a code (detail code [p])
  else
    match s.pickSpare t a p with
    | some k => (s.startFill t a k p).logTile t a code (detail code [p, k])
    | none => (s.setFlag (F.arrStatusExhausted t a) true).failTile t a

/-- A register's word goes into the repair map of the configuration record (R66, R153). -/
def State.saveRepair (s : State) (r : Reg) : State :=
  { s with firn := { s.firn with cfg := { s.firn.cfg with
      repair := Sparse.set (fun _ => 0) s.firn.cfg.repair r.addr (s.getR r) } } }

/-- A spare's entry of the repair map in the configuration record (R66, R67). The model writes it when the spare goes live and when it
is released, and not while its copy runs (DESIGN CHOICE, log entry 66: R67 names no time). -/
def State.saveSpare (s : State) (t a k : Nat) : State := s.saveRepair (R.arrSpareMap t a k)

/-- The spare is filled, verified and live (R66): in every row it holds what the port reads at its target. -/
def State.spareGoesLive (s : State) (t a k : Nat) : State :=
  match (s.arr t a).fills.find? (fun f => f.spare = k && !f.release) with
  | none => s
  | some f =>
    let x := s.arr t a
    let sp := s.spares t a
    let x := (List.range 1024).foldl (fun x i => x.setRow i ((x.row i).setCol (spareCol k) ((viewRow sp (x.row i)).col f.target))) x
    let s := s.setArr t a { x with fills := x.fills.filter (fun g => g.spare ≠ k), liveSeq := x.liveSeq.filter (· ≠ k) ++ [k] }
    ((s.setFlag (F.arrSpareMapLive t a k) true).uncoverFor t a f.target).saveSpare t a k

/-- The spare is released at the beat boundary (R70): TARGET keeps its value (Table 2.13). -/
def State.spareReleased (s : State) (t a k : Nat) : State :=
  let p := s.getF (F.arrSpareMapTarget t a k)
  let s := (s.setFlag (F.arrSpareMapValid t a k) false).setFlag (F.arrSpareMapLive t a k) false
  let s := s.modArr t a (fun x => { x with fills := x.fills.filter (fun g => g.spare ≠ k) })
  ((s.setF (F.arrStatusSparesFree t a) (s.freeSpares t a).length).uncoverFor t a p).saveSpare t a k

/-- A write of ARR_SPARE_MAPk (Table 2.13, R70). TARGET is RW: with VALID 0 on an unassigned spare it is stored alone. A write whose
TARGET names a spare bit-column, or none of the 1,120, is ignored whole, VALID included (DESIGN CHOICE, log entry 66: Table 2.13 says
only that the value is ignored). -/
def State.writeSpare (s : State) (t a k : Nat) (w : Word) : State :=
  let valid := s.flag (F.arrSpareMapValid t a k)
  let p := bitsOf w 10 0
  if w.getLsbD 31 then
    if valid || 1120 ≤ p || (colKind p).1 = 2 then s else s.startFill t a k p
  else if valid then
    s.modArr t a (fun x => { x with
      fills := x.fills.filter (fun g => g.spare ≠ k) ++ [FillSt.mk k (s.getF (F.arrSpareMapTarget t a k)) true] })
  else if 1120 ≤ p || (colKind p).1 = 2 then s
  else s.setF (F.arrSpareMapTarget t a k) p

end Sys2Proof.Machine
end

