-- ==== Sys2Proof/Machine/Multiply.lean ====
section
/-! DEFINITION. Actions of the beat program: when one can issue (R164) and how its unit-beats are counted (R458 to R460); and the
multiply of an array from its start to its result (R40, R47 to R55, R104 to R110, R120 to R123). -/

namespace Sys2Proof.Machine

/-! ## Issue of actions -/

/-- Whether an action can issue (R164), and if not which kind of condition fails (R459). -/
inductive Ready where
  | ok | front | back | busy
  deriving DecidableEq, Repr

/-- The first condition of a list that fails decides. -/
def Ready.all : List Ready → Ready
  | [] => .ok
  | .ok :: rs => Ready.all rs
  | r :: _ => r

/-- A condition of a kind. -/
def Ready.need (b : Bool) (r : Ready) : Ready := if b then .ok else r

/-- The code of a wait. -/
def Ready.code : Ready → Nat
  | .ok => 0 | .front => 1 | .back => 2 | .busy => 3

/-- The beat word waits one release (R459). -/
def State.wait (s : State) (t : Nat) (r : Ready) : State :=
  s.modTile t (fun x => { x with seq := { x.seq with waits := x.seq.waits + 1, waitLast := r.code } })

/-- Add to a unit's beats of a class in the window. -/
def addAt (m : Sparse Nat) (u n : Nat) : Sparse Nat := Sparse.set (fun _ => 0) m u (Sparse.get (fun _ => 0) m u + n)

/-- An action of unit u with its declared occupancy has issued (R458, R459). -/
def State.issued (s : State) (t u occ : Nat) : State :=
  s.modTile t (fun x =>
    let d := min x.seq.waits occ
    { x with
      sched := addAt x.sched u occ
      front := if x.seq.waitLast = 1 then addAt x.front u d else x.front
      back := if x.seq.waitLast = 2 then addAt x.back u d else x.back })

/-- Unit-beats of the window that turn out wasted (R459). -/
def State.waste (s : State) (t u n : Nat) : State := s.modTile t (fun x => { x with wasted := addAt x.wasted u n })

/-- The next beat word starts with no wait. -/
def State.unwait (s : State) (t : Nat) : State :=
  s.modTile t (fun x => { x with seq := { x.seq with waits := 0, waitLast := 0 } })

/-- The tile's units work: its domain is on, it is present and has not failed, and the module's units run. -/
def State.tileRuns (s : State) (t : Nat) : Bool := s.tileOn t && !(s.tile t).failed && !s.pwr.stopped

/-- An action of the beat program: its unit, its declared occupancy, whether it can issue, the store bytes that it reads or
merges with (offset and length), what it asks for when it cannot issue, and its effect. -/
structure Action where
  unit : Nat
  occ : Nat
  ready : Ready
  reads : List (Nat × Nat) := []
  ask : State → State := id
  run : State → State

/-- The bytes of an access that a suppressed access does not reach (R130). -/
def State.soundAt (s : State) (t : Nat) (r : Nat × Nat) : Bool := !s.actOk t r.1 r.2 || (s.tile t).sound r.1 r.2

/-- Whether an action can issue, its store words being sound (R131, R164). -/
def State.actReady (s : State) (t : Nat) (a : Action) : Ready :=
  match a.ready with
  | .ok => .need (a.reads.all (s.soundAt t)) .front
  | r => r

/-- An action that cannot issue asks for what it waits for: the restore of its bad words, and a waiting operation's place at its
object's home. -/
def State.actAsk (s : State) (t : Nat) (a : Action) : State :=
  a.ask (s.each (a.reads.filter (fun r => !s.soundAt t r)) (fun s r => s.askRestore t r.1 r.2))

/-- One action: it issues with its effect, or its beat word waits (R164). -/
def State.act (s : State) (t : Nat) (a : Action) : State :=
  if !s.tileRuns t then s
  else match s.actReady t a with
    | .ok => ((a.run s).issued t a.unit a.occ).unwait t
    | r => (s.actAsk t a).wait t r

/-- The partial words at the ends of n bytes from o, which a write merges with (R131). -/
def partialWords (o n : Nat) : List (Nat × Nat) :=
  (if o % 8 = 0 then [] else [(8 * (o / 8), 8)]) ++ (if (o + n) % 8 = 0 then [] else [(8 * ((o + n) / 8), 8)])

/-! ## Operand records (R179) -/

/-- The operand entry that a record of 2,560 bytes gives. -/
def opEntry (b : Bytes) (src : Nat) : OpEntry :=
  let counts := (List.range 16).map (fun i => fieldAt b (528 + i) 1)
  { vec := BitVec.ofNat 4096 (fieldAt b 0 512)
    scales := BitVec.ofNat 128 (fieldAt b 512 16)
    counts := counts
    rscales := BitVec.ofNat 128 (fieldAt b 544 16)
    rmask := BitVec.ofNat 16 (fieldAt b 560 2)
    resid := BitVec.ofNat 4096 (fieldAt b 1024 512)
    descs := (List.range (min 256 counts.sum)).map (fun i =>
      (fieldAt b (1536 + 4 * i) 2 % 1024, BitVec.ofNat 16 (fieldAt b (1538 + 4 * i) 2)))
    src := src }

/-- A record whose descriptor counts sum to more than 256 is invalid (R179). -/
def OpEntry.invalid (e : OpEntry) : Bool := 256 < e.counts.sum

/-- The descriptors of segment k, in the order of R121: ascending rows. -/
def OpEntry.descsOf (e : OpEntry) (k : Nat) : List (Nat × BitVec 16) :=
  ((e.descs.drop ((e.counts.take k).sum)).take (e.counts.getD k 0)).mergeSort (fun a b => a.1 ≤ b.1)

/-! ## The multiply -/

/-- The layer slot of the program of the partition that owns a tile (Table 6.2). -/
def State.layerSlot (s : State) (t k : Nat) : LayerSlot :=
  match (s.prt (s.ownerOf t)).prog with
  | some p => p.layers.getD k {}
  | none => {}

/-- A scrub request. -/
def PortReq.isScrub : PortReq → Bool
  | .scrub _ => true
  | _ => false

/-- An access that firmware requested waits for the port: later requests queue behind it (R57). -/
def ArrSt.fwWaits (x : ArrSt) : Bool := x.portWait.any (fun r => !r.isScrub)

/-- A row write or scale line write by firmware waits for the port (R69). -/
def ArrSt.writesWait (x : ArrSt) : Bool :=
  x.portWait.any (fun r => match r with | .writeRow _ => true | .writeLine _ => true | _ => false)

/-- The last conversion of the multiply in progress has ended, and the DE has taken the rows that it reads (R57, R58): the last read of
the last segment waits for a scale line alone. Until its check has passed a read can still repeat. -/
def ArrSt.convDone (x : ArrSt) (segs : Nat) : Bool :=
  match x.mul with
  | none => true
  | some m =>
    (match m.wait with | .scaleLine _ => true | _ => false) && m.seg + 1 = segs && (m.residual || !m.entry.rmask.getLsbD m.seg)

/-- An array can start a multiply (R55, R58, R114). -/
def State.arrReady (s : State) (t a : Nat) : Ready :=
  let x := s.arr t a
  Ready.all [.need (!x.opQ.isEmpty) .front, .need (x.resQ.length < 2) .back,
    .need (x.mul.isNone && !x.writesWait && s.flag (F.arrStatusCalValid t a)) .busy]

/-- Start the multiply of one array (R39, R47, R51): at the layer's range, or at the coarsest while the range latch is set (R52). The
tile logs a mismatch once a window, whichever of its arrays meet one. The weights of columns that came under cover before are held by
now (DESIGN CHOICE, log entry 85: R361 gives the fetch no time). -/
def State.startMul (s : State) (t a lslot : Nat) (acc net : Bool) : State :=
  let cfg := s.getR (R.arrCfg t a)
  let l := s.layerSlot t lslot
  let size := segOf cfg
  let rsv := bitsOf cfg 14 12
  let range := rangeOf l.range size
  let mis := l.mode ≠ modeOf cfg || l.seg ≠ (if bitsOf cfg 9 8 = 3 then 0 else bitsOf cfg 9 8) || l.reserve ≠ rsv
  let s := s.when mis (fun s => (s.setFlag (F.arrStatusMismatch t a) true).logTileOnceAs t 0xFF a (code14 8) a)
  let cur := if s.flag (F.arrStatusRangeLatched t a) then 3 * size else range
  (s.modArr t a (fun x => { x with
    coverNew := false
    wide := if acc then x.wide else []
    mul := some { lslot := lslot, acc := acc, net := net, entry := x.opQ.headD {}, range := range, curRange := cur, reserve := rsv }
    })).count t 0x010 a (some lslot) 1

/-- Segments of an array's configuration. -/
def State.segs (s : State) (t a : Nat) : Nat := 1024 / s.segSize t a

/-- The vector and the scale byte of the read under way. -/
def MulSt.vec (m : MulSt) : BitVec 4096 := if m.residual then m.entry.resid else m.entry.vec
/-- See `MulSt.vec`. -/
def MulSt.scale (m : MulSt) : Nat :=
  (if m.residual then m.entry.rscales else m.entry.scales).toNat / 2 ^ (8 * m.seg) % 256

/-- The range at which the next conversion of the read starts: the coarsest while the latch is set (R52). -/
def State.startRange (s : State) (t a : Nat) (m : MulSt) : Nat :=
  if s.flag (F.arrStatusRangeLatched t a) then 3 * s.segSize t a else m.range

/-- The range of the conversion that is made now: a re-read's own, the latch as it stands now for every other one (R51, R52). -/
def State.convRange (s : State) (t a : Nat) (m : MulSt) : Nat :=
  if m.pend.isEmpty || s.flag (F.arrStatusRangeLatched t a) then s.startRange t a m else m.curRange

/-- A check column of the array is being copied to a spare (R360). -/
def ArrSt.checkFill (x : ArrSt) : Bool := x.fills.any (fun f => (colKind f.target).1 = 3)


/-- The segment from row lo is recomputed exactly by the DE (R62, R115, R358, R360), and until the weights of a covered column are
held (R361). -/
def ArrSt.exactSeg (x : ArrSt) (lo size : Nat) : Bool :=
  x.exact || x.checkFill || x.coverNew || x.suspects.any (fun i => lo ≤ i && i < lo + size)

/-- The segment is recomputed exactly by the DE: for a reason of its array's own, or because the tile covers 16 logical columns already
(R361). -/
def State.segExact (s : State) (t a lo size : Nat) : Bool := (s.arr t a).exactSeg lo size || s.coverOver t a

/-- Put the multiply's state. -/
def State.setMul (s : State) (t a : Nat) (m : MulSt) : State := s.modArr t a (fun x => { x with mul := some m })

/-- A phase is complete: phase H follows L, and after H the segment closes. -/
def State.phaseDone (s : State) (t a : Nat) (m : MulSt) : State :=
  if m.phaseH then s.setMul t a { m with closing := true }
  else s.setMul t a { m with phaseH := true, curRange := s.startRange t a m, pend := [] }

/-- Replay an operand entry from its source (R80, R179). -/
def State.replayOperand (s : State) (t a : Nat) (m : MulSt) : State :=
  let e := opEntry (s.stRead t m.entry.src 2560) m.entry.src
  (s.modArr t a (fun x => { x with opQ := e :: x.opQ.drop 1 })).setMul t a { m with entry := e, wait := .none }

/-- The values of a conversion, with what a re-read keeps of the first (R51). -/
def keepRead (pend : List Nat) (old : List Nat) (new : List (Nat × Option Bool)) : List Nat :=
  if pend.isEmpty then new.map Prod.fst
  else (List.range new.length).map (fun c => if pend.contains c then (new.getD c (0, none)).1 else old.getD c 0)

/-- The columns of a conversion that saturated. -/
def saturated (pend : List Nat) (new : List (Nat × Option Bool)) : List Nat :=
  (List.range new.length).filter (fun c => (pend.isEmpty || pend.contains c) && (new.getD c (0, none)).2.isSome)

/-- The re-read of a saturated conversion (R51, R52): its range, the reserve left, and whether it sets the range latch, the reserve being
spent. -/
def rereadAt (reserve range coarsest : Nat) : Nat × Nat × Bool :=
  if 0 < reserve then (min (2 * range) coarsest, reserve - 1, false) else (coarsest, 0, true)

/-- Count a re-read, which is elastic time, and set the range latch where it is due (R51, R52). -/
def State.reread (s : State) (t a : Nat) (ls : Option Nat) (latch : Bool) : State :=
  (((s.addF (F.arrSatCntRereads t a) 1).count t 0x012 a ls 1).elastic t 0 2).when latch (fun s =>
    (s.setFlag (F.arrStatusRangeLatched t a) true).addF (F.arrSatCntLatches t a) 1)

/-- Priority work of the DE begins (R144): it takes the multiply array ahead of slotted work. -/
def State.priority (s : State) (t n : Nat) : State := s.modTile t (fun x => { x with dePrio := x.dePrio + n })

/-- Priority work of the DE ends. -/
def State.priorityDone (s : State) (t : Nat) : State := s.modTile t (fun x => { x with dePrio := x.dePrio - 1 })

/-- A conversion of the multiply ends (R32, R33, R48 to R53). A phase with no level and a zero block are skipped and counted whether or
not the segment is left to the DE (R48, R49); a segment of which some phase was left to the DE is promoted from its exact values
(R62, R115). Columns that a failed canary has handed to the DE are priority work of it until the segment closes (R119, R144). -/
def State.conversion (s : State) (t a : Nat) (m : MulSt) : State :=
  let x := s.arr t a
  let size := s.segSize t a
  let lo := m.seg * size
  let lvl := drive m.vec m.phaseH
  let zero := List.replicate 1036 0
  let put := fun (m : MulSt) (v : List Nat) => if m.phaseH then { m with snapH := v } else { m with snapL := v }
  let exact := m.scale ≠ 0 && s.segExact t a lo size
  let m := { m with curRange := s.convRange t a m }
  let s := s.when (exact && !m.exactRead) (·.priority t 1)
  let m := { m with exactRead := m.exactRead || exact }
  let drift := m.scale ≠ 0 && !m.exactRead && !m.driftRead && !x.failCols.isEmpty
  let s := s.when drift (·.priority t 1)
  let m := { m with driftRead := m.driftRead || drift }
  if m.scale = 0 ∨ (List.range size).all (fun i => lvl (lo + i) = 0) then
    ((s.addF (F.arrSkipCntSkipped t a) 1).count t 0x011 a (some m.lslot) 1).phaseDone t a (put m zero)
  else if exact then s.phaseDone t a (put m zero)
  else
    let new := s.convertAll t a m.curRange lo size lvl
    let v := keepRead m.pend (if m.phaseH then m.snapH else m.snapL) new
    let sat := saturated m.pend new
    let m := put { m with coarsest := max m.coarsest m.curRange } v
    let s := s.fresh
    if sat.isEmpty then s.phaseDone t a m
    else if m.curRange = 3 * size then s.phaseDone t a { m with failed := true }
    else
      let r := rereadAt m.reserve m.curRange (3 * size)
      (s.reread t a (some m.lslot) r.2.2).setMul t a { m with pend := sat, reread := true, curRange := r.1, reserve := r.2.1 }

/-- A 2-beat conversion slot of array a ends. -/
def State.conversionEnd (s : State) (t a : Nat) : State :=
  match (s.arr t a).mul with
  | none => s
  | some m =>
    if m.closing then s
    else match m.wait with
      | .replay => s.replayOperand t a m
      | .scaleLine _ => s
      | .arbitration => s
      | .none =>
        if m.entry.invalid || m.scale = 0xFF then
          ((s.setFlag (F.arrStatusScaleInvalid t a) true).logTile t a 0x0F01 m.seg).setMul t a { m with wait := .replay }
        else s.conversion t a m

/-- Begin the next read of the multiply, or end it: the residual read of the segment, the next segment, or the result entry and the
operand's credit (R54, R55, R123). -/
def State.nextRead (s : State) (t a : Nat) (m : MulSt) : State :=
  let m0 : MulSt := { lslot := m.lslot, acc := m.acc, net := m.net, entry := m.entry, seg := m.seg, range := m.range,
                      reserve := m.reserve }
  let m0 := { m0 with curRange := s.startRange t a m0 }
  if !m.residual && m.entry.rmask.getLsbD m.seg then
    ((s.satF (F.vuReventResidual t m.lslot) 1).elastic t 0 4).setMul t a { m0 with residual := true }
  else if m.seg + 1 < s.segs t a then s.setMul t a { m0 with seg := m.seg + 1 }
  else
    s.modArr t a (fun x => { x with
      mul := none
      opQ := x.opQ.drop 1
      resQ := x.resQ ++ [ResEntry.mk ((List.range (logCols (s.mode t a))).map (fun j => Sparse.get (fun _ => 0) x.wide j))
        m.net m.lslot] })

/-! ## Checks and votes -/

/-- The position of the beat word under way. -/
def State.pos (s : State) (t : Nat) : Nat := s.getF (F.tileSeqPosPos t)

/-- An action of unit u whose results have been checked (Table 13.3): `src` is the unit in SOURCE, `rep` and `votes` its counts,
`spare` puts the spare of an element into use and answers its number, none when it is taken. `run` writes the result. -/
def State.checked (s : State) (t u src occ : Nat) (rep votes : FieldRef) (spare : State → Nat → Option (State × Nat)) (chk : Chk)
    (run : State → State) : State :=
  let s1 := (((s.addF rep 1).count t 0x040 0 none 1).waste t u occ).elastic t u (occ + 1)
  let s2 := (s1.addF votes 1).elastic t u (occ + 1)
  match chk with
  | .pass => run s
  | .replayPassed => (run s1).logTile t src 0x0F01 (s.pos t)
  | .checker el =>
    if s.supplyActive then (run s2).logTile t src 0x0F04 (detail 0x0F04 [el])
    else match spare s2 el with
      | some s3 => (run s3.1).logTile t src 0x0F04 (detail 0x0F04 [el, s3.2])
      | none => (run s2).failTile t src
  | .main el =>
    if s.supplyActive then (run s2).logTile t src 0x0F05 (detail 0x0F05 [el])
    else match spare s2 el with
      | some s3 => (run s3.1).logTile t src 0x0F05 (detail 0x0F05 [el, s3.2])
      | none => (run s2).failTile t src
  | .neither => if s.supplyActive then (run s2).logTile t src 0x0F01 (s.pos t) else s2.failTile t src

/-- The spare column takes the place of column el (Table 5.9). -/
def State.deCol (s : State) (t el : Nat) : Option State :=
  if s.flag (F.deSpareColValid t) then none
  else some (((s.setFlag (F.deSpareColValid t) true).setF (F.deSpareCol t) el).saveRepair (R.deSpare t))

/-- The spare row takes the place of row el. -/
def State.deRow (s : State) (t el : Nat) : Option State :=
  if s.flag (F.deSpareRowValid t) then none
  else some (((s.setFlag (F.deSpareRowValid t) true).setF (F.deSpareRow t) el).saveRepair (R.deSpare t))

/-- The spare of a DE element (Table 5.9): columns 0 to 63, rows 64 to 127, multiplier (i, j) at 128 + 64 i + j, outlier adder lane l
at 4224 + l. The spares' numbers: 0 the column, 1 the row, 2 + g the lane of group g. -/
def State.deSpare (s : State) (t el : Nat) : Option (State × Nat) :=
  let col := fun (k : Nat) => (s.deCol t k).map (fun s => (s, 0))
  let row := fun (k : Nat) => (s.deRow t k).map (fun s => (s, 1))
  if el < 64 then col el
  else if el < 128 then row (el - 64)
  else if el < 4224 then (col ((el - 128) % 64)) <|> (row ((el - 128) / 64))
  else
    let g := (el - 4224) / 64
    if (s.getF (F.deSpareAdderSpares t)).testBit g then none
    else some ((s.setF (F.deSpareAdderSpares t) (s.getF (F.deSpareAdderSpares t) + 2 ^ g)).saveRepair (R.deSpare t), 2 + g)

/-! ## Outliers and promotion (R121, R145) -/

/-- The outlier term d_j of a segment (R121): one fused multiply-add a row, in ascending row order (R145). -/
def outlierTerm (mode : Nat) (rows : List (BitVec 1024 × Word)) (j : Nat) : Word :=
  rows.foldl (fun d r => fmaF false r.2 (cvtI2F (BitVec.ofInt 32 (weightAt mode r.1 j))) d) 0

/-- n := round32(N + d) (R121). -/
def addOutlier (n : Int) (d : Word) : Word := addF false (cvtI2F (BitVec.ofInt 32 n)) d

/-- The outlier terms of a read, by logical column (R121): none for the residual read and for a segment with no descriptor. -/
def State.outliers (s : State) (t a : Nat) (m : MulSt) : List Word :=
  let ds := if m.residual then [] else m.entry.descsOf m.seg
  if ds.isEmpty then []
  else
    let rows := ds.map (fun d => (s.exactRow t a d.1, BitVec.shiftLeft (d.2.setWidth 32) 16))
    (List.range (logCols (s.mode t a))).map (outlierTerm (s.mode t a) rows)

/-- The rows of the outliers that a read adds; none for the residual read. -/
def MulSt.outlierRows (m : MulSt) : List Nat := if m.residual then [] else (m.entry.descsOf m.seg).map Prod.fst

/-- The DE reads the outlier rows of a read through the port and forms its terms (R121). -/
def State.outlierReads (s : State) (t a : Nat) (m : MulSt) : State :=
  let rows := m.outlierRows
  ((s.deReads t a rows).count t 0x022 0 none rows.length).elastic t 0 (2 * rows.length)

/-- Promote a segment's narrow values with its outlier terms `dj` (R38, R49, R50, R93, R121), or hold both until a bad scale line is
restored (R50, R60). -/
def State.promoteWith (s : State) (t a : Nat) (m : MulSt) (narrow : List Int) (dj : List Word) : State :=
  let x := s.arr t a
  let mode := s.mode t a
  let c := logCols mode
  let q := m.seg * s.segSize t a / 256
  let bad := (List.range c).find? (fun j =>
    !(x.scaleWord ((q * c + j) / 8)).good || x.scaleByte (q * c + j) = 0xFF)
  match bad with
  | some j =>
    let line := (q * c + j) / 64
    let ff := (List.range c).any (fun i => (q * c + i) / 64 = line && x.scaleByte (q * c + i) = 0xFF)
    ((s.when ff (·.setFlag (F.arrStatusScaleInvalid t a) true)).logTile t a 0x0F02
      (detail 0x0F02 [a, line])).setMul t a { m with wait := .scaleLine line, heldN := narrow, heldD := dj }
  | none =>
    let put := fun (j : Nat) =>
      let w := Sparse.get (fun _ => 0) x.wide j
      if dj.isEmpty then promote w (narrow.getD j 0) m.scale (x.scaleByte (q * c + j))
      else promoteF w (addOutlier (narrow.getD j 0) (dj.getD j 0)) m.scale (x.scaleByte (q * c + j))
    (s.modArr t a (fun x => { x with wide := Sparse.setRange (fun _ => 0) x.wide 0 c put })).nextRead t a m

/-- The beats of the outlier adder for a read (R145): one a row for up to 256 logical columns, two in the other modes. -/
def State.outlierBeats (s : State) (t a : Nat) (m : MulSt) : Nat :=
  m.outlierRows.length * (if logCols (s.mode t a) ≤ 256 then 1 else 2)

/-- The beats of the multiply array for an exact recomputation of a segment (Table 5.5, X4): 64 rows and 128 columns in one. -/
def State.exactBeats (s : State) (t a : Nat) : Nat := s.segSize t a / 64 * ((logCols (s.mode t a) + 127) / 128)

/-- Promote a segment's narrow values, the DE's outlier terms added (R121). The terms are the outlier adder's results and the narrow
values, where the DE has computed them in `de` beats, its multiply array's; their check comes out as `chk` says (R150 to R152). -/
def State.promoteSeg (s : State) (t a : Nat) (m : MulSt) (narrow : List Int) (de : Nat) (chk : Chk) : State :=
  let dj := s.outliers t a m
  let occ := de + s.outlierBeats t a m
  let s := s.outlierReads t a m
  let go := fun (s : State) => s.promoteWith t a m narrow dj
  if occ = 0 then go s
  else s.checked t 1 0x80 occ (F.deChkCntReplayed t) (F.deChkCntVotes t) (fun s el => s.deSpare t el) chk go

/-- A segment of which some phase was left to the DE is promoted from the DE's exact values (R62, R109, R115). -/
def State.promoteExact (s : State) (t a : Nat) (m : MulSt) (chk : Chk) : State :=
  let size := s.segSize t a
  let lo := m.seg * size
  ((s.exactChecks t a lo size m.vec).priorityDone t).promoteSeg t a m (s.exactNarrow t a lo size m.vec) (s.exactBeats t a) chk

/-- The narrow values with the columns that the DE computes taken from it (R119, R361). -/
def State.covered (s : State) (t a : Nat) (m : MulSt) (narrow : List Int) : List Int :=
  let cover := s.coverHeld t a
  if cover.isEmpty then narrow
  else
    let size := s.segSize t a
    let ex := s.exactNarrow t a (m.seg * size) size m.vec
    (List.range narrow.length).map (fun j => if cover.contains j then ex.getD j 0 else narrow.getD j 0)

/-- The segment goes to arbitration (R53, R106). -/
def State.arbitrate (s : State) (t a : Nat) (m : MulSt) : State :=
  (((s.addF (F.arrChkCntArbitrated t a) 1).count t 0x014 a (some m.lslot) 1).priority t 1).setMul t a { m with wait := .arbitration }

/-- Averages over the reads made so far (R106). -/
def MulSt.avg (m : MulSt) (v : Int) : Int := rneDiv v m.reads

/-- A segment's phase H has been shift-added: offset removal, confidence check, and promotion, repeat or arbitration (R36, R49, R104
to R106). -/
def State.segmentClose (s : State) (t a : Nat) (chk : Chk) : State :=
  match (s.arr t a).mul with
  | none => s
  | some m =>
    if !m.closing || m.wait ≠ .none then s
    else
      let x := s.arr t a
      let mode := s.mode t a
      let size := s.segSize t a
      let lo := m.seg * size
      if m.scale = 0 then s.nextRead t a m
      else if m.exactRead then s.promoteExact t a m chk
      else
        let g := (List.range (groupCount mode)).map (fun j => groupNarrow mode m.snapL m.snapH (x.segSum lo size j) j)
        let checks := (List.range size).foldl (fun (n : Int) i => n + (s.view t a (lo + i)).check.toInt) 0
        let c := checkNarrow m.snapL m.snapH checks
        let d := signed 18 ((c - g.sum) % 2 ^ 18).toNat
        let n := logNarrow mode g
        let m := { m with
          reads := m.reads + 1
          sumN := if m.reads = 0 then n else List.zipWith (· + ·) m.sumN n
          sumD := m.sumD + d
          sumC := m.sumC + c }
        let av := m.sumN.map m.avg
        let ok := g.all fits16 && av.all fits16 && decide ((m.avg m.sumD).natAbs ≤ checkWin m.coarsest)
        let alone := ok && !m.reread && !m.failed
        let s := s.when (m.reads = 1 && !alone) (fun s => s.waste t 0 4)
        let s := s.when m.driftRead (·.priorityDone t)
        let m := { m with driftRead := false }
        if m.failed then s.arbitrate t a m
        else if ok then
          (s.when (1 < m.reads) (fun s => s.addF (F.arrChkCntAveraged t a) 1)).promoteSeg t a m (s.covered t a m av)
            (if (s.coverHeld t a).isEmpty then 0 else s.exactBeats t a) chk
        else if m.reads < 4 then
          ((s.count t 0x013 a (some m.lslot) 1).elastic t 0 4).setMul t a
            { m with closing := false, phaseH := false, curRange := s.startRange t a m, pend := [], snapL := [], snapH := [] }
        else s.arbitrate t a m

/-! ## Arbitration (R109, R110, R358) -/

/-- The bit-columns of a list whose snapped value in some phase differs too far from the exact sum (R358). -/
def State.namedCols (s : State) (t a : Nat) (m : MulSt) (cols : List Nat) : List Nat :=
  let size := s.segSize t a
  let lo := m.seg * size
  let tol := dC m.coarsest + noise45 m.coarsest
  cols.filter (fun c =>
    [(false, m.snapL), (true, m.snapH)].any (fun ph =>
      let e := s.exactCol t a c lo size (drive m.vec ph.1)
      decide (tol < ((ph.2.getD c 0 : Int) - e).natAbs)))

/-- Judge an arbitrated read against the DE's exact values: the rows' own checks (R109), then Table 13.4 (R110, R358). The averaged check
accumulator is formed from the reads' sums as they are, and only the difference is taken modulo 2^18 (DESIGN CHOICE, log entry 84: R110
does not say whether a read's accumulator wraps before the average). -/
def State.judgeRead (s : State) (t a : Nat) (m : MulSt) : State :=
  let mode := s.mode t a
  let size := s.segSize t a
  let lo := m.seg * size
  let ex := s.exactNarrow t a lo size m.vec
  let cx := s.exactCheck t a lo size m.vec
  let s := s.exactChecks t a lo size m.vec
  let av := m.sumN.map m.avg
  let b1 := boundB mode m.coarsest 1
  let off := (List.range (logCols mode)).filter (fun j => decide (b1 < (av.getD j 0 - ex.getD j 0).natAbs))
  let chkOk := decide ((signed 18 ((m.avg m.sumC - cx) % 2 ^ 18).toNat).natAbs ≤ checkWin m.coarsest)
  let n := groupBits mode
  let dataCols := off.flatMap (fun j => (List.range n).map (n * j + ·) ++
    (if mode = 4 then (List.range n).map (512 + n * j + ·) else []))
  match off.isEmpty, chkOk with
  | true, true => (s.addF (F.arrChkCntTolerance t a) 1).logTile t a 0x0F03 (detail 0x0F03 [m.seg, logCols mode])
  | true, false =>
    let bad := s.namedCols t a m ((List.range 12).map (1024 + ·))
    if bad.isEmpty then s.logTile t a 0x0F01 m.seg
    else s.each bad (fun s c => s.repairCol t a (physCol c) 0x0F04)
  | false, true =>
    let bad := s.namedCols t a m dataCols
    if bad.isEmpty then (s.forceCal t a 0).startCanary t a false
    else s.each bad (fun s c => s.repairCol t a (physCol c) 0x0F05)
  | false, false =>
    ((s.modArr t a (fun x => { x with
      exact := !s.supplyActive || x.exact, exactDue := s.supplyActive || x.exactDue })).forceCal t a 0).startCanary t a false

/-- The DE's exact values have arrived: compare, act by Table 13.4, and promote the segment from them. -/
def State.arbitrationDone (s : State) (t a : Nat) (chk : Chk) : State :=
  match (s.arr t a).mul with
  | none => s
  | some m =>
    if m.wait ≠ .arbitration then s
    else
      let size := s.segSize t a
      let ex := s.exactNarrow t a (m.seg * size) size m.vec
      ((s.judgeRead t a m).priorityDone t).promoteSeg t a { m with wait := .none } ex (s.exactBeats t a) chk

/-! ## Commands -/

/-- The arrays of a mask are ready for a multiply (R164). -/
def State.mulReady (s : State) (t : Nat) (mask : BitVec 128) : Ready :=
  Ready.all ((maskArrays mask).map (s.arrReady t))

/-- Declared occupancy of a MUL (Table 6.4): of the array with the most segments. -/
def State.mulOcc (s : State) (t : Nat) (mask : BitVec 128) : Nat :=
  (maskArrays mask).foldl (fun m a => max m (4 * s.segs t a)) 0

/-- MUL as an action. -/
def State.mulAct (s : State) (t : Nat) (mask : BitVec 128) (lslot : Nat) (acc net : Bool) : Action where
  unit := 0
  occ := s.mulOcc t mask
  ready := s.mulReady t mask
  run := fun s => s.each (maskArrays mask) (fun s a => s.startMul t a lslot acc net)

/-- MUL (R40). -/
def execMul (t : TileN) (mask : BitVec 128) (lslot : Fin 64) (acc net : Bool) (s : State) : Host.Outcome State Fault Refusal :=
  .next (s.act t (s.mulAct t mask lslot acc net))

/-- CONVERSION_END (R32). -/
def execConversionEnd (t : TileN) (a : ArrN) (s : State) : Host.Outcome State Fault Refusal :=
  if !s.tileRuns t then .next s else .next (s.conversionEnd t a)

/-- SEGMENT_CLOSE (R105), with the check of the outlier terms where the segment has any (R152). -/
def execSegmentClose (t : TileN) (a : ArrEnd) (s : State) : Host.Outcome State Fault Refusal :=
  if !s.tileRuns t then .next s else .next (s.segmentClose t a.arr a.chk)

/-- A scale line is written from the current image (R50). In an array that holds no layer's image the line is written with zero bytes
(DESIGN CHOICE, log entry 66: the spec names no source). -/
def State.restoreLine (s : State) (t a l : Nat) : State :=
  s.modArr t a (·.setLine l (match s.arrImage t a with | some img => imageLine img l | none => leBytes 64 0))

/-- The bad scale line that a waiting read of the row port met (R60). -/
def ArrSt.portLine (x : ArrSt) : Option Nat :=
  x.portWait.findSome? (fun r => match r with
    | .readLine l => if x.lineBad l then some l else none
    | _ => none)

/-- No segment waits for a scale line: one that a read of the row port waits for is restored (R60). -/
def State.restorePortLine (s : State) (t a : Nat) : State :=
  match (s.arr t a).portLine with
  | some l => s.restoreLine t a l
  | none => s

/-- SCALE_LINE_RESTORED (R50, R60): the line is written from the current image, and the segment that waited for it is promoted. -/
def execScaleLineRestored (t : TileN) (a : ArrN) (s : State) : Host.Outcome State Fault Refusal :=
  match (s.arr t a).mul with
  | some m => match m.wait with
    | .scaleLine l => .next ((s.restoreLine t a l).promoteWith t a { m with wait := .none, heldN := [], heldD := [] } m.heldN m.heldD)
    | _ => .next (s.restorePortLine t a)
  | none => .next (s.restorePortLine t a)

/-- ARBITRATION_DONE (R110), with the check of the outlier terms where the segment has any (R152). -/
def execArbitrationDone (t : TileN) (a : ArrEnd) (s : State) : Host.Outcome State Fault Refusal :=
  if !s.tileRuns t then .next s else .next (s.arbitrationDone t a.arr a.chk)

end Sys2Proof.Machine
end

