-- ==== Sys2Proof/Machine/ArrayCmds.lean ====
section
/-! DEFINITION. The other commands of an array: spares, the row port, scrub and rewrites, calibration, canaries, and the row
operations of the beat program (chapters 2 and 4, R176, R184, R287). -/

namespace Sys2Proof.Machine

/-! ## Spares (R66, R70) -/

/-- SPARE_LIVE (R66). -/
def execSpareLive (t : TileN) (a : ArrN) (k : Fin 64) (s : State) : Host.Outcome State Fault Refusal :=
  .next (s.spareGoesLive t a k)

/-- SPARE_ASSIGN (R70): a write of ARR_SPARE_MAPk. -/
def execSpareAssign (t : TileN) (a : ArrN) (k : Fin 64) (w : Word) (s : State) : Host.Outcome State Fault Refusal :=
  if !s.tileOn t then .next s else .next (s.writeSpare t a k w)

/-- SPARE_RELEASE (R70): the beat boundary at which a released spare is given up. -/
def execSpareRelease (t : TileN) (a : ArrN) (k : Fin 64) (s : State) : Host.Outcome State Fault Refusal :=
  if s.flag (F.arrSpareMapValid t a k) then .next (s.spareReleased t a k) else .next s

/-! ## The row port (R56 to R59, Table 2.10) -/

/-- The segment of row i is converting, or further conversions of it may still follow directly: its check can repeat it, and its
residual read comes next (R57). -/
def State.segBusy (s : State) (t a i : Nat) : Bool :=
  match (s.arr t a).mul with
  | some m => m.wait = .none && i / s.segSize t a = m.seg
  | none => false

/-- A port request must wait (R57, R58): a read while its segment converts, a row write until the last conversion of the multiply in
progress, a scale line write until its last wide add; a read of a scale line that fails its parity waits for its restore (R60). -/
def State.portBlocked (s : State) (t a : Nat) : PortReq → Bool
  | .readRow i => s.segBusy t a i
  | .writeRow _ => !(s.arr t a).convDone (s.segs t a)
  | .readLine l => (s.arr t a).lineBad l
  | .writeLine _ => (s.arr t a).mul.isSome
  | .scrub i => s.segBusy t a i

/-- Show 64-bit words in the port's data registers from word w0 on. -/
def State.showWords (s : State) (t a n : Nat) (v : Nat) : State :=
  s.each (List.range (2 * n)) (fun s k => s.setR (R.arrPortData t a k) (BitVec.ofNat 32 (v / 2 ^ (32 * k))))

/-- The number that the first n data registers hold. -/
def State.portWords (s : State) (t a n : Nat) : Nat :=
  leNat ((List.range n).flatMap (fun k => leBytes 4 (s.getR (R.arrPortData t a k)).toNat))

/-- The scrub reads row i (R61, R62, R287). -/
def State.scrubRow (s : State) (t a i : Nat) : State :=
  let s := s.when (s.scrubBad t a i) (fun s => s.markSuspect t a i)
  let differs := s.flag (F.arrCfgLoaded t a) && !(s.arr t a).scrubPass &&
    (match s.arrImage t a with | some img => portData (s.mode t a) (imageRow img i) ≠ (s.view t a i).data | none => false)
  let s := s.when differs (fun s => s.modArr t a (fun x => { x with rewrite := (x.rewrite ++ [i]).eraseDups }))
  let s := (s.setF (F.arrScrubNextRow t a) ((i + 1) % 1024)).count t 0x015 a none 1
  if i = 1023 then s.modArr t a (fun x => { x with scrubPass := true }) else s

/-- The port serves a request. A write takes ARR_PORT_DATA as it stands when it is served, also when it has waited (DESIGN CHOICE, log
entry 66: R56 names no time). -/
def State.portServe (s : State) (t a : Nat) : PortReq → State
  | .readRow i =>
    let s := (s.setFlag (F.arrPortCmdBusy t a) false).count t 0x015 a none 1
    if s.portBad t a i then (s.setFlag (F.arrPortCmdParityErr t a) true).markSuspect t a i
    else (s.showWords t a 16 (s.view t a i).data.toNat).setF (F.arrPortCheckCheck t a) (s.view t a i).check.toNat
  | .writeRow i => (s.setFlag (F.arrPortCmdBusy t a) false).putRow t a i (BitVec.ofNat 1024 (s.portWords t a 32))
  | .readLine l =>
    ((s.setFlag (F.arrPortCmdBusy t a) false).count t 0x015 a none 1).showWords t a 8 (leNat ((s.arr t a).line l))
  | .writeLine l =>
    ((s.setFlag (F.arrPortCmdBusy t a) false).modArr t a (fun x => x.setLine l (leBytes 64 (s.portWords t a 16)))).count
      t 0x015 a none 1
  | .scrub i => s.scrubRow t a i

/-- A scale line that fails its parity when the port meets it is reported as R50 states (R60). -/
def State.meetLine (s : State) (t a : Nat) : PortReq → State
  | .readLine l =>
    s.when ((s.arr t a).lineBad l) (fun s =>
      (s.setFlag (F.arrPortCmdParityErr t a) true).logTile t a 0x0F02 (detail 0x0F02 [a, l]))
  | .readRow _ => s
  | .writeRow _ => s
  | .writeLine _ => s
  | .scrub _ => s

/-- Ask for a port access: it is served at once, or waits (R57): firmware's behind firmware's, a scrub read behind all. -/
def State.portAsk (s : State) (t a : Nat) (r : PortReq) : State :=
  let s := s.meetLine t a r
  if s.portBlocked t a r || (s.arr t a).fwWaits || (r.isScrub && !(s.arr t a).portWait.isEmpty) then
    s.modArr t a (fun x => { x with portWait := x.portWait ++ [r] })
  else s.portServe t a r

/-- Firmware requests an access through ARR_PORT_CMD; while BUSY is 1 the write is ignored (Table 2.10). -/
def State.portCmd (s : State) (t a line row : Nat) (r : PortReq) : State :=
  if !s.tileOn t || s.flag (F.arrPortCmdBusy t a) then s
  else
    (((s.setF (F.arrPortCmdLine t a) line).setF (F.arrPortCmdRow t a) row).setFlag (F.arrPortCmdBusy t a) true).portAsk t a r

/-- The request that the port serves next: the oldest of firmware's, else a scrub read. -/
def ArrSt.nextPort (x : ArrSt) : Option PortReq :=
  (x.portWait.find? (fun r => !r.isScrub)) <|> x.portWait.head?

/-- ROW_PORT_ACCESS (R57): the next waiting access is served once its segment does not convert. -/
def execRowPortAccess (t : TileN) (a : ArrN) (s : State) : Host.Outcome State Fault Refusal :=
  match (s.arr t a).nextPort with
  | none => .next s
  | some r =>
    if s.portBlocked t a r then .next s
    else .next ((s.modArr t a (fun x => { x with portWait := x.portWait.erase r })).portServe t a r)

/-- ARR_PORT_READ_ROW (R68, R59). -/
def execArrPortReadRow (t : TileN) (a : ArrN) (row : Fin 1024) (s : State) : Host.Outcome State Fault Refusal :=
  .next (s.portCmd t a (s.getF (F.arrPortCmdLine t a)) row (.readRow row))

/-- ARR_PORT_WRITE_ROW (R68). -/
def execArrPortWriteRow (t : TileN) (a : ArrN) (row : Fin 1024) (s : State) : Host.Outcome State Fault Refusal :=
  .next (s.portCmd t a (s.getF (F.arrPortCmdLine t a)) row (.writeRow row))

/-- ARR_PORT_READ_SCALE_LINE (R68). -/
def execArrPortReadScaleLine (t : TileN) (a : ArrN) (line : Fin 32) (s : State) : Host.Outcome State Fault Refusal :=
  .next (s.portCmd t a line (s.getF (F.arrPortCmdRow t a)) (.readLine line))

/-- ARR_PORT_WRITE_SCALE_LINE (R68). -/
def execArrPortWriteScaleLine (t : TileN) (a : ArrN) (line : Fin 32) (s : State) : Host.Outcome State Fault Refusal :=
  .next (s.portCmd t a line (s.getF (F.arrPortCmdRow t a)) (.writeLine line))

/-- A write of ARR_PORT_CMD as a register (Table 2.10). -/
def State.writePortCmd (s : State) (t a : Nat) (w : Word) : State :=
  let line := bitsOf w 25 21
  let row := bitsOf w 20 11
  match bitsOf w 2 0 with
  | 1 => s.portCmd t a line row (.readRow row)
  | 2 => s.portCmd t a line row (.writeRow row)
  | 3 => s.portCmd t a line row (.readLine line)
  | 4 => s.portCmd t a line row (.writeLine line)
  | _ => if s.flag (F.arrPortCmdBusy t a) then s else (s.setF (F.arrPortCmdLine t a) line).setF (F.arrPortCmdRow t a) row

/-- A write of ARR_CFG (R69): ignored and counted as a mismatch while a multiply or a write is pending. -/
def State.writeArrCfg (s : State) (t a : Nat) (w : Word) : State :=
  let x := s.arr t a
  if x.mul.isSome || x.writesWait then s.setFlag (F.arrStatusMismatch t a) true
  else ((s.setF (F.arrCfgReserve t a) (bitsOf w 14 12)).setF (F.arrCfgSeg t a) (bitsOf w 9 8)).setMode t a (bitsOf w 2 0)

/-- ARR_CFG_WRITE (R69). -/
def execArrCfgWrite (t : TileN) (a : ArrN) (w : Word) (s : State) : Host.Outcome State Fault Refusal :=
  if !s.tileOn t then .next s else .next (s.writeArrCfg t a w)

/-! ## Scrub and rewrites (R61, R62, R287) -/

/-- SCRUB_READ (R61). -/
def execScrubRead (t : TileN) (a : ArrN) (s : State) : Host.Outcome State Fault Refusal :=
  if !s.tileOn t then .next s else .next (s.portAsk t a (.scrub (s.getF (F.arrScrubNextRow t a))))

/-- A row is rewritten from its source and verified (R62, R287); a row of an array that holds no layer's image is written with the
data that its port reads. -/
def State.rewriteRow (s : State) (t a i : Nat) : State :=
  let data := match s.arrImage t a with
    | some img => imageRow img i
    | none => (s.view t a i).data
  let s := s.putRow t a i data
  let s := s.modArr t a (fun x => { x with suspects := x.suspects.filter (· ≠ i), rewrite := x.rewrite.filter (· ≠ i) })
  (s.showSuspects t a).logTile t a 0x0F07 i

/-- SUSPECT_ROW_REWRITTEN (R62): the rewrite is a row write, which waits for the last conversion of the multiply in progress and for the
accesses asked for before it (R57, R58). -/
def execSuspectRowRewritten (t : TileN) (a : ArrN) (row : Fin 1024) (s : State) : Host.Outcome State Fault Refusal :=
  let x := s.arr t a
  if (x.suspects.contains row.val || x.rewrite.contains row.val) && x.convDone (s.segs t a) && !x.fwWaits then .next (s.rewriteRow t a row) else .next s

/-- The conditions of R287 for clearing UNVERIFIED. -/
def State.canVerify (s : State) (t a : Nat) : Bool :=
  let x := s.arr t a
  x.scrubPass && x.suspects.isEmpty && (!s.flag (F.arrCfgLoaded t a) || (x.hashOk && x.rewrite.isEmpty))

/-- ARRAY_VERIFIED (R287). -/
def execArrayVerified (t : TileN) (a : ArrN) (s : State) : Host.Outcome State Fault Refusal :=
  if s.canVerify t a then .next (s.setFlag (F.arrStatusUnverified t a) false) else .next s

/-! ## Calibration (R111 to R115) -/

/-- An array can take a calibration set. -/
def State.calReady (s : State) (t a : Nat) : Ready := .need (s.flag (F.arrStatusCalValid t a)) .busy

/-- CAL as an action. -/
def State.calAct (s : State) (t : Nat) (mask : BitVec 128) : Action where
  unit := 0
  occ := 2
  ready := Ready.all ((maskArrays mask).map (s.calReady t))
  run := fun s => s.each (maskArrays mask) (fun s a => s.calSet t a)

/-- CAL (R111). -/
def execCal (t : TileN) (mask : BitVec 128) (s : State) : Host.Outcome State Fault Refusal :=
  .next (s.act t (s.calAct t mask))

/-- CAL_INTERVAL_END (R112): the interval had no reserved slot, so the sequencer inserts the array's set. -/
def execCalIntervalEnd (t : TileN) (a : ArrN) (s : State) : Host.Outcome State Fault Refusal :=
  if !s.tileRuns t || !s.flag (F.arrStatusCalValid t a) then .next s else .next ((s.calSet t a).elastic t 0 2)

/-- FORCED_CAL_SET_INSERT (R115). -/
def execForcedCalSetInsert (t : TileN) (a : ArrN) (s : State) : Host.Outcome State Fault Refusal :=
  match (s.arr t a).cal with
  | some ⟨.forced, _⟩ => if !s.tileRuns t then .next s else .next ((s.calSet t a).elastic t 0 2)
  | _ => .next s

/-- The sum of 16 codes of a point (R113). -/
def State.code16 (s : State) (range sum set p : Nat) : Nat :=
  (List.range 16).foldl (fun n i => n + calCode range sum (Config.convError (2048 * (s.free + 16 * set + i) + p))) 0

/-- The initial calibration of an array completes (R113, R114): every converter and range, then the swap, and CAL_VALID. -/
def State.initialCal (s : State) (t a : Nat) : State :=
  let bank := s.getF (F.arrCalStatusBank t a)
  let x := s.arr t a
  let x := { x with coefs := Sparse.setRange (fun _ => {}) x.coefs ((1 - bank) * 17920) 17920 (fun j =>
    let range := 96 * 2 ^ (j / 4480)
    calCoef {} 16 (s.code16 range (range / 8) (j / 1120) (j % 1120))
      (s.code16 range (7 * range / 8) (16 + j / 1120) (j % 1120)) 0) }
  let s := { s.setArr t a x with free := s.free + 512 }
  (s.calSwap t a).setFlag (F.arrStatusCalValid t a) true

/-- INITIAL_CALIBRATION_DONE (R114). -/
def execInitialCalibrationDone (t : TileN) (a : ArrN) (s : State) : Host.Outcome State Fault Refusal :=
  if s.tileOn t && !s.flag (F.arrStatusCalValid t a) then .next (s.initialCal t a) else .next s

/-! ## Canaries (R116 to R119) -/

/-- The exact canary values of an array, from the entry of its current image in the canary table (R117, R284); an image with no entry
has them computed from its rows, and an array with no image from its cells. -/
def State.canaryExact (s : State) (t a range : Nat) : List Int :=
  let size := s.segSize t a
  let n := s.segs t a * logCols (s.mode t a)
  match (s.place t a).map (fun p => Sparse.get (fun _ => []) p.1.canary p.2) with
  | some (b :: bs) => (List.range n).map (fun i => signed 16 (fieldAt (b :: bs) (2 * i) 2))
  | _ => canaryValues (s.mode t a) size (s.canaryRows t a) (s.canaryVec t a range)

/-- A conversion of a canary and its re-reads: the range and the reserve left, the coarsest range used, the values, the columns that
are being re-read, and whether one saturated at the coarsest range. -/
structure CanRead where
  range : Nat
  reserve : Nat
  coarsest : Nat := 0
  vals : List Nat := []
  pend : List Nat := []
  failed : Bool := false
  deriving DecidableEq, Repr

/-- Convert a phase of a canary's segment, with the coarser-range re-reads of R51 and R52; n bounds the re-reads. -/
def State.canaryConv (t a lo size : Nat) (lvl : Nat → Nat) : Nat → State → CanRead → State × CanRead
  | 0, s, c => (s, c)
  | n + 1, s, c =>
    let new := s.convertAll t a c.range lo size lvl
    let sat := saturated c.pend new
    let c := { c with vals := keepRead c.pend c.vals new, coarsest := max c.coarsest c.range }
    let s := s.fresh
    if sat.isEmpty then (s, c)
    else if c.range = 3 * size then (s, { c with failed := true })
    else
      let r := rereadAt c.reserve c.range (3 * size)
      State.canaryConv t a lo size lvl n (s.reread t a none r.2.2) { c with pend := sat, range := r.1, reserve := r.2.1 }

/-- A phase of a canary multiply (R48, R51 to R53): with no level on any row it is skipped and counted. -/
def State.canaryPhase (s : State) (t a range lo size : Nat) (v : BitVec 4096) (h : Bool) (c : CanRead) : State × CanRead :=
  let lvl := drive v h
  if (List.range size).all (fun r => lvl (lo + r) = 0) then
    ((s.addF (F.arrSkipCntSkipped t a) 1).count t 0x011 a none 1, { c with vals := List.replicate 1036 0 })
  else
    let start := if s.flag (F.arrStatusRangeLatched t a) then 3 * size else range
    State.canaryConv t a lo size lvl 5 s { c with range := start, vals := [], pend := [] }

/-- Segment k of a canary multiply (R118): the reserve left, the coarsest range used, the snapped values of both phases and the narrow
values. A segment with a conversion that
saturated at the coarsest range goes to arbitration, and its values are the DE's (R53, R358). A canary read takes no confidence check
and no averaging: R118 judges it by its bound (DESIGN CHOICE, log entry 66). -/
def State.canarySeg (s : State) (t a range k : Nat) (v : BitVec 4096) (reserve : Nat) :
    State × Nat × Nat × List Nat × List Nat × List Int :=
  let mode := s.mode t a
  let size := s.segSize t a
  let lo := k * size
  let l := s.canaryPhase t a range lo size v false { range := range, reserve := reserve }
  let h := l.1.canaryPhase t a range lo size v true { l.2 with failed := false }
  let s := h.1
  let x := s.arr t a
  let g := (List.range (groupCount mode)).map (fun j => groupNarrow mode l.2.vals h.2.vals (x.segSum lo size j) j)
  let n := logNarrow mode g
  if l.2.failed || h.2.failed then
    let checks := (List.range size).foldl (fun (n : Int) i => n + (s.view t a (lo + i)).check.toInt) 0
    let m : MulSt := { entry := { vec := v }, seg := k, snapL := l.2.vals, snapH := h.2.vals, reads := 1, sumN := n
                       coarsest := max l.2.coarsest h.2.coarsest, sumC := checkNarrow l.2.vals h.2.vals checks }
    let ex := s.exactNarrow t a lo size v
    let s := ((s.addF (F.arrChkCntArbitrated t a) 1).count t 0x014 a none 1).judgeRead t a m
    (s, h.2.reserve, h.2.coarsest, l.2.vals, h.2.vals, ex)
  else (s, h.2.reserve, h.2.coarsest, l.2.vals, h.2.vals, n)

/-- Judge a canary after its four multiplies (R118, R119, R358, R369). The columns of a failed canary return to the array with the next
canary that passes; after a second failure the spec names no other return (DESIGN CHOICE, log entry 66). The averages of the four reads
are compared as exact quotients, since R118 and R119 name no rounding (DESIGN CHOICE, log entry 84); bound and D_c are those of the
coarsest range of the segment's conversions (R99). -/
def State.judgeCanary (s : State) (t a range : Nat) (c : CanarySt) : State :=
  let mode := s.mode t a
  let cols := logCols mode
  let ex := s.canaryExact t a range
  let used := fun (k : Nat) => max range (c.coarse.getD k 0)
  let bad := ((List.range c.sums.length).filter (fun i => decide (4 * boundB mode (used (i / cols)) 4 < (c.sums.getD i 0 - 4 * ex.getD i 0).natAbs))).map
    (· % cols) |>.eraseDups
  let now := s.cad.beat
  let last := (s.arr t a).canaryPass
  let n := s.ownerOf t
  if bad.isEmpty then
    let back := (s.arr t a).failCols
    let s := ((s.addF (F.arrCanaryPasses t a) 1).setFlag (F.arrCanaryRunning t a) false).setF (F.arrCanaryFailCols t a) 0
    let s := (s.modArr t a (fun x => { x with canary := none, canaryPass := now, failCols := [] })).recover t a
    s.when c.again (fun s => s.logTile t a 0x0F08 back.length)
  else
    let s := (s.setFlag (F.arrCanaryFailed t a) true).setF (F.arrCanaryFailCols t a) (min 255 bad.length)
    let s := (s.logTile t a 0x1203 (detail 0x1203 [last.toNat, now.toNat])).faultIrq n
    let s := s.suspectRequests n t a
    let s := (s.modArr t a (fun x => { x with failCols := (x.failCols ++ bad).eraseDups })).recover t a
    if !c.again then ((s.startCanary t a true).forceCal t a 0)
    else
      let size := s.segSize t a
      let v := s.canaryVec t a range
      let s := s.deReads t a (List.range (size * s.segs t a))
      let faulty := (convCols mode).filter (fun col =>
        (List.range (2 * s.segs t a)).any (fun i =>
          let e := s.exactCol t a col (i / 2 * size) size (drive v (i % 2 = 1))
          decide (4 * (dC (used (i / 2)) + 1) < (c.snaps.getD (1036 * i + col) 0 - 4 * (e : Int)).natAbs)))
      let s := (s.modArr t a (fun x => { x with canary := none })).setFlag (F.arrCanaryRunning t a) false
      s.each faulty (fun s col => s.repairCol t a (physCol col) (if col < 1024 then 0x0F05 else 0x0F04))

/-- A canary multiply waits for the calibration that is under way (R114, R116) and for a write asked for before it (R58). -/
def State.canaryReady (s : State) (t a : Nat) : Bool :=
  s.flag (F.arrStatusCalValid t a) && !(s.arr t a).calDue && !(s.arr t a).writesWait &&
  (match (s.arr t a).cal with | some ⟨.forced, _⟩ => false | some ⟨.initial, _⟩ => false | _ => true)

/-- One canary multiply of an array (R118). -/
def State.canaryMul (s : State) (t a : Nat) : State :=
  match (s.arr t a).canary with
  | none => s
  | some c =>
    if !s.canaryReady t a then s
    else
      let range := s.canaryRange t a
      let v := s.canaryVec t a range
      let r := (List.range (s.segs t a)).foldl (fun (r : State × Nat × List Nat × List Nat × List Int) k =>
        let q := r.1.canarySeg t a range k v r.2.1
        (q.1, q.2.1, r.2.2.1 ++ [q.2.2.1], r.2.2.2.1 ++ q.2.2.2.1 ++ q.2.2.2.2.1, r.2.2.2.2 ++ q.2.2.2.2.2))
        (s, s.getF (F.arrCfgReserve t a), [], [], [])
      let s := r.1
      let n := r.2.2.2.2
      let flat := r.2.2.2.1.map (fun (v : Nat) => (v : Int))
      let c := { c with
        made := c.made + 1
        sums := if c.made = 0 then n else List.zipWith (· + ·) c.sums n
        snaps := if c.made = 0 then flat else List.zipWith (· + ·) c.snaps flat
        coarse := if c.made = 0 then r.2.2.1 else List.zipWith max c.coarse r.2.2.1 }
      let s := (s.modArr t a (fun x => { x with canary := some c })).count t 0x016 a none 1
      if c.made < 4 then s else s.judgeCanary t a range c

/-- CANARY_INTERVAL (R116). -/
def execCanaryInterval (t : TileN) (a : ArrN) (s : State) : Host.Outcome State Fault Refusal :=
  if s.tileRuns t && s.flag (F.arrCfgLoaded t a) && (s.arr t a).canary.isNone && s.getF F.pwrModeState ≠ 1 then .next (s.startCanary t a false) else .next s

/-- CANARY_MULTIPLY (R118): elastic time of the array. -/
def execCanaryMultiply (t : TileN) (a : ArrN) (s : State) : Host.Outcome State Fault Refusal :=
  if s.tileRuns t && (s.arr t a).canary.isSome && s.canaryReady t a && s.getF F.pwrModeState ≠ 1 then
    .next ((s.canaryMul t a).elastic t 0 (4 * s.segs t a))
  else .next s

/-- CNRY as an action. -/
def State.cnryAct (s : State) (t : Nat) (mask : BitVec 128) : Action where
  unit := 10
  occ := s.mulOcc t mask
  ready := .ok
  run := fun s => s.each (maskArrays mask) (fun s a => s.canaryMul t a)

/-- CNRY (R184): the next pending canary multiply of each masked array. -/
def execCnry (t : TileN) (mask : BitVec 128) (s : State) : Host.Outcome State Fault Refusal :=
  .next (s.act t (s.cnryAct t mask))

/-! ## Row operations of the beat program (R56, R58, R176) -/

/-- A row write can issue once the multiply in progress has made its last conversion (R58), behind the accesses that firmware asked for
before it (R57). -/
def State.rowOpReady (s : State) (t a : Nat) : Ready :=
  .need ((s.arr t a).convDone (s.segs t a) && !(s.arr t a).fwWaits) .busy

/-- A scale line write can issue once the multiply in progress has made its last wide add (R58), behind firmware's accesses. -/
def State.lineOpReady (s : State) (t a : Nat) : Ready :=
  .need ((s.arr t a).mul.isNone && !(s.arr t a).fwWaits) .busy

/-- COUNT is 1 to 1,024 and the range ends at the last row or line (R176). -/
def rowRange (first count last : Nat) : Bool := 1 ≤ count && count ≤ 1024 && first + count ≤ last

/-- The image that a rotating array holds after rows have been written (R281, R284): the placement of the array whose image in the stream
area has those rows; the one held so far when it is among several, and the first of them otherwise (DEDUCED, log entry 67). -/
def State.rotated (s : State) (t a first count : Nat) (b : Bytes) : State :=
  let w := (s.prt (s.ownerOf t)).wgt
  match s.logical t, w.man with
  | some k, some m =>
    let fit := (List.range m.places.length).filter (fun i =>
      match m.places[i]?, m.layerOf i with
      | some p, some l => l.kind = 2 && p.slot = s.placeSlot && p.ltile = k && p.array = a &&
          ((w.streamImage p).drop (128 * first)).take (128 * count) == b
      | _, _ => false)
    s.modArr t a (fun x => { x with
      held := match x.held with
        | some i => if fit.contains i then some i else fit.head? <|> some i
        | none => fit.head? })
  | _, _ => s

/-- WRROW as an action: row images of the store into rows. -/
def State.wrrowAct (s : State) (t a first count o : Nat) : Action where
  unit := 0
  occ := 2 * count
  ready := s.rowOpReady t a
  reads := [(o, 128 * count)]
  run := fun s =>
    let b := s.stRead t o (128 * count)
    ((s.noteRead t o (128 * count)).each (List.range count) (fun s i =>
      s.putRow t a (first + i) (BitVec.ofNat 1024 (fieldAt b (128 * i) 128)))).rotated t a first count b

/-- WRROW (R176). A range that R176 refuses moves nothing. -/
def execWrrow (t : TileN) (a : ArrN) (first : Fin 1024) (count : Nat) (off : BitVec 16) (s : State) :
    Host.Outcome State Fault Refusal :=
  if !rowRange first count 1024 then .next s else .next (s.act t (s.wrrowAct t a first count (128 * off.toNat)))

/-- WRSCALE as an action: scale lines of the store into the scale file. -/
def State.wrscaleAct (s : State) (t a first count o : Nat) : Action where
  unit := 0
  occ := 2 * count
  ready := s.lineOpReady t a
  reads := [(o, 64 * count)]
  run := fun s =>
    let b := s.stRead t o (64 * count)
    (s.noteRead t o (64 * count)).modArr t a (fun x =>
      (List.range count).foldl (fun x i => x.setLine (first + i) ((b.drop (64 * i)).take 64)) x)

/-- WRSCALE (R176). -/
def execWrscale (t : TileN) (a : ArrN) (first : Fin 1024) (count : Nat) (off : BitVec 16) (s : State) :
    Host.Outcome State Fault Refusal :=
  if !rowRange first count 32 then .next s else .next (s.act t (s.wrscaleAct t a first count (128 * off.toNat)))

/-- A read of a row's segment must wait while it converts, and behind the accesses that firmware asked for before it (R57). -/
def State.rowReadReady (s : State) (t a first count : Nat) : Ready :=
  .need (!(List.range count).any (fun i => s.segBusy t a (first + i)) && !(s.arr t a).fwWaits) .busy

/-- RDROW as an action: row images into the store; a row that fails its read delivers nothing and is suspect (R59). -/
def State.rdrowAct (s : State) (t a first count o : Nat) : Action where
  unit := 0
  occ := 2 * count
  ready := s.rowReadReady t a first count
  run := fun s => s.each (List.range count) (fun s i =>
    let s := s.count t 0x015 a none 1
    if s.portBad t a (first + i) then s.markSuspect t a (first + i)
    else s.stWrite t (o + 128 * i) (leBytes 128 (s.view t a (first + i)).data.toNat) 0 [])

/-- RDROW (R176). -/
def execRdrow (t : TileN) (a : ArrN) (first : Fin 1024) (count : Nat) (off : BitVec 16) (s : State) :
    Host.Outcome State Fault Refusal :=
  if !rowRange first count 1024 then .next s else .next (s.act t (s.rdrowAct t a first count (128 * off.toNat)))

end Sys2Proof.Machine
end

