-- ==== Sys2Proof/Machine/Security.lean ====
section
/-! DEFINITION. The security block's shared operations (boot, working keys, nonces) and its commands: sessions, key messages,
firmware images, attestation, debug opening (R434 to R450). -/

namespace Sys2Proof.Machine

/-- Eight fresh nonce words into the registers that `mk` names. -/
def State.newNonce (s : State) (mk : Nat → Reg) : State :=
  s.each (List.range 8) (fun s k => (s.setR (mk k) (Config.freeWord s.free)).fresh)

/-- Replace the session nonce (R439), and the debug nonce (R447). -/
def State.newSessNonce (s : State) : State := s.newNonce R.secSessNonce
/-- See `State.newSessNonce`. -/
def State.newDbgNonce (s : State) : State := s.newNonce R.secDbgNonce

/-- The bytes of eight words. -/
def State.nonceBytes (s : State) (mk : Nat → Reg) : Bytes :=
  ((List.range 8).map (fun k => leBytes 4 (s.getR (mk k)).toNat)).flatten

/-- A security event: never folded (R451). -/
def State.logSec (s : State) (code dtl : Nat) : State := s.report srcSec code 0xFF 4 0 dtl

/-- Reconstruct the identity and derive the working keys (R434): when the helper data's digest does not match, 0x1604 and no key;
while debug is open, no key (R450). -/
def State.deriveKeys (s : State) : State :=
  if s.flag F.secDbgOpen then s.setFlag F.secStatusKeysValid false
  else if Config.identityDigest = s.firn.cfg.pufDigest then s.setFlag F.secStatusKeysValid true
  else (s.setFlag F.secStatusKeysValid false).logSec 0x1604 s.firn.cfg.helperVersion

/-- An image that boots (R442): its signature and certificate verify, and its SVN lies from the anti-rollback count to 64. -/
def State.imageOk (s : State) (b : Bytes) : Bool :=
  Config.fwSigned b && decide (s.sec.fuses ≤ Config.fwSvn b ∧ Config.fwSvn b ≤ 64)

/-- The image of a firmware slot (0 A, 1 B). -/
def State.fwImage (s : State) (k : Nat) : Bytes := if k = 0 then s.firn.fwA.bytes else s.firn.fwB.bytes

/-- The firmware of slot k runs. -/
def State.fwRun (s : State) (k : Nat) (fallback : Bool) : State :=
  let svn := Config.fwSvn (s.fwImage k)
  { s with
    pwr := { s.pwr with booted := true }
    sec := { s.sec with fallback := fallback, fwRunSvn := svn, activating := 0, handover := false } }.setF F.secFwSvn svn

/-- Boot (R442): the slot the A/B selection names; otherwise 0x1605 and the other slot; when both fail, the recovery loader runs
and the attention indicator stays on. -/
def State.secureBoot (s : State) : State :=
  let a := s.firn.fwSel
  let b := 1 - a
  let s := { s with pwr := { s.pwr with booted := false } }
  if s.imageOk (s.fwImage a) then s.fwRun a false
  else
    let s := s.logSec 0x1605 (detail 0x1605 [a, 0])
    if s.imageOk (s.fwImage b) then s.fwRun b true
    else (((s.logSec 0x1605 (detail 0x1605 [b, 0])).setFlag F.secStatusRecovery true).setF F.pwrSlotAttn 1)

/-- Show what the firn and the fuses hold in the security registers. -/
def State.secShow (s : State) : State :=
  (((s.setFlag F.secStatusErasePending s.firn.erasePending).setFlag F.secStatusInstall s.installing).setF F.secFwFuses
    s.sec.fuses).setF F.secFwSlot s.firn.fwSel

/-- End the secure session. -/
def State.endSession (s : State) : State := s.setFlag F.secSessCtrlOpen false

/-- Erase firn image records and renew the image salt as an erase completes (R289, R435, R448). -/
def State.firnErase (s : State) : State :=
  { s with
    firn := { s.firn with
      images := []
      imageSalt := some (BitVec.ofNat 256 (Config.freeNat s.free))
      erasePending := false }
    free := s.free + 1 }.setFlag F.secStatusErasePending false

/-! ## Secure sessions (R439) -/

/-- The response words as bytes: KEY_ID in 0 to 7, the signature in 8 to 139. -/
def State.respBytes (s : State) : Bytes :=
  ((List.range 35).map (fun k => leBytes 4 (Sparse.get (fun _ => 0) s.sec.resp k).toNat)).flatten

/-- The response is checked (R439): the signature over the nonce and the slot number opens the session, or it is refused; a new nonce
either way. -/
def State.sessGo (s : State) : State :=
  let r := s.respBytes
  let id := fieldAt r 0 8
  let ok := match s.opKeyFor id 1 with
    | some k => Config.verify k.key (s.nonceBytes R.secSessNonce ++ leBytes 2 s.slot) (r.drop 8)
    | none => false
  (if ok then (s.setFlag F.secSessCtrlOpen true).logSec 0x1608 (id % 2 ^ 32) else s.logSec 0x1609 (id % 2 ^ 32)).newSessNonce

/-- SEC_SESS_CTRL_GO (R439). -/
def execSecSessCtrlGo (s : State) : Host.Outcome State Fault Refusal := .next s.sessGo

/-- SEC_SESS_CTRL_END (R439). -/
def execSecSessCtrlEnd (s : State) : Host.Outcome State Fault Refusal := .next s.endSession

/-! ## Key messages (R440, R441) -/

/-- Channel c's partition. -/
def State.chanPart (s : State) (c : Nat) : Nat := s.getF (F.mbxCfgPart c)

/-- The message of a channel has been taken. -/
def State.keyTaken (s : State) (c : Nat) : State :=
  { s with sec := { s.sec with keyMsgs := s.sec.keyMsgs.filter (fun m => m.chan ≠ c) } }

/-- A stage runs in a partition. -/
def State.staging (s : State) (n : Nat) : Bool := s.getF (F.partWgtStatusStage n) = 1

/-- A change to the key store (R440): its log entry and answer. -/
def State.keyDone (s : State) (c op id : Nat) : State :=
  (s.logSec 0x160A (detail 0x160A [op, id % 2 ^ 32, s.chanPart c])).keyAnswer c op stOK

/-- TENANT_KEY (R441): while a stage runs or no working key is derived WRONG_STATE; a tag failure DIGEST_MISMATCH and no change;
otherwise the unwrapped key becomes the partition's tenant key. While debug is open none is accepted (R450). -/
def execTenantKey (c : Fin 32) (payload : Bytes) (s : State) : Host.Outcome State Fault Refusal :=
  .next (
    let s := s.keyTaken c
    let n := s.chanPart c
    if payload.length < 193 then s.keyAnswer c 0x01 stBadParam
    else if s.staging n || !s.flag F.secStatusKeysValid || s.flag F.secDbgOpen then s.keyAnswer c 0x01 stWrongState
    else
      let nonce := (payload.drop 133).take 12
      let key := Config.wrapKey Config.identity (payload.take 133) nonce n (s.tenantOf n)
      match Config.gcmOpen key nonce [] ((payload.drop 145).take 48) with
      | none => s.keyAnswer c 0x01 stDigest
      | some k =>
        ({ s with sec := { s.sec with
          tenantKeys := Sparse.set (fun _ => 0) s.sec.tenantKeys n (BitVec.ofNat 256 (leNat k)) } }).keyDone c 0x01 0)

/-- The manifest keys of a partition. -/
def State.manKeysOf (s : State) (n : Nat) : List (Nat × Nat × Bytes) := s.sec.manKeys.filter (fun k => k.1 = n)

/-- MANIFEST_KEY_ADD (R440): with 8 keys held NO_RESOURCE. -/
def execManifestKeyAdd (c : Fin 32) (payload : Bytes) (s : State) : Host.Outcome State Fault Refusal :=
  .next (
    let s := s.keyTaken c
    let n := s.chanPart c
    let id := fieldAt payload 0 8
    if payload.length < 141 then s.keyAnswer c 0x02 stBadParam
    else if s.staging n then s.keyAnswer c 0x02 stWrongState
    else if 8 ≤ (s.manKeysOf n).length then s.keyAnswer c 0x02 stNoResource
    else ({ s with sec := { s.sec with manKeys := s.sec.manKeys ++ [(n, id, (payload.drop 8).take 133)] } }).keyDone c 0x02 id)

/-- MANIFEST_KEY_REMOVE (R440): an unknown key BAD_PARAM. -/
def execManifestKeyRemove (c : Fin 32) (payload : Bytes) (s : State) : Host.Outcome State Fault Refusal :=
  .next (
    let s := s.keyTaken c
    let n := s.chanPart c
    let id := fieldAt payload 0 8
    if payload.length < 8 then s.keyAnswer c 0x03 stBadParam
    else if s.staging n then s.keyAnswer c 0x03 stWrongState
    else if !(s.manKeysOf n).any (fun k => k.2.1 = id) then s.keyAnswer c 0x03 stBadParam
    else ({ s with sec := { s.sec with
      manKeys := s.sec.manKeys.filter (fun k => !(k.1 = n && k.2.1 = id)) } }).keyDone c 0x03 id)

/-- An operator message is signed by an existing operator key over every byte before the signature; in installation mode the
signer fields are zero and not checked (R440). -/
def State.opSigned (s : State) (payload : Bytes) (len : Nat) : Bool :=
  s.installing ||
  (match s.opKeyFor (fieldAt payload len 8) 0 with
   | some k => Config.verify k.key (payload.take (len + 8)) ((payload.drop (len + 8)).take 132)
   | none => false)

/-- OPERATOR_KEY_SET (R440): on S0 to S7 only; adds or replaces the key; a ninth key has no room. -/
def execOperatorKeySet (c : Fin 32) (payload : Bytes) (s : State) : Host.Outcome State Fault Refusal :=
  .next (
    let s := s.keyTaken c
    let id := fieldAt payload 0 8
    let rest := s.firn.opKeys.filter (fun k => k.id ≠ id)
    if 8 ≤ c.val then s.keyAnswer c 0x10 stNotPermitted
    else if payload.length < 282 ∨ 4 ≤ fieldAt payload 8 1 then s.keyAnswer c 0x10 stBadParam
    else if !s.opSigned payload 142 then s.keyAnswer c 0x10 stSignature
    else if 8 ≤ rest.length then s.keyAnswer c 0x10 stNoResource
    else (({ s with firn := { s.firn with
      opKeys := rest ++ [OpKey.mk id (fieldAt payload 8 1) ((payload.drop 9).take 133)] } }).secShow).keyDone c 0x10 id)

/-- OPERATOR_KEY_REVOKE (R440): the last operator key is not removed. -/
def execOperatorKeyRevoke (c : Fin 32) (payload : Bytes) (s : State) : Host.Outcome State Fault Refusal :=
  .next (
    let s := s.keyTaken c
    let id := fieldAt payload 0 8
    let rest := s.firn.opKeys.filter (fun k => k.id ≠ id)
    if 8 ≤ c.val then s.keyAnswer c 0x11 stNotPermitted
    else if payload.length < 148 ∨ rest.length = s.firn.opKeys.length then s.keyAnswer c 0x11 stBadParam
    else if !s.opSigned payload 8 then s.keyAnswer c 0x11 stSignature
    else if rest = [] then s.keyAnswer c 0x11 stNotPermitted
    else (({ s with firn := { s.firn with opKeys := rest } }).secShow).keyDone c 0x11 id)

/-! ## Certificates and attestation (R436, R445) -/

/-- CERT_GET (R436): the three certificates, root first, each with its length before it. -/
def execCertGet (h : CmdHdr) (s : State) : Host.Outcome State Fault Refusal :=
  .next (
    let p := (s.firn.certs.map (fun c => leBytes 4 c.length ++ c)).flatten
    s.command h true true true true true p.length (fun s => s.done h true stOK 0 p))

/-- The 512 bits of a digest as 64 bytes. -/
def digestBytes (d : BitVec 512) : Bytes := leBytes 64 d.toNat

/-- The entries of a report for partition n (Table 16.5): kind 0 resident, 1 staged. -/
def State.attestEntries (s : State) (n : Nat) : List Bytes :=
  let e (kind : Nat) (m : Manifest) : Bytes :=
    leBytes 1 n ++ leBytes 1 (s.tenantOf n) ++ leBytes 1 kind ++ leBytes 5 0 ++ leBytes 8 m.epoch ++
    digestBytes (Config.sha512 m.bytes)
  (match (s.prt n).wgt.resident.man with | some m => [e 0 m] | none => []) ++
  (match (s.prt n).wgt.staging.man with | some m => if s.getF (F.partWgtStatusStage n) = 2 then [e 1 m] else [] | none => [])

/-- The report before its signature (Table 16.5). -/
def State.attestBody (s : State) (h : CmdHdr) (nonce : BitVec 256) : Bytes :=
  let tenant := h.tenant.val ≠ 0
  let es := (((List.range 16).filter (fun n => s.partState n ≠ 0 && (!tenant || s.tenantOf n = h.tenant.val))).map
    s.attestEntries).flatten
  leBytes 4 0x44564154 ++ leBytes 2 1 ++
  leBytes 2 (bit s.installing + 2 * bit s.sec.fallback + 4 * bit (s.flag F.secStatusRecovery) + 8 * bit tenant) ++
  leBytes 2 s.slot ++ leBytes 1 s.firn.cfg.grade ++ leBytes 1 s.firn.cfg.reserve ++
  leBytes 4 (s.getF F.secFwSvn) ++ leBytes 4 s.sec.fuses ++ leBytes 4 es.length ++ leBytes 8 s.cad.beat.toNat ++
  leBytes 32 nonce.toNat ++ digestBytes Config.bootRomDigest ++ digestBytes (Config.sha512 (s.fwImage s.firn.fwSel)) ++
  digestBytes (Config.sha512 s.firn.cfg.bytes) ++ digestBytes (Config.sha512 s.firn.topo.bytes) ++
  Config.kaPublic ++ leBytes 11 0 ++ es.flatten

/-- ATTEST (R445): with no working key, or while debug is open, WRONG_STATE (R434). -/
def execAttest (h : CmdHdr) (nonce : BitVec 256) (s : State) : Host.Outcome State Fault Refusal :=
  .next (
    let b := s.attestBody h nonce
    let p := b ++ Config.sign Config.identity b
    s.command h true true true (s.flag F.secStatusKeysValid && !s.flag F.secDbgOpen) true p.length (fun s =>
      s.done h true stOK 0 p))

/-! ## Firmware images (R442 to R444) -/

/-- Whether an activation is in progress (SEC_FW.ACTIVATING). -/
def State.activatingNow (s : State) : Bool := s.sec.activating ≠ 0

/-- FW_PUT (R300): collects the image in pieces; with the last piece it stands in the inactive slot. During an activation it
waits (R444). -/
def execFwPut (h : CmdHdr) (off total : Word) (data : Bytes) (s : State) : Host.Outcome State Fault Refusal :=
  .next (if s.activatingNow then s else s.command h false true (decide (off.toNat + data.length ≤ total.toNat)) true true 0 (fun s =>
    let b := putPiece (if off = 0 then [] else s.firn.fwCollect) off.toNat data
    let slot : FwSlot := { bytes := b, svn := Config.fwSvn b, handover := Config.fwHandover b }
    let s :=
      if off.toNat + data.length = total.toNat then
        { s with firn :=
          if s.firn.fwSel = 0 then { s.firn with fwB := slot, fwCollect := [] }
          else { s.firn with fwA := slot, fwCollect := [] } }
      else { s with firn := { s.firn with fwCollect := b } }
    s.done h true stOK 0 []))

/-- FW_ACTIVATE (R444), step 1: a signature or SVN failure SIGNATURE_INVALID; a handover format the running firmware does not
accept WRONG_STATE with DETAIL 1; otherwise the activation begins. -/
def execFwActivate (h : CmdHdr) (s : State) : Host.Outcome State Fault Refusal :=
  .next (s.command h false true true (!s.activatingNow) true 0 (fun s =>
    let b := s.fwImage (1 - s.firn.fwSel)
    if !s.imageOk b then s.done h true stSignature 0 []
    else if !Config.handoverAccepted (Config.fwHandover b) then s.done h true stWrongState 1 []
    else ({ s with sec := { s.sec with activating := 1 } }.setFlag F.secFwActivating true).outstand h 0x0701 0))

/-- FW_HANDOVER (R444), steps 2 and 3: at the window boundary intake stops, the handover block is written and the new image
starts. -/
def execFwHandover (s : State) : Host.Outcome State Fault Refusal :=
  .next (if s.sec.activating = 1 then { s with sec := { s.sec with activating := 2, handover := true } } else s)

end Sys2Proof.Machine
end

