-- ==== Sys2Proof/Machine/Sync.lean ====
section
/-! DEFINITION. Synchronisation objects (R305 to R309): the operations at an object's home, the waits held there, and the SYN slot
(R183). An operation and its home are one step here; the rime net's transit is time that the model leaves out (assumption 12). -/

namespace Sys2Proof.Machine

/-! ## Compatibility messages (R215) -/

/-- A header. -/
def flitHdr (vc part dest src rid : Nat) (last int : Bool) (seq win : Nat) : BitVec 64 :=
  BitVec.ofNat 64 (vc + part * 2 ^ 2 + dest * 2 ^ 6 + src * 2 ^ 14 + rid * 2 ^ 22 + bit last * 2 ^ 30 + bit int * 2 ^ 31 +
    seq % 256 * 2 ^ 32 + win % 256 * 2 ^ 40)

/-- The half of an edge endpoint (Table 1.2): ports P0 to P7, HBM4 controller 0, the control complex and the PCIe endpoint lie West,
ports P8 to P15, HBM4 controller 1 and the security block East. -/
def edgeHalf (e : Nat) : Nat := if (0x68 ≤ e ∧ e ≤ 0x6F) ∨ e = 0x71 ∨ e = 0x73 then 1 else 0

/-- The hub of a half as a node. -/
def hubOf (h : Nat) : Nat := 96 + h

/-- The parity bits of a header and payload (R192). -/
def flitParity (hdr : BitVec 64) (payload : BitVec 1024) : BitVec 17 :=
  (List.range 16).foldl (fun b i => setBit b i (oddOnes 64 (payload.toNat / 2 ^ (64 * i)))) (setBit 0 16 (oddOnes 64 hdr.toNat))

/-- The flit that a sender forms, with its parity (R192). -/
def flitOf (hdr : BitVec 64) (payload : BitVec 1024) : Flit := ⟨hdr, payload, flitParity hdr payload⟩

/-- Every parity bit of the flit is right (R203). -/
def Flit.sound (f : Flit) : Bool := f.par = flitParity f.hdr f.payload

/-- The flit on VC3 that a message of a program in compatibility mode travels in: its words fill payload words 0 and 1 (R215). -/
def State.compatFlit (s : State) (n type dest src : Nat) (w : Word) : Flit :=
  flitOf (flitHdr 3 n dest src 0 true false 0 s.win)
    (BitVec.ofNat 1024 ((RimeMsg.mk type dest src n [w]).word0.toNat + w.toNat * 2 ^ 32))

/-- A message of a program in compatibility mode leaves its source on VC3 (R215). -/
def State.fabricMsg (s : State) (n type dest src : Nat) (w : Word) : State :=
  s.modRouter (if src < 96 then src else hubOf (edgeHalf src)) (fun x => { x with inj := x.inj ++ [s.compatFlit n type dest src w] })

/-! ## Objects (Tables 10.7, 10.8) -/

/-- The endpoint of an object's home (Table 10.8). -/
def homeOf (o : Nat) : Nat := if o < 8192 then 0x70 else 0x71

/-- A program in compatibility mode sends an operation to its object's home. -/
def State.askHome (s : State) (t op o v : Nat) : State :=
  s.fabricMsg (s.ownerOf t) 0x20 (homeOf o) t (BitVec.ofNat 32 (op * 2 ^ 28 + o % 16384 * 2 ^ 14 + v % 16384))

/-- A tile signals an object of its partition (R138, R208): in compatibility mode the message goes to the home on VC3 (R215). -/
def State.signalFrom (s : State) (t n o : Nat) (go : State → State) : State :=
  if s.compat n then s.askHome t 0 o 1 else go s

/-- The unit of a tile whose waiting operation on an object is on its way to the home. -/
def State.askedBy (s : State) (t o : Nat) : Nat := (((s.tile t).asked.find? (fun a => a.2 = o)).map Prod.fst).getD 9

/-- The operations of the SYN slot (R183). -/
def opSignal : Nat := 0
/-- See `opSignal`. -/
def opWait : Nat := 1
/-- See `opSignal`. -/
def opArrive : Nat := 2
/-- See `opSignal`. -/
def opBwait : Nat := 3
/-- See `opSignal`. -/
def opEset : Nat := 4
/-- See `opSignal`. -/
def opEclr : Nat := 5
/-- See `opSignal`. -/
def opEwait : Nat := 6

/-- The operation waits for a condition. -/
def opWaits (op : Nat) : Bool := op = opWait || op = opBwait || op = opEwait

/-- The type whose operations include op. -/
def opType (op : Nat) : Nat := if op ≤ 1 then 0 else if op ≤ 3 then 1 else 2

/-- Object o lies in partition n's range; firmware as partition 0 may operate on every object (R307, R332). -/
def State.objOwned (s : State) (n o : Nat) : Bool :=
  n = 0 || (s.getF (F.syncPartBase n) ≤ o && o < s.getF (F.syncPartBase n) + s.getF (F.syncPartCount n))

/-- EXPECT of a barrier word. -/
def objExpect (w : Word) : Nat := bitsOf w 29 16

/-- The object accepts the operation (R307). -/
def State.opOk (s : State) (n op o : Nat) : Bool :=
  op ≤ 6 && o < 16384 && s.objOwned n o && s.getF (F.syncCfgType o) = opType op &&
  !(op = opArrive && objExpect (s.getR (R.syncObj o)) = 0)

/-- A no-op under R307: TYPE_ERR and a log entry. -/
def State.opRefused (s : State) (n o : Nat) : State :=
  (s.setFlag F.syncStatusTypeErr true).logEv srcCtl (code14 5) n o

/-- A semaphore after SIGNAL of v. -/
def signalWord (w : Word) (v : Nat) : Word := BitVec.ofNat 32 (min (w.toNat + v) 0xFFFFFFFF)

/-- A barrier after ARRIVE of v (Table 10.7): while ARRIVED is at least EXPECT, EXPECT is subtracted and PHASE flips. -/
def arriveWord (w : Word) (v : Nat) : Word :=
  let e := objExpect w
  let n := bitsOf w 13 0 + (if v = 0 then 1 else v)
  let ph := (bitsOf w 31 31 + n / e) % 2
  withBits (withBits w 13 0 (n % e)) 31 31 ph

/-- The condition of a waiting operation holds (Table 10.7). -/
def condHolds (w : Word) (op v : Nat) : Bool :=
  if op = opWait then v ≤ w.toNat
  else if op = opBwait then decide (bitsOf w 31 31 ≠ v % 2)
  else w.getLsbD 0

/-- What a waiting operation that issues leaves of the object. -/
def takeWord (w : Word) (op v : Nat) : Word := if op = opWait then w - BitVec.ofNat 32 v else w

/-- An operation that does not wait, on an object that accepts it. -/
def State.opApply (s : State) (op o v : Nat) : State :=
  let w := s.getR (R.syncObj o)
  if op = opSignal then
    (s.when (0xFFFFFFFF < w.toNat + v) (·.setFlag F.syncStatusOverflow true)).setR (R.syncObj o) (signalWord w v)
  else if op = opArrive then s.setR (R.syncObj o) (arriveWord w v)
  else if op = opEset then s.setR (R.syncObj o) (w ||| 1)
  else s.setR (R.syncObj o) (w &&& 0xFFFFFFFE)

/-- The home answers a waiting issuer (SYNC_ACK), on VC3 in compatibility mode. -/
def State.syncAck (s : State) (x : SyncWait) : State :=
  let w := BitVec.ofNat 32 x.obj
  (if s.compat x.part then s.fabricMsg x.part 0x21 x.src (homeOf x.obj) w
   else s.sendRime 0x21 x.src (homeOf x.obj) x.part [w]).when (x.src < 96) (fun s =>
    s.modTile x.src (fun y => { y with ackDue := y.ackDue ++ [(x.unit, x.obj)] }))

/-- Evaluate the waits of an object against its value (R306). -/
def State.syncWake (s : State) (o : Nat) : State :=
  s.each (s.syncWaits.filter (fun x => x.obj = o)) (fun s x =>
    let w := s.getR (R.syncObj o)
    if condHolds w x.op x.value then
      ({ s with syncWaits := s.syncWaits.erase x }.setR (R.syncObj o) (takeWord w x.op x.value)).syncAck x
    else s)

/-- An operation that does not wait reaches its object's home (R306, R307). -/
def State.syncDo (s : State) (n op o v : Nat) : State :=
  if !s.opOk n op o then s.opRefused n o else (s.opApply op o (v % 16384)).syncWake o

/-- A waiting operation can issue now: its condition holds, or it is a no-op (R307). -/
def State.waitReady (s : State) (n op o v : Nat) : Bool :=
  !s.opOk n op o || condHolds (s.getR (R.syncObj o)) op (v % 16384)

/-- A waiting operation whose condition holds issues. -/
def State.waitTake (s : State) (n op o v : Nat) : State :=
  if !s.opOk n op o then s.opRefused n o
  else s.setR (R.syncObj o) (takeWord (s.getR (R.syncObj o)) op (v % 16384))

/-- A waiting operation is held at its object's home, once. -/
def State.waitHold (s : State) (x : SyncWait) : State :=
  if s.syncWaits.contains x then s else { s with syncWaits := s.syncWaits ++ [x] }

/-- A rime SYNC reaches the home from endpoint src. -/
def State.syncArrive (s : State) (src n op o v unit : Nat) : State :=
  if opWaits op then
    let x : SyncWait := ⟨op, o, v % 16384, src, n, unit⟩
    if s.waitReady n op o v then (s.waitTake n op o v).syncAck x else s.waitHold x
  else s.syncDo n op o v

/-- A SYNC_ACK reaches tile t: a waiting operation that its home has acknowledged may issue. -/
def State.ackArrive (s : State) (t o : Nat) : State :=
  match (s.tile t).ackDue.find? (fun a => a.2 = o) with
  | some a => s.modTile t (fun y => { y with ackDue := y.ackDue.erase a, acks := y.acks ++ [a], asked := y.asked.erase a })
  | none => s

/-! ## Operations of a tile's units (R183, R180) -/

/-- The acknowledgement for a unit and object has arrived. -/
def State.acked (s : State) (t u o : Nat) : Bool := (s.tile t).acks.contains (u, o)

/-- The unit's operation waits at the home, or its acknowledgement is on the way. -/
def State.waitHeld (s : State) (t u o : Nat) : Bool :=
  s.syncWaits.any (fun x => x.src = t && x.unit = u && x.obj = o) || (s.tile t).ackDue.contains (u, o) || (s.tile t).asked.contains (u, o)

/-- An operation of unit u can issue (R164, R183); in compatibility mode a waiting one needs its acknowledgement (R215). -/
def State.unitOpReady (s : State) (t u op o v : Nat) : Bool :=
  !opWaits op || s.acked t u o || (!s.compat (s.ownerOf t) && !s.waitHeld t u o && s.waitReady (s.ownerOf t) op o v)

/-- It asks its home to hold it. -/
def State.unitOpAsk (s : State) (t u op o v : Nat) : State :=
  if opWaits op && !s.acked t u o && !s.waitHeld t u o then
    if s.compat (s.ownerOf t) then (s.askHome t op o v).modTile t (fun y => { y with asked := y.asked ++ [(u, o)] })
    else s.waitHold ⟨op, o, v % 16384, t, s.ownerOf t, u⟩
  else s

/-- The operation issues. -/
def State.unitOpRun (s : State) (t u op o v : Nat) : State :=
  if !opWaits op && s.compat (s.ownerOf t) then s.askHome t op o v
  else if opWaits op then
    if s.acked t u o then s.modTile t (fun y => { y with acks := y.acks.erase (u, o) })
    else s.waitTake (s.ownerOf t) op o v
  else s.syncDo (s.ownerOf t) op o v

/-- An action of the SYN slot. -/
def State.synAct (s : State) (t op o v : Nat) : Action where
  unit := 9
  occ := 1
  ready := .need (s.unitOpReady t 9 op o v) .front
  ask := fun s => (s.unitOpAsk t 9 op o v).count t 0x080 0 none 1
  run := fun s => s.unitOpRun t 9 op o v

/-- SIGNAL (R307). -/
def execSignal (t : TileN) (obj value : BitVec 14) (s : State) : Host.Outcome State Fault Refusal :=
  .next (s.act t (s.synAct t opSignal obj.toNat value.toNat))

/-- WAIT (R307). -/
def execWait (t : TileN) (obj value : BitVec 14) (s : State) : Host.Outcome State Fault Refusal :=
  .next (s.act t (s.synAct t opWait obj.toNat value.toNat))

/-- ARRIVE (R307). -/
def execArrive (t : TileN) (obj value : BitVec 14) (s : State) : Host.Outcome State Fault Refusal :=
  .next (s.act t (s.synAct t opArrive obj.toNat value.toNat))

/-- BWAIT (R307). -/
def execBwait (t : TileN) (obj value : BitVec 14) (s : State) : Host.Outcome State Fault Refusal :=
  .next (s.act t (s.synAct t opBwait obj.toNat value.toNat))

/-- ESET (R307). -/
def execEset (t : TileN) (obj value : BitVec 14) (s : State) : Host.Outcome State Fault Refusal :=
  .next (s.act t (s.synAct t opEset obj.toNat value.toNat))

/-- ECLR (R307). -/
def execEclr (t : TileN) (obj value : BitVec 14) (s : State) : Host.Outcome State Fault Refusal :=
  .next (s.act t (s.synAct t opEclr obj.toNat value.toNat))

/-- EWAIT (R307). -/
def execEwait (t : TileN) (obj value : BitVec 14) (s : State) : Host.Outcome State Fault Refusal :=
  .next (s.act t (s.synAct t opEwait obj.toNat value.toNat))

/-! ## Messages and commands (R306, R308, R300) -/

/-- SYNC (R306): a rime SYNC of partition n from an endpoint. -/
def execSync (src : Byte) (n : PartN) (op : BitVec 4) (obj value : BitVec 14) (s : State) : Host.Outcome State Fault Refusal :=
  .next (s.syncArrive src.toNat n op.toNat obj.toNat value.toNat 9)

/-- SYNC_ACK (R306). -/
def execSyncAck (t : TileN) (obj : BitVec 14) (s : State) : Host.Outcome State Fault Refusal :=
  .next (s.ackArrive t obj.toNat)

/-- SYNC_REMOTE (R308): an operation from another module; only SIGNAL, ARRIVE, ESET and ECLR go remote, and only on an object of
the sending partition. -/
def execSyncRemote (_slot : SlotN) (n : PartN) (obj : BitVec 14) (op : Byte) (value : Word) (s : State) :
    Host.Outcome State Fault Refusal :=
  if opWaits op.toNat || 6 < op.toNat || !s.objOwned n obj.toNat then .next (s.logEv srcCtl (code14 4) n obj.toNat)
  else .next (s.syncDo n op.toNat obj.toNat value.toNat)

/-- A SYNC_PART write is taken (R305): the range ends by object 16,383 and meets no other partition's. -/
def State.syncPartOk (s : State) (n : Nat) (w : Word) : Bool :=
  let b := bitsOf w 13 0
  let c := bitsOf w 30 16
  b + c ≤ 16384 &&
  (List.range 16).all (fun k => k = n || c = 0 || s.getF (F.syncPartCount k) = 0 ||
    b + c ≤ s.getF (F.syncPartBase k) || s.getF (F.syncPartBase k) + s.getF (F.syncPartCount k) ≤ b)

/-- A write of SYNC_PARTn. -/
def State.syncPartWrite (s : State) (n : Nat) (w : Word) : State :=
  if s.syncPartOk n w then s.setR (R.syncPart n) (w &&& 0x7FFF3FFF) else s.logEv srcCtl (code14 5) n n

/-- SYNC_OBJ_WRITE (R306, Table 10.8): a register write of an object is one operation at its home. -/
def State.objWrite (s : State) (k : Nat) (w : Word) : State := (s.setR (R.syncObj k) w).syncWake k

/-- SYNC_OBJ_WRITE. -/
def execSyncObjWrite (k : BitVec 14) (w : Word) (s : State) : Host.Outcome State Fault Refusal :=
  .next (s.objWrite k.toNat w)

/-- A partition's objects return to reset (R309, R346). -/
def State.syncClear (s : State) (n : Nat) : State :=
  s.each ((List.range (s.getF (F.syncPartCount n))).map (s.getF (F.syncPartBase n) + ·)) (fun s k => s.setR (R.syncObj k) 0)

/-- Every pending operation and waiting acknowledgement of a partition is dropped, and its objects return to reset (R309). -/
def State.syncDrop (s : State) (n : Nat) : State :=
  let s := { s with syncWaits := s.syncWaits.filter (fun x => x.part ≠ n) }
  let s := s.each (s.tilesOf n) (fun s t => s.modTile t (fun y => { y with ackDue := [], acks := [], asked := [] }))
  s.syncClear n

end Sys2Proof.Machine
end

