-- ==== Sys2Proof/Machine/Prefetch.lean ====
section
/-! DEFINITION. Stream prefetchers and credit queues (R135 to R139), and the fields of a link flit that a link stream's chunk is
taken from (R223, R230). -/

namespace Sys2Proof.Machine

/-! ## Fields of a link flit (Table 8.2) -/

/-- CLASS. -/
def LFlit.cls (f : LFlit) : Nat := f.hdr.toNat % 16
/-- PART. -/
def LFlit.part (f : LFlit) : Nat := f.hdr.toNat / 2 ^ 4 % 16
/-- DEST. -/
def LFlit.dest (f : LFlit) : Nat := f.hdr.toNat / 2 ^ 8 % 1024
/-- SRC. -/
def LFlit.src (f : LFlit) : Nat := f.hdr.toNat / 2 ^ 18 % 1024
/-- STREAM. -/
def LFlit.stream (f : LFlit) : Nat := f.hdr.toNat / 2 ^ 28 % 65536
/-- WIN. -/
def LFlit.win (f : LFlit) : Nat := f.hdr.toNat / 2 ^ 44 % 256
/-- INDEX. -/
def LFlit.index (f : LFlit) : Nat := f.hdr.toNat / 2 ^ 52 % 256
/-- FILL. -/
def LFlit.fill (f : LFlit) : Nat := f.hdr.toNat / 2 ^ 60 % 16

/-- The bytes that a flit carries. -/
def LFlit.bytes (f : LFlit) : Bytes := leBytes (if f.fill = 0 then 240 else 16 * f.fill) f.payload.toNat

/-- The receive pool of a class (Table 8.3). -/
def poolOf (cls : Nat) : Option Nat :=
  match cls with
  | 1 => some 0 | 2 => some 1 | 3 => some 2 | 5 => some 3 | 6 => some 4 | 7 => some 5 | _ => none

/-- The window nearest to window `cur` whose low 8 bits are `tag` (R230). -/
def nearWin (cur tag : Nat) : Nat :=
  let d := (tag + 256 - cur % 256) % 256
  if d < 128 then cur + d else cur + d - 256

/-- A buffer of the port's receive pool is freed (R225). -/
def PortSt.free (x : PortSt) (cls : Nat) : PortSt :=
  match poolOf cls with
  | some k => { x with freed := addAt x.freed k 1 }
  | none => x

/-- The flits of a stream that wait at a port for a partition (R230, R231). -/
def PortSt.streamFlits (x : PortSt) (n stream : Nat) : List LFlit :=
  x.rxBuf.filter (fun f => (f.cls = 1 || f.cls = 2 || f.cls = 6) && f.stream = stream && f.part = n)

/-- The bytes of a partition's stream that have been taken from its oldest flit. -/
def PortSt.taken (x : PortSt) (n stream : Nat) : Nat := (List.lookup (65536 * n + stream) x.skip).getD 0

/-- The bytes of a stream that wait. -/
def PortSt.streamBytes (x : PortSt) (n stream : Nat) : Bytes :=
  ((x.streamFlits n stream).flatMap LFlit.bytes).drop (x.taken n stream)

/-- Take k bytes of a stream: the flits emptied leave the buffer, each freeing its credit; a page reply's was freed when it came (R225). -/
def PortSt.takeBytes (n stream : Nat) : List LFlit → PortSt → Nat → PortSt
  | [], x, _ => x
  | f :: fs, x, k =>
    let len := f.bytes.length
    let skip := x.skip.filter (fun e => e.1 ≠ 65536 * n + stream)
    if k < len then { x with skip := (65536 * n + stream, k) :: skip }
    else PortSt.takeBytes n stream fs ({ x with rxBuf := x.rxBuf.erase f, skip := skip }.free (if f.cls = 6 then 0 else f.cls)) (k - len)

/-! ## Credit queues (R137, Table 5.13) -/

/-- Credit queue k of a tile. -/
def TileSt.cqSt (x : TileSt) (k : Nat) : CqSt := Sparse.get (fun _ => {}) x.cq k

/-- Change a credit queue. -/
def State.modCq (s : State) (t k : Nat) (f : CqSt → CqSt) : State :=
  s.modTile t (fun x => { x with cq := Sparse.set (fun _ => {}) x.cq k (f (x.cqSt k)) })

/-- Move a slot from one count of CQ_STATE to another. -/
def State.cqMove (s : State) (a b : FieldRef) : State := (s.setF a (s.getF a - 1)).addF b 1

/-- The READY slot at the head of a queue. -/
def State.cqHead (s : State) (t k : Nat) : Option (Nat × Nat) := (((s.tile t).cqSt k).ready).head?

/-- A consumer takes the head slot (R137). -/
def State.cqTake (s : State) (t k : Nat) : State :=
  (s.cqMove (F.cqStateReady t k) (F.cqStateHeld t k)).modCq t k (fun q => { q with ready := q.ready.drop 1 })

/-- The results that used a held slot have passed their checks (R137). -/
def State.cqGive (s : State) (t k : Nat) : State := s.cqMove (F.cqStateHeld t k) (F.cqStateCredits t k)

/-- A held slot fed a result written to scratch, so it stays HELD until the end of the window (R354). -/
def State.cqKeep (s : State) (t k : Nat) : State := s.modCq t k (fun q => { q with heldScratch := q.heldScratch + 1 })

/-- The consumer of a slot whose result went to store offset o. -/
def State.cqDone (s : State) (t k o : Nat) : State :=
  if s.dwEnd t ≤ o then s.cqKeep t k else s.cqGive t k

/-- At a window end the slots kept for scratch results return (R354). -/
def State.cqWindow (s : State) (t k : Nat) : State :=
  let n := ((s.tile t).cqSt k).heldScratch
  if n = 0 then s
  else (((s.setF (F.cqStateHeld t k) (s.getF (F.cqStateHeld t k) - n)).addF (F.cqStateCredits t k) n)).modCq t k
    (fun q => { q with heldScratch := 0 })

/-- The queue holds nothing in flight, ready or held. -/
def State.cqIdle (s : State) (t k : Nat) : Bool :=
  s.getF (F.cqStateInflight t k) = 0 && s.getF (F.cqStateReady t k) = 0 && s.getF (F.cqStateHeld t k) = 0

/-- A queue returns to CREDITS = DEPTH (R139). -/
def State.cqReset (s : State) (t k : Nat) : State :=
  (s.setR (R.cqState t k) (BitVec.ofNat 32 (s.getF (F.cqCfgDepth t k)))).modCq t k (fun _ => {})

/-- A write of CQ_CFGk: DEPTH 1 to 128, while the queue is idle; other writes are ignored (Table 5.13). -/
def State.cqCfg (s : State) (t k : Nat) (w : Word) : State :=
  let d := bitsOf w 7 0
  if s.cqIdle t k && 1 ≤ d && d ≤ 128 then (s.setF (F.cqCfgDepth t k) d).cqReset t k else s

/-- CQ_CFG_WRITE (R137). -/
def execCqCfgWrite (t : TileN) (k : Fin 32) (w : Word) (s : State) : Host.Outcome State Fault Refusal :=
  if !s.tileOn t then .next s else .next (s.cqCfg t k w)

/-! ## Descriptors (Table 5.4) -/

/-- SRC_KIND. -/
def PfDesc.kind (d : PfDesc) : Nat := bitsOf d.w0 2 0
/-- CQ. -/
def PfDesc.cq (d : PfDesc) : Nat := bitsOf d.w0 7 3
/-- The chunk size in bytes. -/
def PfDesc.size (d : PfDesc) : Nat := 64 * bitsOf d.w0 14 8
/-- SRC_HI as a tile or port number. -/
def PfDesc.unit (d : PfDesc) : Nat := if d.kind = 3 then bitsOf d.w2 3 0 else bitsOf d.w2 6 0
/-- The source of chunk i: an HBM4 offset, a store offset or a stream. -/
def PfDesc.source (d : PfDesc) (i : Nat) : Nat :=
  if d.kind = 3 then bitsOf d.w1 15 0
  else
    let base : Nat := if d.kind ≤ 1 then d.w1.toNat + bitsOf d.w2 4 0 * 2 ^ 32 else d.w1.toNat
    ((base + i * d.w3.toInt) % (2 ^ 37 : Int)).toNat
/-- COUNT. -/
def PfDesc.count (d : PfDesc) : Nat := d.w4.toNat
/-- DST_BASE. -/
def PfDesc.base (d : PfDesc) : Nat := bitsOf d.w5 22 0
/-- The object that the last chunk signals. -/
def PfDesc.doneObj (d : PfDesc) : Option Nat := if d.w6.getLsbD 15 then some (bitsOf d.w6 13 0) else none

/-- A descriptor from 28 bytes. -/
def pfDescOf (b : Bytes) : PfDesc :=
  let w := fun k => BitVec.ofNat 32 (fieldAt b (4 * k) 4)
  ⟨w 0, w 1, w 2, w 3, w 4, w 5, w 6, false⟩

/-- Prefetcher p of a tile. -/
def TileSt.pfSt (x : TileSt) (p : Nat) : PfSt := Sparse.get (fun _ => {}) x.pf p

/-- Change a prefetcher. -/
def State.modPf (s : State) (t p : Nat) (f : PfSt → PfSt) : State :=
  s.modTile t (fun x => { x with pf := Sparse.set (fun _ => {}) x.pf p (f (x.pfSt p)) })

/-- PF_STATUS.QUEUED shows the queue. -/
def State.pfShow (s : State) (t p : Nat) : State := s.setF (F.pfStatusQueued t p) ((s.tile t).pfSt p).queue.length

/-- Enqueue a descriptor, or refuse and count it when the queue is full (R135). -/
def State.pfPush (s : State) (t p : Nat) (d : PfDesc) : State :=
  if 4 ≤ ((s.tile t).pfSt p).queue.length then s.satF (F.pfStatusFullPushes t p) 1
  else (s.modPf t p (fun x => { x with queue := x.queue ++ [d] })).pfShow t p

/-- The descriptor staged in PF_DESC0 to PF_DESC6. -/
def State.pfStaged (s : State) (t p : Nat) : PfDesc :=
  let w := fun k => s.getR (R.pfDesc t p k)
  ⟨w 0, w 1, w 2, w 3, w 4, w 5, w 6, false⟩

/-- Stop a prefetcher (R139): what is in flight still lands. -/
def State.pfStop (s : State) (t p : Nat) : State :=
  (s.modPf t p (fun x => { x with queue := [], started := false, issued := 0 })).pfShow t p

/-- PF_CTRL_PUSH (R135). -/
def execPfCtrlPush (t : TileN) (p : Fin 16) (s : State) : Host.Outcome State Fault Refusal :=
  if !s.tileOn t then .next s else .next (s.pfPush t p (s.pfStaged t p))

/-- PF_CTRL_STOP (R139). -/
def execPfCtrlStop (t : TileN) (p : Fin 16) (s : State) : Host.Outcome State Fault Refusal :=
  if !s.tileOn t then .next s else .next (s.pfStop t p)

/-- The ring lies wholly within one region that the descriptor may name (R136). -/
def State.ringOk (s : State) (t : Nat) (d : PfDesc) : Bool :=
  let lo := d.base
  let hi := lo + s.getF (F.cqCfgDepth t d.cq) * d.size
  lo % 64 = 0 &&
  ((s.dwEnd t ≤ lo && hi ≤ s.scratchEnd t) || (s.pbEnd t ≤ lo && hi ≤ s.dwEnd t) || (d.load && hi ≤ s.pbEnd t))

/-- Some chunk of a kind-1 descriptor crosses a 4 KiB boundary; offsets in a line repeat after at most 4,096 chunks. -/
def PfDesc.crosses (d : PfDesc) : Bool :=
  (List.range (if d.count = 0 then 4096 else min 4096 d.count)).any (fun i => 4096 < d.source i % 4096 + d.size)

/-- The HBM4 source lies in one region of the partition: the first chunk and, of a descriptor that ends, the last. -/
def State.pfSrcOk (s : State) (n : Nat) (d : PfDesc) : Bool :=
  let last := if d.count = 0 then 0 else d.count - 1
  n = 0 || (s.hbmRegions n).any (fun r =>
    [0, last].all (fun i => r.1 ≤ d.source i && d.source i + d.size ≤ r.1 + r.2))

/-- The reason for which a descriptor is refused (R136, Table 5.13), 0 for none. -/
def State.pfReason (s : State) (t : Nat) (d : PfDesc) : Nat :=
  if 4 < d.kind then 1
  else if d.size = 0 || 4096 < d.size then 2
  else if d.kind = 1 && d.crosses then 3
  else if d.kind ≤ 1 && !d.load && !s.pfSrcOk (s.ownerOf t) d then 4
  else if !s.ringOk t d then 5
  else 0

/-- A prefetcher takes its next descriptor (R136). -/
def State.pfStart (s : State) (t p : Nat) : State :=
  let x := (s.tile t).pfSt p
  match x.queue with
  | [] => s
  | d :: rest =>
    if x.started then s
    else
      let why := s.pfReason t d
      if why = 0 then s.modPf t p (fun x => { x with started := true, issued := 0 })
      else
        (((s.modPf t p (fun x => { x with queue := rest })).pfShow t p).setFlag (F.pfStatusRefused t p) true).setF
          (F.pfStatusReason t p) why |>.logTile t (0x90 + p) (code14 3) why

/-- DESCRIPTOR_START (R136). -/
def execDescriptorStart (t : TileN) (p : Fin 16) (s : State) : Host.Outcome State Fault Refusal :=
  if !s.tileRuns t then .next s else .next (s.pfStart t p)

/-! ## Chunks (R133, R137, R138, R187) -/

/-- A kind-1 chunk looks in the page cache (R133, R134). -/
def State.pcLook (s : State) (t p line : Nat) : State :=
  if (s.tile t).pcache.any (fun l => l.line = line) then
    ((s.addF (F.tilePcHitsHits t) 1).count t 0x052 0 none 1).modTile t (fun x => { x with
      pstamp := x.pstamp + 1
      pcache := x.pcache.map (fun l => if l.line = line then { l with stamp := x.pstamp + 1 } else l) })
  else
    ((s.addF (F.tilePcMissesMisses t) 1).count t 0x053 0 none 1).modTile t (fun x => { x with
      pfills := if x.pfills.any (fun f => f.line = line) then x.pfills else x.pfills ++ [PcFill.mk line p false] })

/-- Issue the next chunk of a started descriptor while its queue has a credit (R137). A kind-2 source tile is translated now
(R187). A kind-1 chunk looks in the page cache when its line lies in the partition's region (R133); with no page cache (PC 0) it reads
HBM4 and counts neither a hit nor a miss (DESIGN CHOICE, log entry 72: the spec is silent). -/
def State.pfIssue (s : State) (t p : Nat) : State :=
  let x := (s.tile t).pfSt p
  match x.queue with
  | [] => s
  | d :: rest =>
    if !x.started || s.getF (F.cqStateCredits t d.cq) = 0 then s
    else
      let q := (s.tile t).cqSt d.cq
      let depth := s.getF (F.cqCfgDepth t d.cq)
      let i := x.issued
      let last := d.count = i + 1
      let c : Chunk := { num := i, cq := d.cq, kind := d.kind, src := d.source i, size := d.size, load := d.load
                         unit := if d.kind = 2 then (s.phys d.unit).getD 127 else d.unit
                         dst := d.base + q.next % depth * d.size, done := if last then d.doneObj else none }
      let s := (s.cqMove (F.cqStateCredits t d.cq) (F.cqStateInflight t d.cq)).modCq t d.cq (fun q => { q with next := q.next + 1 })
      let s := s.when (d.kind = 1 && s.pcSets t ≠ 0 && s.hbmOwns (s.ownerOf t) (c.src / 4096 * 4096) 4096) (fun s => s.pcLook t p (c.src / 4096))
      (s.modPf t p (fun x => { x with
        flight := x.flight ++ [c], issued := if last then 0 else i + 1
        started := !last, queue := if last then rest else x.queue })).pfShow t p

/-- CHUNK_ISSUE (R137). -/
def execChunkIssue (t : TileN) (p : Fin 16) (s : State) : Host.Outcome State Fault Refusal :=
  if !s.tileRuns t then .next s else .next (s.pfIssue t p)

/-- Bytes of a tile's store as a prefetcher reads them, and whether they are sound (R130, R131). -/
def State.pfStore (s : State) (u o n : Nat) : Option Bytes :=
  if !s.actOk u o n then some (List.replicate n 0)
  else if (s.tile u).sound o n then some ((s.tile u).bytes o n) else none

/-- What a read of HBM4 gives a prefetcher of partition n (R341): zeros outside a tenant's regions. Bytes of partition 0 at or beyond
96,000,000,000 do not exist (R16), and what their read gives is free (log entry 72). -/
def State.hbmFetch (s : State) (n a k : Nat) : Bytes :=
  if s.hbmOwns n a k then s.hbmSeen a k
  else if n = 0 then (List.range k).map (fun j => BitVec.ofNat 8 (Config.freeNat (s.free + j)))
  else List.replicate k 0

/-- The line of the page cache that a kind-1 chunk hits (R133): the store offset of the chunk's bytes. -/
def State.pcHit (s : State) (t : Nat) (c : Chunk) : Option Nat :=
  ((s.tile t).pcache.find? (fun l => l.line = c.src / 4096)).map (fun l => s.pcAddr t l.set l.way + c.src % 4096)

/-- The bytes of a chunk at its source, none while they are not there: a page cache fill in flight, an HBM4 line under restore (R356), a
store word under restore, another partition's tile (R211), or a stream whose flits have not come. A page cache hit copies the chunk from its line. -/
def State.pfBytes (s : State) (t : Nat) (c : Chunk) : Option Bytes :=
  let n := s.ownerOf t
  match c.kind with
  | 0 => if s.linesGood c.src c.size then some (s.hbmFetch n c.src c.size) else none
  | 1 =>
    if (s.tile t).pfills.any (fun f => f.line = c.src / 4096) then none
    else match s.pcHit t c with
      | some o => if (s.tile t).sound o c.size then some ((s.tile t).bytes o c.size) else none
      | none => if s.linesGood c.src c.size then some (s.hbmFetch n c.src c.size) else none
  | 2 => if c.unit < 96 ∧ s.ownerOf c.unit = n then s.pfStore c.unit c.src c.size else none
  | 3 =>
    let b := (s.port c.unit).streamBytes n c.src
    if c.size ≤ b.length then some (b.take c.size) else none
  | _ => s.pfStore t c.src c.size

/-- The bursts that a chunk takes from its partition's bucket (R340): those of a read that reaches HBM4. -/
def State.pfBursts (s : State) (t : Nat) (c : Chunk) : Nat :=
  if (c.kind = 0 || (c.kind = 1 && (s.pcHit t c).isNone)) && s.hbmOwns (s.ownerOf t) c.src c.size then burstsOf c.src c.size else 0

/-- What else the read of a chunk's source does: a controller counts a suppressed access (R341), a tile counts one (R130), a bad
word is restored (R131), a foreign tile's flit is discarded (R211), and a port's flits are taken (R230). -/
def State.pfNote (s : State) (t : Nat) (c : Chunk) : State :=
  let n := s.ownerOf t
  match c.kind with
  | 0 => if s.hbmOwns n c.src c.size then s else (s.hbmDenied n c.src).freshN c.size
  | 1 =>
    match s.pcHit t c with
    | some o => s.when (!(s.tile t).sound o c.size) (fun s => s.askRestore t o c.size)
    | none => if s.hbmOwns n c.src c.size then s else (s.hbmDenied n c.src).freshN c.size
  | 2 =>
    if c.unit < 96 ∧ s.ownerOf c.unit = n then
      (s.noteRead c.unit c.src c.size).when (s.pfStore c.unit c.src c.size).isNone (fun s => s.askRestore c.unit c.src c.size)
    else (s.setFlag F.netStatusBadDest true).logTile t 0x87 (code14 4) c.unit
  | 3 =>
    let x := s.port c.unit
    if c.size ≤ (x.streamBytes n c.src).length then
      s.setPort c.unit (PortSt.takeBytes n c.src (x.streamFlits n c.src) x (x.taken n c.src + c.size))
    else s
  | _ => (s.noteRead t c.src c.size).when (s.pfStore t c.src c.size).isNone (fun s => s.askRestore t c.src c.size)

/-- The latest window of the scheduled flits that hold a chunk's bytes (R138, R230). -/
def State.pfSched (s : State) (t : Nat) (c : Chunk) : Option Nat :=
  if c.kind ≠ 3 then none
  else
    let x := s.port c.unit
    let need := x.taken (s.ownerOf t) c.src + c.size
    let fs := ((x.streamFlits (s.ownerOf t) c.src).foldl (fun (a : Nat × List LFlit) f =>
      (a.1 + f.bytes.length, if a.1 < need then f :: a.2 else a.2)) (0, [])).2
    (fs.filter (fun f => f.cls = 1)).foldl (fun m f =>
      let w := nearWin s.win f.win
      some (match m with | some v => max v w | none => w)) none

/-- A landed chunk's lines have its prefetcher as their writer; a link stream's cannot be fetched again (R355). -/
def TileSt.noteChunk (x : TileSt) (p pos : Nat) (c : Chunk) : TileSt :=
  if c.kind = 3 then
    { x with writers := x.writers.filter (fun e => !(linesOf c.dst c.size).contains e.1) }
  else x.noteWriter c.dst c.size pos (0x90 + p) []

/-- Chunks become READY in issue order (R137, R138). -/
def State.pfReady (s : State) (t p : Nat) : Nat → State
  | 0 => s
  | n + 1 =>
    match ((s.tile t).pfSt p).flight with
    | [] => s
    | c :: rest =>
      let go := c.landed && (match c.sched with | some w => decide (w < s.win) | none => true)
      if !go then s
      else
        let s := (s.cqMove (F.cqStateInflight t c.cq) (F.cqStateReady t c.cq)).modCq t c.cq (fun q => { q with
          ready := q.ready ++ [(c.dst, c.size)] })
        let s := s.modPf t p (fun x => { x with flight := rest })
        let s := match c.done with
          | some o => s.signalFrom t (s.ownerOf t) o (fun s => s.syncDo (s.ownerOf t) opSignal o 1)
          | none => s
        State.pfReady s t p n

/-- A landing chunk stays inside the region that its descriptor may write (R126, R130), as the regions and the ring stand now. -/
def State.landOk (s : State) (t : Nat) (c : Chunk) : Bool :=
  if c.load then c.dst + c.size ≤ s.pbEnd t else s.actOk t c.dst c.size

/-- A chunk lands (R137): its bytes are written, and it becomes READY in its turn. A write that leaves its region is suppressed, counted
and logged (R130). -/
def State.pfLand (s : State) (t p : Nat) (c : Chunk) (b : Bytes) : State :=
  let sched := s.pfSched t c
  let s := (s.pfNote t c).count t 0x060 p none 1
  let s := if s.landOk t c then s.modTile t (fun x => (x.put c.dst b).noteChunk p (s.getF (F.tileSeqPosPos t)) c)
    else s.denyStore t c.dst
  let s := s.modPf t p (fun x => { x with
    flight := x.flight.map (fun d => if d = c then { d with landed := true, sched := sched } else d) })
  s.pfReady t p ((s.tile t).pfSt p).flight.length

/-- Every prefetcher of a tile drops its descriptors and chunks, and each queue returns to CREDITS = DEPTH (R139). -/
def State.pfDrop (s : State) (t : Nat) : State :=
  let s := (s.hbmForget t).modTile t (fun x => { x with pf := [], cq := [] })
  (s.each (List.range 16) (fun s p => s.pfShow t p)).each (List.range 32) (fun s k => s.cqReset t k)

end Sys2Proof.Machine
end

