-- ==== Sys2Proof/Machine/Engines.lean ====
section
/-! DEFINITION. The checks of digital results with their votes (R150 to R153, R357, R359), the digital engine (R140 to R145, R177),
and the MOV and CHK actions (R181, R184). -/

namespace Sys2Proof.Machine

/-! ## The digital engine -/

/-- A weight record's size and its load beats by class (Table 5.6): 0 I8, 1 I8W4, 2 I8A8, 3 X4. -/
def deRecord (cls : Nat) : Nat := if cls = 1 then 2560 else 4608
/-- See `deRecord`. -/
def deLoadBeats (cls : Nat) : Nat := if cls = 1 then 5 else 9
/-- Columns of a class, and vectors of the wide file. -/
def deCols (cls : Nat) : Nat := if cls = 3 then 128 else 64
/-- See `deCols`. -/
def deVecs (cls : Nat) : Nat := if cls = 3 then 32 else 64

/-- A nibble of a byte string: even j in the low nibble of byte j / 2. -/
def nibble (b : Bytes) (o j : Nat) : Nat := fieldAt b (o + j / 2) 1 / 16 ^ (j % 2) % 16

/-- The weight at row i and column j of a buffered block (R141). -/
def DeBuf.weight (x : DeBuf) (i j : Nat) : Int :=
  if x.cls = 1 then signed 4 (nibble x.bytes (32 * i) j)
  else if x.cls = 3 then signed 4 (nibble x.bytes (64 * i) j)
  else signed 8 (fieldAt x.bytes (64 * i + j) 1)

/-- The scale byte of column j: the start of the record's last line. -/
def DeBuf.scale (x : DeBuf) (j : Nat) : Nat := fieldAt x.bytes (deRecord x.cls - 512 + j) 1

/-- Buffer 0 or 1. -/
def TileSt.deBuf (x : TileSt) (b : Bool) : DeBuf := if b then x.deBuf1 else x.deBuf0

/-- Element i of a run record (R473). The A4 elements of an X4 run are packed two a byte, as R76 packs an A4 vector (DESIGN CHOICE, log
entry 28: R473 lays out A8 runs alone). -/
def runElem (cls : Nat) (r : Bytes) (i : Nat) : Int :=
  if cls = 3 then signed 4 (fieldAt r (i / 2) 1 / (if i % 2 = 0 then 1 else 16)) else signed 8 (fieldAt r i 1)

/-- The narrow value of a run at column j (R91). -/
def deNarrow (x : DeBuf) (cls : Nat) (r : Bytes) (j : Nat) : Int :=
  (List.range 64).foldl (fun n i => n + runElem cls r i * x.weight i j) 0

/-- The residue that the DE predicts for a narrow value: the sum of r(a) × r(w) mod 15 over the run (R150). -/
def dePredict (x : DeBuf) (cls : Nat) (r : Bytes) (j : Nat) : Nat :=
  (List.range 64).foldl (fun n i => n + residue15 (runElem cls r i) * residue15 (x.weight i j)) 0 % 15

/-- The narrow value of a run at column j, delivered only when its residue is the predicted one (R150). -/
def deFormed (x : DeBuf) (cls : Nat) (r : Bytes) (j : Nat) : Option Int :=
  let n := deNarrow x cls r j
  if residue15 n = dePredict x cls r j then some n else none

/-- Promotion in the DE (R93). -/
def deEntry (wide : Word) (n : Int) (sa sw : Nat) : Word :=
  if sa = 0xFF || sw = 0xFF then Config.deBadScale wide n sa sw else promote wide n sa sw

/-- A RUN of a layer placed on the DE in exact int4 mode (R92, Table 6.2): the runs of a segment are summed before the promotion. -/
def State.deWhole (s : State) (t : Nat) (r : DeRun) : Bool := r.cls = 3 && (s.layerSlot t r.lslot).flags % 2 = 1

/-- One run into vector v of the wide file (R91 to R93, R142, R143). Vectors beyond the file do not exist. The segment sums of a layer
in exact int4 mode are promoted with the scales of the segment's last run (DEDUCED: a segment has one of each, R38). -/
def State.deRunOne (s : State) (t : Nat) (r : DeRun) (v : Nat) (b : Bytes) : State :=
  if deVecs r.cls ≤ v then s
  else
    let y := s.tile t
    let x := y.deBuf r.buf
    let c := deCols r.cls
    let o := v * c
    let n := fun (j : Nat) => (deFormed x r.cls b j).getD 0
    let entry := fun (f : Nat → Int) => Sparse.setRange (fun _ => 0) y.deWide o c (fun j =>
      deEntry (Sparse.get (fun _ => 0) y.deWide (o + j)) (f j) (fieldAt b 64 1) (x.scale j))
    if !s.deWhole t r then s.modTile t (fun y => { y with deWide := entry n })
    else
      let sum := fun (j : Nat) => Sparse.get (fun _ => 0) y.deSum (o + j) + n j
      let k := Sparse.get (fun _ => 0) y.deCnt v + 1
      if k < segRows (s.layerSlot t r.lslot).seg / 64 then
        s.modTile t (fun y => { y with
          deSum := Sparse.setRange (fun _ => 0) y.deSum o c sum, deCnt := Sparse.set (fun _ => 0) y.deCnt v k })
      else
        s.modTile t (fun y => { y with
          deWide := entry sum, deSum := Sparse.setRange (fun _ => 0) y.deSum o c (fun _ => 0)
          deCnt := Sparse.set (fun _ => 0) y.deCnt v 0 })

/-- The RUN takes READY slots of its queue into the input queue, up to n of them (R137, R143); a bad word is restored first. -/
def State.dePull (s : State) (t : Nat) : Nat → State
  | 0 => s
  | n + 1 =>
    match (s.tile t).deRun with
    | none => s
    | some r =>
      if r.nruns ≤ r.pulled || 64 ≤ (s.tile t).deIn.length then s
      else match s.cqHead t r.cq with
        | none => s
        | some (o, _) =>
          if !s.soundAt t (o, 128) then s.askRestore t o 128
          else
            let b := s.stRead t o 128
            (((s.noteRead t o 128).cqTake t r.cq).modTile t (fun x => { x with
              deIn := x.deIn ++ [b], deRun := some { r with pulled := r.pulled + 1 } })).dePull t n

/-- The block may compute: priority work of R144 takes the multiply array at a block boundary, so a RUN that has begun goes on. -/
def TileSt.deMay (x : TileSt) (r : DeRun) : Bool := x.dePrio = 0 || r.done ≠ 0

/-- The runs of the input queue are computed (R142, R143), and their slots go back once the results have passed (R137). The outcome that
a RUN carries is that of the check of its last results; those of its earlier ones pass (DESIGN CHOICE, log entry 75). -/
def State.deGo (s : State) (t : Nat) : State :=
  match (s.tile t).deRun with
  | none => s
  | some r =>
    let bs := (s.tile t).deIn
    if bs.isEmpty || !(s.tile t).deMay r then s
    else
      let last := decide (r.nruns ≤ r.done + bs.length)
      let s := s.modTile t (fun x => { x with
        deIn := [], deRun := if last then none else some { r with done := r.done + bs.length } })
      s.checked t 1 0x80 bs.length (F.deChkCntReplayed t) (F.deChkCntVotes t) (fun s el => s.deSpare t el)
        (if last then r.chk else .pass) (fun s =>
          s.each bs.zipIdx (fun s e =>
            ((s.deRunOne t r (r.vbase + r.done + e.2) e.1).cqGive t r.cq).count t 0x020 0 (some r.lslot) 1))

/-- The DE goes on with its RUN as far as its queue and priority work allow. -/
def State.deStep (s : State) (t : Nat) : State := (s.dePull t 64).deGo t

/-- LOADW as an action (R141, R142): it waits while a block computes from the buffer that it fills. -/
def State.loadwAct (s : State) (t cls : Nat) (buf : Bool) (o : Nat) : Action where
  unit := 1
  occ := deLoadBeats cls
  ready := .need (match (s.tile t).deRun with | some r => r.buf ≠ buf | none => true) .busy
  reads := [(o, deRecord cls)]
  run := fun s =>
    let b : DeBuf := ⟨cls, s.stRead t o (deRecord cls)⟩
    (s.noteRead t o (deRecord cls)).modTile t (fun x => if buf then { x with deBuf1 := b } else { x with deBuf0 := b })

/-- DE_LOADW (R141). -/
def execDeLoadw (t : TileN) (cls : Fin 4) (buf : Bool) (line : Fin 16384) (s : State) : Host.Outcome State Fault Refusal :=
  .next (s.act t (s.loadwAct t cls buf (512 * line.val)))

/-- The bytes of a queue's first n READY slots. -/
def State.cqReads (s : State) (t k n : Nat) : List (Nat × Nat) := (((s.tile t).cqSt k).ready).take n

/-- RUN as an action (R137, R140 to R144): it issues as a whole once READY is above 0, and the DE takes a slot for each run as it comes
(DEDUCED, log entry 75). -/
def State.runAct (s : State) (t : Nat) (r : DeRun) : Action where
  unit := 1
  occ := r.nruns
  ready := Ready.all [.need (s.tile t).deRun.isNone .busy, .need (s.cqHead t r.cq).isSome .front]
  reads := s.cqReads t r.cq 1
  ask := fun s => s.when (s.cqHead t r.cq).isNone (fun s => s.count t 0x061 r.cq none 1)
  run := fun s => (s.modTile t (fun x => { x with deRun := some r })).deStep t

/-- DE_RUN (R142). -/
def execDeRun (t : TileN) (cls : Fin 4) (buf : Bool) (lslot : Fin 64) (vbase : Fin 64) (nruns : Fin 64) (cq : Fin 32) (chk : Chk)
    (s : State) : Host.Outcome State Fault Refusal :=
  .next (s.act t (s.runAct t ⟨cls, buf, lslot, vbase, nruns + 1, cq, chk, 0, 0⟩))

/-- CHUNK_LAND (R137, R138): a chunk that arrives with a parity error is read again from its source, so nothing lands. A RUN of the DE
takes what becomes READY. A read of HBM4 waits for its bursts (R339, R340). -/
def execChunkLand (t : TileN) (p : Fin 16) (num : Nat) (ok : Bool) (s : State) : Host.Outcome State Fault Refusal :=
  .next (
    match ((s.tile t).pfSt p).flight.find? (fun c => c.num = num && !c.landed) with
    | none => s
    | some c =>
      if !ok then s
      else match s.pfBytes t c with
        | none => s.pfNote t c
        | some b =>
          let n := s.ownerOf t
          let need := s.pfBursts t c
          let ready := s.hbmServed n c.src need (tileKey t p num)
          let s := s.hbmPay n c.src need (tileKey t p num)
          if ready then (s.pfLand t p c b).deStep t else s)

/-- TILE_STORE_WORD_RESTORED (R131). -/
def execTileStoreWordRestored (t : TileN) (word : Fin 1048576) (s : State) : Host.Outcome State Fault Refusal :=
  .next ((s.restoreWord t word).deStep t)

/-- DRAIN as an action (R143, R177): the entries of `nvec` vectors, in order, as binary32. -/
def State.drainAct (s : State) (t cls vbase nvec o : Nat) : Action where
  unit := 1
  occ := (nvec * deCols cls + 127) / 128
  ready := .need (s.tile t).deRun.isNone .busy
  run := fun s =>
    let c := deCols cls
    s.stWrite t o ((List.range (nvec * c)).flatMap (fun j =>
      leBytes 4 (Sparse.get (fun _ => 0) (s.tile t).deWide (vbase * c + j)).toNat)) 1 []

/-- DE_DRAIN (R143). -/
def execDeDrain (t : TileN) (cls : Fin 4) (vbase : Fin 64) (nvec : Fin 64) (line : Fin 16384) (s : State) :
    Host.Outcome State Fault Refusal :=
  .next (s.act t (s.drainAct t cls vbase (nvec + 1) (512 * line.val)))

/-- CLEAR as an action (Table 6.5): the vectors from VBASE to the end of the file become +0.0. -/
def State.deClearAct (s : State) (t cls vbase : Nat) : Action where
  unit := 1
  occ := 1
  ready := .need (s.tile t).deRun.isNone .busy
  run := fun s => s.modTile t (fun x => { x with
    deWide := x.deWide.filter (fun e => e.1 < vbase * deCols cls), deSum := x.deSum.filter (fun e => e.1 < vbase * deCols cls)
    deCnt := x.deCnt.filter (fun e => e.1 < vbase) })

/-- DE_CLEAR (R177). -/
def execDeClear (t : TileN) (cls : Fin 4) (vbase : Fin 64) (s : State) : Host.Outcome State Fault Refusal :=
  .next (s.act t (s.deClearAct t cls vbase))

/-! ## MOV (R181) -/

/-- n bytes of any value, where the spec does not say what they hold. -/
def State.freeBytes (s : State) (n : Nat) : Bytes := (List.range n).map (fun i => BitVec.ofNat 8 (Config.freeNat (s.free + i)))

/-- The store offset of a MOV or NET source, none while its queue is empty. -/
def State.srcAddr (s : State) (t : Nat) : MovSrc → Option Nat
  | .line a => some (512 * a.val)
  | .queue k => (s.cqHead t k).map Prod.fst

/-- A source is ready (R164). -/
def State.srcReady (s : State) (t : Nat) (m : MovSrc) : Ready := .need (s.srcAddr t m).isSome .front

/-- A consumer that waits with READY = 0 is counted. -/
def State.srcAsk (s : State) (t : Nat) : MovSrc → State
  | .line _ => s
  | .queue k => if (s.cqHead t k).isNone then s.count t 0x061 k none 1 else s

/-- The source's slot is taken. -/
def State.srcTake (s : State) (t : Nat) : MovSrc → State
  | .line _ => s
  | .queue k => s.cqTake t k

/-- The source's slot is released: at the window end when the result was written to scratch at offset o (R354). -/
def State.srcDone (s : State) (t : Nat) (m : MovSrc) (o : Option Nat) : State :=
  match m with
  | .line _ => s
  | .queue k => match o with
    | some o => s.cqDone t k o
    | none => s.cqGive t k

/-- AOPND as an action (R54, R181). -/
def State.aopndAct (s : State) (t : Nat) (src : MovSrc) (mask : BitVec 128) : Action :=
  let o := (s.srcAddr t src).getD 0
  let e := opEntry (s.stRead t o 2560) o
  let n := e.counts.sum
  { unit := 7
    occ := 2 + bit (e.rmask ≠ 0) + (if n = 0 then 0 else if n ≤ 128 then 1 else 2)
    ready := Ready.all [s.srcReady t src, .need ((maskArrays mask).all (fun a => (s.arr t a).opQ.length < 2)) .back]
    reads := [(o, 2560)]
    ask := fun s => s.srcAsk t src
    run := fun s =>
      let s := (s.noteRead t o 2560).srcTake t src
      (s.each (maskArrays mask) (fun s a => s.modArr t a (fun x => { x with opQ := x.opQ ++ [e] }))).srcDone t src none }

/-- AOPND (R181). -/
def execAopnd (t : TileN) (src : MovSrc) (mask : BitVec 128) (s : State) : Host.Outcome State Fault Refusal :=
  .next (s.act t (s.aopndAct t src mask))

/-- Lines of a result entry by mode (Table 6.8). -/
def aresLines (mode : Nat) : Nat := (4 * logCols mode + 511) / 512

/-- The bytes of a result entry: its values as binary32, and what the last line holds beyond them, of which the spec says nothing. -/
def State.resBytes (s : State) (r : ResEntry) (n : Nat) : Bytes :=
  let b := r.vals.flatMap (fun v => leBytes 4 v.toNat)
  b ++ s.freeBytes (n - b.length)

/-- ARES as an action (R55, R181). -/
def State.aresAct (s : State) (t a o : Nat) : Action :=
  let n := aresLines (s.mode t a)
  { unit := 7
    occ := n
    ready := .need (match (s.arr t a).resQ.head? with | some r => !r.net | none => false) .front
    run := fun s =>
      match (s.arr t a).resQ.head? with
      | some r =>
        ((s.modArr t a (fun x => { x with resQ := x.resQ.drop 1 })).stWrite t o (s.resBytes r (512 * n)) 7 []).freshN 512
      | none => s }

/-- ARES (R181). -/
def execAres (t : TileN) (a : ArrN) (line : Fin 16384) (s : State) : Host.Outcome State Fault Refusal :=
  .next (s.act t (s.aresAct t a (512 * line.val)))

/-- XFER as an action (R181): the lines are read before they are written. -/
def State.xferAct (s : State) (t : Nat) (src : MovSrc) (lines dst : Nat) : Action :=
  let o := (s.srcAddr t src).getD 0
  let n := 512 * lines
  { unit := 7
    occ := lines
    ready := s.srcReady t src
    reads := [(o, n)]
    ask := fun s => s.srcAsk t src
    run := fun s =>
      let b := s.stRead t o n
      let s := (s.noteRead t o n).srcTake t src
      (s.stWrite t dst b 7 (linesOf o n)).srcDone t src (some dst) }

/-- XFER (R181). -/
def execXfer (t : TileN) (src : MovSrc) (lines : Fin 64) (dst : Fin 16384) (s : State) : Host.Outcome State Fault Refusal :=
  .next (s.act t (s.xferAct t src (lines + 1) (512 * dst.val)))

/-- One 64-byte burst of a partition to HBM4 (R341, R134): suppressed outside its regions, and where HBM4 has no bytes (R16, log
entry 72). -/
def State.hbmPut (s : State) (n t a : Nat) (b : Bytes) : State :=
  if s.hbmOwns n a b.length then (s.hbmWrite a b).pcStore t a b else s.hbmDenied n a

/-- HST as an action (R181, R353): its writes draw from the partition's bucket and wait for gain (R339, R340); suppressed ones do not. -/
def State.hstAct (s : State) (t : Nat) (src : MovSrc) (lines off : Nat) : Action :=
  let o := (s.srcAddr t src).getD 0
  let n := 512 * lines
  let p := s.ownerOf t
  let need := ((List.range (8 * lines)).filter (fun i => s.hbmOwns p (64 * (off + i)) 64)).length
  { unit := 7
    occ := lines
    ready := Ready.all [s.srcReady t src, .need (s.hbmServed p (64 * off) need (tileKey t 16 0)) .back]
    reads := [(o, n)]
    ask := fun s => (s.srcAsk t src).when (s.srcAddr t src).isSome (fun s => s.hbmPay p (64 * off) need (tileKey t 16 0))
    run := fun s =>
      let b := s.stRead t o n
      let s := ((s.hbmPay p (64 * off) need (tileKey t 16 0)).noteRead t o n).srcTake t src
      (s.each (List.range (8 * lines)) (fun s i =>
        s.hbmPut p t (64 * (off + i)) ((b.drop (64 * i)).take 64))).srcDone t src none }

/-- HST (R181). -/
def execHst (t : TileN) (src : MovSrc) (lines : Fin 64) (off : Word) (s : State) : Host.Outcome State Fault Refusal :=
  .next (s.act t (s.hstAct t src (lines + 1) off.toNat))

/-- PFQ as an action (R135, R181). -/
def State.pfqAct (s : State) (t o p : Nat) : Action where
  unit := 7
  occ := 1
  ready := .ok
  reads := [(o, 28)]
  run := fun s => (s.noteRead t o 28).pfPush t p (pfDescOf (s.stRead t o 28))

/-- PFQ (R181). -/
def execPfq (t : TileN) (line : Fin 16384) (p : Fin 16) (s : State) : Host.Outcome State Fault Refusal :=
  .next (s.act t (s.pfqAct t (512 * line.val) p))

/-! ## CHK (R184) -/

/-- CMPW as an action: the two 32-bit words of the 8 bytes at the offset. -/
def State.cmpwAct (s : State) (t o : Nat) : Action where
  unit := 10
  occ := 1
  ready := .ok
  reads := [(o, 8)]
  run := fun s =>
    let b := s.stRead t o 8
    (s.noteRead t o 8).when (fieldAt b 0 4 ≠ fieldAt b 4 4) (fun s => s.logTile t 0x86 (code14 11) o)

/-- CMPW (R184). -/
def execCmpw (t : TileN) (off : BitVec 21) (s : State) : Host.Outcome State Fault Refusal :=
  .next (s.act t (s.cmpwAct t (8 * off.toNat)))

/-- CQCHK as an action. -/
def State.cqchkAct (s : State) (t cq expect : Nat) : Action where
  unit := 10
  occ := 1
  ready := .ok
  run := fun s => s.when (s.getF (F.cqStateReady t cq) ≠ expect) (fun s => s.logTile t 0x86 (code14 11) cq)

/-- CQCHK (R184). -/
def execCqchk (t : TileN) (cq : Fin 32) (expect : BitVec 8) (s : State) : Host.Outcome State Fault Refusal :=
  .next (s.act t (s.cqchkAct t cq expect.toNat))

/-- MARK as an action: an information entry, which in compatibility mode goes to the control complex as an EVENT on VC3 (R215). -/
def State.markAct (s : State) (t code : Nat) : Action where
  unit := 10
  occ := 1
  ready := .ok
  run := fun s => if s.compat (s.ownerOf t) then s.fabricMsg (s.ownerOf t) 0x28 0x72 t (BitVec.ofNat 32 code) else s.logTile t 0x86 0x1502 code

/-- CHK_MARK (R184). -/
def execChkMark (t : TileN) (code : BitVec 16) (s : State) : Host.Outcome State Fault Refusal :=
  .next (s.act t (s.markAct t code.toNat))

end Sys2Proof.Machine
end

