-- ==== Sys2Proof/Machine/VectorUnit.lean ====
section
/-! DEFINITION. The vector unit: lanes, arithmetic, functions, cross-lane operations, loads and stores (R146 to R148, R178, R323),
and the quantisers QA4 (R83 to R87, R120 to R124, R179) and QA8 (R473). -/

namespace Sys2Proof.Machine

/-! ## Registers and lanes -/

/-- Lane l of vector register r. -/
def TileSt.lane (x : TileSt) (r l : Nat) : Word := Sparse.get (fun _ => 0) x.vregs (1024 * r + l)

/-- A lane as an element of the operation's format: a bf16 element is the upper half (R146). -/
def elemOf (bf : Bool) (w : Word) : Word := if bf then w &&& 0xFFFF0000 else w

/-- The parity of lane pair p of register r (R146). -/
def TileSt.pairPar (x : TileSt) (r p : Nat) : Bool :=
  xor (oddOnes 32 (x.lane r (2 * p)).toNat) (oddOnes 32 (x.lane r (2 * p + 1)).toNat)

/-- Write the active lanes of a register, with new parity for each lane pair written; the others keep their values (R146, R178). -/
def State.putLanes (s : State) (t r n : Nat) (f : Nat → Word) : State :=
  s.modTile t (fun x =>
    let y := { x with vregs := Sparse.setRange (fun _ => 0) x.vregs (1024 * r) n f }
    { y with vpar := Sparse.setRange (fun _ => false) x.vpar (512 * r) ((n + 1) / 2) (y.pairPar r) })

/-- The spare lane of a group, which has the group's number, takes the place of lane el (Table 5.9). -/
def State.vuSpare (s : State) (t el : Nat) : Option (State × Nat) :=
  let g := el / 64 % 16
  if s.flag (F.vuSpareMapValid t g) then none
  else some (((s.setFlag (F.vuSpareMapValid t g) true).setF (F.vuSpareMapLane t g) (el % 64)).saveRepair (R.vuSpareMap t g), g)

/-- A VU operation of an occupancy: `run` writes its result once its checks are done. -/
def vuAct (t occ : Nat) (o : VuArgs) (reads : List (Nat × Nat)) (run : State → State) : Action where
  unit := 2
  occ := occ
  ready := .ok
  reads := reads
  run := fun s => (s.count t 0x030 0 none 1).checked t 2 0x81 occ (F.vuChkCntReplayed t) (F.vuChkCntVotes t)
    (fun s el => s.vuSpare t el) o.chk run

/-- An operation lane by lane on VA, VB and VC. -/
def vuMap (t occ : Nat) (o : VuArgs) (f : Word → Word → Word → Word) : Action :=
  vuAct t occ o [] (fun s =>
    let x := s.tile t
    s.putLanes t o.vd (o.lanes + 1) (fun l => f (x.lane o.va l) (x.lane o.vb l) (x.lane o.vc l)))

/-- A floating-point operation on elements of the format: 1 beat in bf16 and 2 in binary32 (Table 6.6). -/
def vuFloat (t : Nat) (o : VuArgs) (f : Bool → Word → Word → Word → Word) : Action :=
  vuMap t (if o.bf then 1 else 2) o (fun a b c => f o.bf (elemOf o.bf a) (elemOf o.bf b) (elemOf o.bf c))

/-- A function of Table 5.8: a bf16 function is the binary32 function rounded to bf16 (R147). -/
def vuFunc (t : Nat) (o : VuArgs) (f : Word → Word) : Action :=
  vuMap t 4 o (fun a _ _ => if o.bf then cvt16 (f (cvt32 a)) else f a)

/-- A shift amount of 32 or more has no stated result. -/
def shiftBy (op : Nat) (f : Word → Nat → Word) (a b : Word) : Word :=
  if b.toNat < 32 then f a b.toNat else Config.vuOpen op a b

/-! ## Arithmetic (Table 6.6, 0x00 to 0x23) -/

/-- The action of a VU operation code other than the quantisers, loads and stores; `none` for a refused code. -/
def vuArith (t : Nat) (o : VuArgs) (op : Nat) : Option Action :=
  match op with
  | 0x00 => some (vuFloat t o (fun bf a b c => fmaF bf a b c))
  | 0x01 => some (vuFloat t o (fun bf a b _ => addF bf a b))
  | 0x02 => some (vuFloat t o (fun bf a b _ => mulF bf a b))
  | 0x03 => some (vuFloat t o (fun bf a b _ => minF bf a b))
  | 0x04 => some (vuFloat t o (fun bf a b _ => maxF bf a b))
  | 0x05 => some (vuFloat t o (fun bf a b _ => subF bf a b))
  | 0x10 => some (vuMap t 1 o (fun a b _ => a + b))
  | 0x11 => some (vuMap t 1 o (fun a b _ => a - b))
  | 0x12 => some (vuMap t 1 o (fun a b _ => a &&& b))
  | 0x13 => some (vuMap t 1 o (fun a b _ => a ||| b))
  | 0x14 => some (vuMap t 1 o (fun a b _ => a ^^^ b))
  | 0x15 => some (vuMap t 1 o (fun a b _ => shiftBy 0x15 BitVec.shiftLeft a b))
  | 0x16 => some (vuMap t 1 o (fun a b _ => shiftBy 0x16 BitVec.ushiftRight a b))
  | 0x17 => some (vuMap t 1 o (fun a b _ => shiftBy 0x17 BitVec.sshiftRight a b))
  | 0x18 => some (vuMap t 1 o (fun a b _ => Config.cmpWord (BitVec.slt a b)))
  | 0x19 => some (vuMap t 1 o (fun a b _ => Config.cmpWord (a == b)))
  | 0x1A => some (vuMap t 1 o (fun a b c => if Config.selTakes c then a else b))
  | 0x1B => some (vuMap t 2 o (fun a b _ => a * b))
  | 0x20 => some (vuMap t 1 o (fun a _ _ => cvt16 a))
  | 0x21 => some (vuMap t 1 o (fun a _ _ => cvt32 a))
  | 0x22 => some (vuMap t 1 o (fun a _ _ => roundF o.bf false ⟨a.toInt, 0⟩))
  | 0x23 => some (vuMap t 1 o (fun a _ _ => cvtF2I (if o.bf then cvt32 a else a)))
  | 0x30 => some (vuFunc t o exp2F)
  | 0x31 => some (vuFunc t o log2F)
  | 0x32 => some (vuFunc t o recipF)
  | 0x33 => some (vuFunc t o rsqrtF)
  | 0x34 => some (vuFunc t o sqrtF)
  | 0x35 => some (vuFunc t o sinF)
  | 0x36 => some (vuFunc t o cosF)
  | 0x37 => some (vuFunc t o tanhF)
  | _ => none

/-- The operation with code op, or no operation for a code that Table 6.6 refuses. -/
def State.vuDo (s : State) (t : Nat) (o : VuArgs) (op : Nat) : State :=
  match vuArith t o op with
  | some a => s.act t a
  | none => s

/-- VU_FMA (R178). -/
def execVuFma (t : TileN) (o : VuArgs) (s : State) : Host.Outcome State Fault Refusal :=
  .next (s.act t (vuFloat t o (fun bf a b c => fmaF bf a b c)))
/-- VU_ADD (R178). -/
def execVuAdd (t : TileN) (o : VuArgs) (s : State) : Host.Outcome State Fault Refusal := .next (s.vuDo t o 0x01)
/-- VU_MUL (R178). -/
def execVuMul (t : TileN) (o : VuArgs) (s : State) : Host.Outcome State Fault Refusal := .next (s.vuDo t o 0x02)
/-- VU_MIN (R178). -/
def execVuMin (t : TileN) (o : VuArgs) (s : State) : Host.Outcome State Fault Refusal := .next (s.vuDo t o 0x03)
/-- VU_MAX (R178). -/
def execVuMax (t : TileN) (o : VuArgs) (s : State) : Host.Outcome State Fault Refusal := .next (s.vuDo t o 0x04)
/-- VU_SUB (R178). -/
def execVuSub (t : TileN) (o : VuArgs) (s : State) : Host.Outcome State Fault Refusal := .next (s.vuDo t o 0x05)
/-- VU_IADD (R178). -/
def execVuIadd (t : TileN) (o : VuArgs) (s : State) : Host.Outcome State Fault Refusal := .next (s.vuDo t o 0x10)
/-- VU_ISUB (R178). -/
def execVuIsub (t : TileN) (o : VuArgs) (s : State) : Host.Outcome State Fault Refusal := .next (s.vuDo t o 0x11)
/-- VU_AND (R178). -/
def execVuAnd (t : TileN) (o : VuArgs) (s : State) : Host.Outcome State Fault Refusal := .next (s.vuDo t o 0x12)
/-- VU_OR (R178). -/
def execVuOr (t : TileN) (o : VuArgs) (s : State) : Host.Outcome State Fault Refusal := .next (s.vuDo t o 0x13)
/-- VU_XOR (R178). -/
def execVuXor (t : TileN) (o : VuArgs) (s : State) : Host.Outcome State Fault Refusal := .next (s.vuDo t o 0x14)
/-- VU_SHL (R178). -/
def execVuShl (t : TileN) (o : VuArgs) (s : State) : Host.Outcome State Fault Refusal := .next (s.vuDo t o 0x15)
/-- VU_SHR (R178). -/
def execVuShr (t : TileN) (o : VuArgs) (s : State) : Host.Outcome State Fault Refusal := .next (s.vuDo t o 0x16)
/-- VU_SRA (R178). -/
def execVuSra (t : TileN) (o : VuArgs) (s : State) : Host.Outcome State Fault Refusal := .next (s.vuDo t o 0x17)
/-- VU_CMPLT (R178). -/
def execVuCmplt (t : TileN) (o : VuArgs) (s : State) : Host.Outcome State Fault Refusal := .next (s.vuDo t o 0x18)
/-- VU_CMPEQ (R178). -/
def execVuCmpeq (t : TileN) (o : VuArgs) (s : State) : Host.Outcome State Fault Refusal := .next (s.vuDo t o 0x19)
/-- VU_SEL (R178). -/
def execVuSel (t : TileN) (o : VuArgs) (s : State) : Host.Outcome State Fault Refusal := .next (s.vuDo t o 0x1A)
/-- VU_IMUL (R178). -/
def execVuImul (t : TileN) (o : VuArgs) (s : State) : Host.Outcome State Fault Refusal := .next (s.vuDo t o 0x1B)
/-- VU_CVT16 (R89). -/
def execVuCvt16 (t : TileN) (o : VuArgs) (s : State) : Host.Outcome State Fault Refusal := .next (s.vuDo t o 0x20)
/-- VU_CVT32 (R89). -/
def execVuCvt32 (t : TileN) (o : VuArgs) (s : State) : Host.Outcome State Fault Refusal := .next (s.vuDo t o 0x21)
/-- VU_CVTI2F (R178). -/
def execVuCvti2f (t : TileN) (o : VuArgs) (s : State) : Host.Outcome State Fault Refusal := .next (s.vuDo t o 0x22)
/-- VU_CVTF2I (R178). -/
def execVuCvtf2i (t : TileN) (o : VuArgs) (s : State) : Host.Outcome State Fault Refusal := .next (s.vuDo t o 0x23)
/-- VU_EXP2 (R147). -/
def execVuExp2 (t : TileN) (o : VuArgs) (s : State) : Host.Outcome State Fault Refusal := .next (s.vuDo t o 0x30)
/-- VU_LOG2 (R147). -/
def execVuLog2 (t : TileN) (o : VuArgs) (s : State) : Host.Outcome State Fault Refusal := .next (s.vuDo t o 0x31)
/-- VU_RECIP (R147). -/
def execVuRecip (t : TileN) (o : VuArgs) (s : State) : Host.Outcome State Fault Refusal := .next (s.vuDo t o 0x32)
/-- VU_RSQRT (R147). -/
def execVuRsqrt (t : TileN) (o : VuArgs) (s : State) : Host.Outcome State Fault Refusal := .next (s.vuDo t o 0x33)
/-- VU_SQRT (R147). -/
def execVuSqrt (t : TileN) (o : VuArgs) (s : State) : Host.Outcome State Fault Refusal := .next (s.vuDo t o 0x34)
/-- VU_SIN (R147). -/
def execVuSin (t : TileN) (o : VuArgs) (s : State) : Host.Outcome State Fault Refusal := .next (s.vuDo t o 0x35)
/-- VU_COS (R147). -/
def execVuCos (t : TileN) (o : VuArgs) (s : State) : Host.Outcome State Fault Refusal := .next (s.vuDo t o 0x36)
/-- VU_TANH (R147). -/
def execVuTanh (t : TileN) (o : VuArgs) (s : State) : Host.Outcome State Fault Refusal := .next (s.vuDo t o 0x37)

/-! ## Cross-lane operations (R148) -/

/-- An element as binary32, and a binary32 result as an element of the format. -/
def asF32 (bf : Bool) (w : Word) : Word := if bf then cvt32 w else w
/-- See `asF32`. -/
def fromF32 (bf : Bool) (w : Word) : Word := if bf then cvt16 w else w

/-- One level of the pairwise tree. -/
def pairUp : List Word → List Word
  | a :: b :: rest => addF false a b :: pairUp rest
  | l => l

/-- The sum of 1,024 lanes by the fixed pairwise tree: ten levels. -/
def treeSum : Nat → List Word → Word
  | 0, l => l.headD 0
  | n + 1, l => treeSum n (pairUp l)

/-- The 1,024 lanes of VA as binary32, each inactive lane +0.0. -/
def TileSt.sumLanes (x : TileSt) (o : VuArgs) : List Word :=
  (List.range 1024).map (fun l => if l ≤ o.lanes.val then asF32 o.bf (x.lane o.va l) else 0)

/-- The active lanes of VA as elements. -/
def TileSt.activeLanes (x : TileSt) (o : VuArgs) : List Word :=
  (List.range (o.lanes + 1)).map (fun l => elemOf o.bf (x.lane o.va l))

/-- The single result of a reduction goes to every active lane of the destination. -/
def vuReduce (t : Nat) (o : VuArgs) (f : TileSt → Word) : Action :=
  vuAct t 1 o [] (fun s =>
    let w := f (s.tile t)
    s.putLanes t o.vd (o.lanes + 1) (fun _ => w))

/-- VU_RSUM as an action. -/
def rsumAct (t : Nat) (o : VuArgs) : Action := vuReduce t o (fun x => fromF32 o.bf (treeSum 10 (x.sumLanes o)))
/-- VU_RMAX as an action. -/
def rmaxAct (t : Nat) (o : VuArgs) : Action :=
  vuReduce t o (fun x => match x.activeLanes o with | [] => 0 | w :: ws => ws.foldl (maxF o.bf) (passF o.bf w))
/-- VU_RMIN as an action. -/
def rminAct (t : Nat) (o : VuArgs) : Action :=
  vuReduce t o (fun x => match x.activeLanes o with | [] => 0 | w :: ws => ws.foldl (minF o.bf) (passF o.bf w))
/-- VU_PSUM as an action. -/
def psumAct (t : Nat) (o : VuArgs) : Action :=
  vuAct t 1 o [] (fun s =>
    let l := psum (((s.tile t).sumLanes o).take (o.lanes + 1))
    s.putLanes t o.vd (o.lanes + 1) (fun i => fromF32 o.bf (passF false (l.getD i 0))))

/-- VU_RSUM (R148). -/
def execVuRsum (t : TileN) (o : VuArgs) (s : State) : Host.Outcome State Fault Refusal := .next (s.act t (rsumAct t o))
/-- VU_RMAX (R148). -/
def execVuRmax (t : TileN) (o : VuArgs) (s : State) : Host.Outcome State Fault Refusal := .next (s.act t (rmaxAct t o))
/-- VU_RMIN (R148). -/
def execVuRmin (t : TileN) (o : VuArgs) (s : State) : Host.Outcome State Fault Refusal := .next (s.act t (rminAct t o))
/-- VU_PSUM (R148). -/
def execVuPsum (t : TileN) (o : VuArgs) (s : State) : Host.Outcome State Fault Refusal := .next (s.act t (psumAct t o))

/-- VU_PERM as an action: lane i takes the lane of VA that VB's lane i names. -/
def permAct (t : Nat) (o : VuArgs) : Action :=
  vuAct t 1 o [] (fun s =>
    let x := s.tile t
    s.putLanes t o.vd (o.lanes + 1) (fun l =>
      let i := x.lane o.vb l
      if i.toNat < 1024 then x.lane o.va i.toNat else Config.vuOpen 0x44 (x.lane o.va l) i))

/-- VU_PERM (R178). -/
def execVuPerm (t : TileN) (o : VuArgs) (s : State) : Host.Outcome State Fault Refusal := .next (s.act t (permAct t o))

/-- A sort key as a number: the place of a float among floats, a NaN where the part puts it. -/
def sortKey (bf : Bool) (w : Word) : Int :=
  if isNan w then Config.nanKey w
  else if signOf w then -((inF bf w).toNat % 2 ^ 31 : Int) else (((inF bf w).toNat % 2 ^ 31 : Nat) : Int)

/-- Lane i stands before lane j in descending order. -/
def sortBefore (bf : Bool) (key : Nat → Word) (i j : Nat) : Bool :=
  if sortKey bf (key i) = sortKey bf (key j) then Config.sortTie i j else decide (sortKey bf (key j) < sortKey bf (key i))

/-- VU_SORT as an action: the active lanes of VA descending by key; VD takes their lane indices. -/
def sortAct (t : Nat) (o : VuArgs) : Action :=
  vuAct t 1 o [] (fun s =>
    let x := s.tile t
    let l := (List.range (o.lanes + 1)).mergeSort (sortBefore o.bf (fun l => elemOf o.bf (x.lane o.va l)))
    s.putLanes t o.vd (o.lanes + 1) (fun i => BitVec.ofNat 32 (l.getD i 0)))

/-- VU_SORT (R178). -/
def execVuSort (t : TileN) (o : VuArgs) (s : State) : Host.Outcome State Fault Refusal := .next (s.act t (sortAct t o))

/-- The 64-bit word of a lane pair: lane 2j + 1 above lane 2j. -/
def TileSt.pair (x : TileSt) (r l : Nat) : BitVec 64 :=
  BitVec.ofNat 64 ((x.lane r (l / 2 * 2 + 1)).toNat * 2 ^ 32 + (x.lane r (l / 2 * 2)).toNat)

/-- VU_RAND as an action (R323). -/
def randAct (t : Nat) (o : VuArgs) : Action :=
  vuAct t 1 o [] (fun s =>
    let x := s.tile t
    s.putLanes t o.vd (o.lanes + 1) (fun l =>
      if l % 2 = 0 then fromF32 o.bf (draw (x.pair o.va l) (x.pair o.vb l)) else 0))

/-- VU_RAND (R323). -/
def execVuRand (t : TileN) (o : VuArgs) (s : State) : Host.Outcome State Fault Refusal := .next (s.act t (randAct t o))

/-! ## Loads and stores -/

/-- Bytes of an element. -/
def elemBytes (bf : Bool) : Nat := if bf then 2 else 4

/-- Element i of a byte string as a lane. -/
def elemAt (bf : Bool) (b : Bytes) (i : Nat) : Word :=
  if bf then BitVec.ofNat 32 (fieldAt b (2 * i) 2 * 2 ^ 16) else BitVec.ofNat 32 (fieldAt b (4 * i) 4)

/-- A lane as the bytes of an element. -/
def elemOut (bf : Bool) (w : Word) : Bytes := if bf then leBytes 2 (w.toNat / 2 ^ 16) else leBytes 4 w.toNat

/-- VU_LD as an action. -/
def ldAct (t : Nat) (o : VuArgs) (off : Nat) : Action :=
  let n := elemBytes o.bf * (o.lanes + 1)
  vuAct t 1 o [(off, n)] (fun s =>
    let b := s.stRead t off n
    (s.noteRead t off n).putLanes t o.vd (o.lanes + 1) (fun l => elemAt o.bf b l))

/-- VU_ST as an action. -/
def stAct (t : Nat) (o : VuArgs) (off : Nat) : Action :=
  let n := elemBytes o.bf * (o.lanes + 1)
  vuAct t 1 o (partialWords off n) (fun s =>
    s.stWrite t off ((List.range (o.lanes + 1)).flatMap (fun l => elemOut o.bf ((s.tile t).lane o.va l))) 2 [])

/-- VU_LDB as an action: one element to every active lane. -/
def ldbAct (t : Nat) (o : VuArgs) (off : Nat) : Action :=
  let n := elemBytes o.bf
  vuAct t 1 o [(off, n)] (fun s =>
    let w := elemAt o.bf (s.stRead t off n) 0
    (s.noteRead t off n).putLanes t o.vd (o.lanes + 1) (fun _ => w))

/-- VU_LD (R178). -/
def execVuLd (t : TileN) (o : VuArgs) (off : Nat) (s : State) : Host.Outcome State Fault Refusal := .next (s.act t (ldAct t o off))
/-- VU_ST (R178). -/
def execVuSt (t : TileN) (o : VuArgs) (off : Nat) (s : State) : Host.Outcome State Fault Refusal := .next (s.act t (stAct t o off))
/-- VU_LDB (R178). -/
def execVuLdb (t : TileN) (o : VuArgs) (off : Nat) (s : State) : Host.Outcome State Fault Refusal := .next (s.act t (ldbAct t o off))

/-! ## Quantisers (R83 to R88, R120, R123, R124) -/

/-- The scale code of a block with largest magnitude m: k = 7 for A4 and 127 for A8, ceiling l. With it, underflow and saturation
(a block that the ceiling holds is not counted as saturated, R84). -/
def pickScale (k l : Nat) (m : Dy) : Nat × Bool × Bool :=
  if m.m = 0 then (0, false, false)
  else if Dy.lt m (scaleVal 1) then (0, true, false)
  else match findCode k m 254 1 with
    | some c => (min c l, false, false)
    | none => (l, false, l = 0xFE)

/-- The largest of magnitudes. -/
def maxDy (l : List Dy) : Dy := l.foldl (fun m v => if Dy.lt m v then v else m) ⟨0, 0⟩

/-- The integer nearest to y / s, ties to even (R85). -/
def quotInt (y s : Dy) : Int :=
  let d := y.e - s.e
  rneDiv (y.m * 2 ^ d.toNat) (s.m.toNat * 2 ^ (-d).toNat)

/-- bf16(y / s), one rounding (R120). -/
def quotBf (y s : Dy) : Nat :=
  let n := y.m.natAbs * 2 ^ 40
  let q := n / s.m.toNat
  let st := if n % s.m.toNat = 0 then 0 else 1
  (if y.m < 0 then 2 ^ 15 else 0) + roundPos 7 true (2 * q + st) (y.e - s.e - 41)

/-- A quantised segment: scale code, elements, descriptors (row and bf16), residual scale and elements, and what it counts. -/
structure QBlock where
  code : Nat := 0
  elems : List Int := []
  descs : List (Nat × Nat) := []
  resid : Bool := false
  rcode : Nat := 0
  relems : List Int := []
  under : Nat := 0
  sat : Nat := 0
  clamps : Nat := 0
  toDe : Nat := 0

/-- The clamped element of a sign. -/
def clampQ (lo hi : Int) (neg : Bool) : Int := if neg then lo else hi

/-- Quantise one segment whose first row is `lo`: products ys, ceiling l, budget k, residual reserve rr. A block coded 0x00 stores 0 for
every element (DESIGN CHOICE, log entry 68: R85 gives q only for other codes). -/
def quantA4 (l k : Nat) (rr : Bool) (lo : Nat) (ys : List Word) : QBlock :=
  let idx := List.range ys.length
  let y := fun i => valOf false (ys.getD i 0)
  let fin := fun i => isFin (ys.getD i 0)
  let bad := (idx.filter (fun i => !fin i)).length
  let p := pickScale 7 l (maxDy ((idx.filter fin).map (fun i => (y i).abs)))
  if p.1 = 0 then { elems := idx.map (fun _ => 0), relems := idx.map (fun _ => 0), under := bit p.2.1, clamps := bad }
  else
    let s := scaleVal p.1
    let out := fun (s : Dy) i => fin i && Dy.lt (Dy.mul ⟨8, 0⟩ s) (y i).abs
    let outs := (idx.filter (out s)).mergeSort (fun i j => Dy.lt (y j).abs (y i).abs || (!Dy.lt (y i).abs (y j).abs && decide (i ≤ j)))
    let bud := outs.take k
    let rest := outs.drop k
    let res := if rr then rest else []
    let clip := if rr then [] else rest
    let rp := pickScale 7 0xFE (maxDy (res.map (fun i => (y i).abs)))
    let rs := scaleVal rp.1
    let rclip := res.filter (out rs)
    let q := fun i =>
      if !fin i then (if isNan (ys.getD i 0) then 0 else clampQ (-8) 7 (signOf (ys.getD i 0)))
      else if bud.contains i || res.contains i then 0
      else if clip.contains i then clampQ (-8) 7 (decide ((y i).m < 0))
      else min 7 (quotInt (y i) s)
    let r := fun i =>
      if !res.contains i then 0
      else if rclip.contains i then clampQ (-8) 7 (decide ((y i).m < 0))
      else min 7 (quotInt (y i) rs)
    { code := p.1, elems := idx.map q
      descs := (idx.filter (fun i => bud.contains i)).map (fun i => (lo + i, quotBf (y i) s))
      resid := !res.isEmpty, rcode := rp.1, relems := idx.map r
      sat := bit p.2.2 + bit (rp.2.2 && !res.isEmpty)
      clamps := bad + clip.length + rclip.length, toDe := bud.length }

/-- A vector of signed nibbles as bytes (R76). -/
def nibbles (l : List Int) : Bytes :=
  (List.range (l.length / 2)).map (fun i =>
    BitVec.ofNat 8 ((l.getD (2 * i) 0 % 16).toNat + 16 * (l.getD (2 * i + 1) 0 % 16).toNat))

/-- The lines of an operand record: line 0, line 1, line 2, lines 3 and 4; what a line holds beyond its fields is not stated. -/
def recordLines (free : Nat → Bytes) (bs : List QBlock) : Bytes × Bytes × Bytes × Bytes :=
  let pad := fun (b : Bytes) (n : Nat) => b ++ free (n - b.length)
  let pad16 := fun (l : List Nat) => (l ++ List.replicate (16 - l.length) 0).flatMap (leBytes 1)
  let mask := ((List.range bs.length).filter (fun i => (bs.getD i {}).resid)).foldl (fun m i => m + 2 ^ i) 0
  let ds := bs.flatMap (·.descs)
  (nibbles (bs.flatMap (·.elems)),
   pad (pad16 (bs.map (·.code)) ++ pad16 (bs.map (·.descs.length)) ++ pad16 (bs.map (fun b => if b.resid then b.rcode else 0)) ++
     leBytes 2 mask) 512,
   nibbles (bs.flatMap (·.relems)),
   pad (ds.flatMap (fun d => leBytes 2 d.1 ++ leBytes 2 d.2)) 1024)

/-- Rows of a segment for SEG of a QA4 slot. -/
def qaSeg (seg : Nat) : Nat := match seg with | 1 => 128 | 2 => 64 | _ => 256

/-- The products of R83: element × G, zeros beyond the vector's end (R77). -/
def TileSt.products (x : TileSt) (o : VuArgs) : List Word :=
  let g := x.lane o.vb 0
  (List.range 1024).map (fun l => if l ≤ o.lanes.val then mulF false (asF32 o.bf (x.lane o.va l)) g else 0)

/-- Count quantiser events for a layer slot (R88, R124). -/
def State.quantCount (s : State) (t lslot under sat clamps toDe : Nat) : State :=
  (((((s.satF (F.vuQeventUnder t lslot) under).satF (F.vuQeventSat t lslot) sat).satF (F.vuOeventClamped t lslot) clamps).satF
    (F.vuOeventToDe t lslot) toDe |>.count t 0x031 0 (some lslot) toDe).count t 0x032 0 (some lslot) clamps).modPrt (s.ownerOf t)
    (fun x => { x with clamps := x.clamps + clamps }) |>.modTile t (fun x =>
      { x with winClamps := Sparse.set (fun _ => 0) x.winClamps lslot (Sparse.get (fun _ => 0) x.winClamps lslot + clamps) })

/-- QA4 as an action. -/
def qa4Act (t : Nat) (o : VuArgs) (q : QuantArgs) : Action :=
  vuAct t 1 o [] (fun s =>
    let ys := (s.tile t).products o
    let size := qaSeg q.seg
    let bs := (List.range (1024 / size)).map (fun k => quantA4 q.l.toNat q.k q.rr (k * size) ((ys.drop (k * size)).take size))
    let r := recordLines s.freeBytes bs
    let sum := fun (f : QBlock → Nat) => (bs.map f).sum
    let s := s.stWrite t q.off (r.1 ++ r.2.1) 2 []
    let s := s.when (bs.any (·.resid)) (fun s => s.stWrite t (q.off + 1024) r.2.2.1 2 [])
    ((s.stWrite t (q.off + 1536) r.2.2.2 2 []).freshN 1024).quantCount t q.lslot (sum (·.under)) (sum (·.sat)) (sum (·.clamps))
      (sum (·.toDe)))

/-- QA4 (R83). -/
def execQa4 (t : TileN) (o : VuArgs) (q : QuantArgs) (s : State) : Host.Outcome State Fault Refusal :=
  .next (s.act t (qa4Act t o q))

/-- One A8 run (R473): its record, and underflow, saturation and clamps: infinite elements and clipped ones count, a NaN does not. In a
run coded 0x00 a finite element stores 0 (DESIGN CHOICE, log entry 68: y / s has no s there), an infinite one 127 or -128. -/
def quantA8 (ys : List Word) : Bytes × Nat × Nat × Nat :=
  let idx := List.range 64
  let y := fun i => valOf false (ys.getD i 0)
  let fin := fun i => isFin (ys.getD i 0)
  let inf := fun i => !fin i && !isNan (ys.getD i 0)
  let bad := (idx.filter inf).length
  let p := pickScale 127 0xFE (maxDy ((idx.filter fin).map (fun i => (y i).abs)))
  let rec_ := fun (q : List Int) (c : Nat) => q.map (fun v => BitVec.ofInt 8 v) ++ leBytes 1 c ++ leBytes 63 0
  if p.1 = 0 then
    (rec_ (idx.map (fun i => if inf i then clampQ (-128) 127 (signOf (ys.getD i 0)) else 0)) 0, bit p.2.1, 0, bad)
  else
    let s := scaleVal p.1
    let n := fun i => quotInt (y i) s
    let q := fun i =>
      if !fin i then (if isNan (ys.getD i 0) then 0 else clampQ (-128) 127 (signOf (ys.getD i 0)))
      else max (-128) (min 127 (n i))
    let clip := (idx.filter (fun i => fin i && (decide (127 < n i) || decide (n i < -128)))).length
    (rec_ (idx.map q) p.1, 0, bit p.2.2, bad + clip)

/-- QA8 as an action: 16 runs. -/
def qa8Act (t : Nat) (o : VuArgs) (lslot off : Nat) : Action :=
  vuAct t 1 o [] (fun s =>
    let ys := (s.tile t).products o
    let rs := (List.range 16).map (fun r => quantA8 ((ys.drop (64 * r)).take 64))
    (s.stWrite t off (rs.flatMap (fun r => r.1)) 2 []).quantCount t lslot (rs.map (fun r => r.2.1)).sum (rs.map (fun r => r.2.2.1)).sum
      (rs.map (fun r => r.2.2.2)).sum 0)

/-- QA8 (R473). -/
def execQa8 (t : TileN) (o : VuArgs) (lslot : Fin 64) (off : Nat) (s : State) : Host.Outcome State Fault Refusal :=
  .next (s.act t (qa8Act t o lslot off))

end Sys2Proof.Machine
end

