-- ==== Sys2Proof/Machine/Fabric.lean ====
section
/-! DEFINITION. The on-die fabric (chapter 7): flits, routes, buffers and credits, retries, in-network reduction with its landing, and
the NET actions RSEND and RSENDI. What a flit of channels 0 and 1 carries takes effect by the commands of its own rows (CHUNK_LAND,
HST, HBM_BURST); here it occupies its route. -/

namespace Sys2Proof.Machine

/-! ## Flits (Table 7.1) -/

/-- VC. -/
def Flit.vc (f : Flit) : Nat := f.hdr.toNat % 4
/-- PART. -/
def Flit.part (f : Flit) : Nat := f.hdr.toNat / 2 ^ 2 % 16
/-- DEST. -/
def Flit.dest (f : Flit) : Nat := f.hdr.toNat / 2 ^ 6 % 256
/-- SRC. -/
def Flit.src (f : Flit) : Nat := f.hdr.toNat / 2 ^ 14 % 256
/-- RID. -/
def Flit.rid (f : Flit) : Nat := f.hdr.toNat / 2 ^ 22 % 256
/-- LAST. -/
def Flit.last (f : Flit) : Bool := f.hdr.getLsbD 30
/-- INT. -/
def Flit.int (f : Flit) : Bool := f.hdr.getLsbD 31
/-- SEQ. -/
def Flit.seq (f : Flit) : Nat := f.hdr.toNat / 2 ^ 32 % 256
/-- Word k of the payload. -/
def Flit.word (f : Flit) (k : Nat) : Word := BitVec.ofNat 32 (f.payload.toNat / 2 ^ (32 * k))

/-! ## Places and routes (R197, R200, R201) -/

/-- The seam-column tile of a half in row r: W.7.r or E.0.r. -/
def seamTile (h r : Nat) : Nat := if h = 0 then 42 + r else 48 + r

/-- The output a flit takes at a node: 0 ejection, 1 north, 2 east, 3 south, 4 west, 5 the trunk to the hub; at a hub 6 + t the trunk
down to tile t, and 128 on the edge endpoints (R200). None when its DEST is no fabric endpoint (R194), or at a hub an edge endpoint of
the other half, which no hub reaches. -/
def route (node : Nat) (f : Flit) : Option Nat :=
  let d := f.dest
  if 0x75 ≤ d then none
  else if node < 96 then
    if d < 96 then
      if node / 6 < d / 6 then some 2
      else if d / 6 < node / 6 then some 4
      else if node % 6 < d % 6 then some 3
      else if d % 6 < node % 6 then some 1
      else some 0
    else if halfOf node = edgeHalf d then some 5
    else if halfOf node = 0 then some 2
    else some 4
  else
    let h := node - 96
    if d < 96 then some (6 + (if halfOf d = h then d else seamTile h (d % 6)))
    else if edgeHalf d = h then some (128 + (d - 0x60))
    else none

/-- The tile at whose tap a flit enters the trunk to the hub of its node (R201). -/
def tapOf (node : Nat) (f : Flit) : Nat :=
  if f.src < 96 ∧ halfOf f.src = node - 96 then f.src else seamTile (node - 96) (f.src % 6)

/-- The input of a node at which a flit from direction d waits: at a tile 0 local to 4 west, and 5 the trunk tap; at a hub 6 on the edge
endpoints, and 32 on the taps of the trunks. -/
def inputOf (node dir : Nat) (f : Flit) : Nat :=
  if node < 96 then (if dir = 0 ∧ 96 ≤ f.src then 5 else dir) else if dir = 0 then 6 + (f.src - 0x60) else 32 + tapOf node f

/-- The depth of an input's buffer (Table 7.6). -/
def bufDepth (node input : Nat) (f : Flit) : Nat :=
  if node < 96 then
    match input with
    | 0 => 4
    | 5 => 8
    | 2 => if halfOf node = 0 ∧ 42 ≤ node then 8 else 4
    | 4 => if halfOf node = 1 ∧ node < 54 then 8 else 4
    | _ => 4
  else if 32 ≤ input then 8
  else if f.src < 0x70 then 16
  else if f.src < 0x72 then 64
  else 4

/-- The router or hub behind an input and its output there; none behind an injection queue or an edge endpoint. -/
def upstream (node input : Nat) : Option (Nat × Nat) :=
  if node < 96 then
    match input with
    | 1 => some (node - 1, 3)
    | 3 => some (node + 1, 1)
    | 2 => some (node + 6, 4)
    | 4 => some (node - 6, 2)
    | 5 => some (hubOf (halfOf node), 6 + node)
    | _ => none
  else if 32 ≤ input then some (input - 32, 5)
  else none

/-- The seam bundle behind an input, if one is. -/
def seamInput (node input : Nat) : Option Nat :=
  if (input = 2 ∧ 42 ≤ node ∧ node < 48) ∨ (input = 4 ∧ 48 ≤ node ∧ node < 54) then some (node % 6) else none

/-! ## Buffers and credits (R202) -/

/-- The buffer of an input and channel. -/
def RouterSt.buf (x : RouterSt) (input v : Nat) : List Flit := Sparse.get (fun _ => []) x.bufs (4 * input + v)

/-- Replace a buffer. -/
def RouterSt.setBuf (x : RouterSt) (input v : Nat) (l : List Flit) : RouterSt :=
  { x with bufs := Sparse.set (fun _ => []) x.bufs (4 * input + v) l }

/-- The credit field of an output and channel. -/
def credField (t o v : Nat) : FieldRef :=
  match v with
  | 0 => F.netCredVc0 t o
  | 1 => F.netCredVc1 t o
  | 2 => F.netCredVc2 t o
  | _ => F.netCredVc3 t o

/-- The node holds a credit for an output and channel; the outputs without a register have 8, the depth of a trunk tap, and an edge
endpoint takes every flit. A place in the ejection queue is a credit of output 0; what leaves that queue in the same beat gives it back
at once. -/
def State.hasCredit (s : State) (node o v : Nat) : Bool :=
  if node < 96 && o ≤ 4 then 0 < s.getF (credField node o v)
  else if 128 ≤ o then true
  else ((s.router node).sent.filter (fun e => e.1 = o && e.2.vc = v)).length < 8

/-- A credit comes back to the sender of a flit, which drops its copy. -/
def State.creditBack (s : State) (node input : Nat) (f : Flit) : State :=
  match upstream node input with
  | none => s
  | some (u, o) =>
    if (s.router u).sent.contains (o, f) then
      (s.modRouter u (fun x => { x with sent := x.sent.erase (o, f) })).when (u < 96 && o ≤ 4) (fun s =>
        s.addF (credField u o f.vc) 1)
    else s

/-- The flit that came in at an input in whose place a sum may stand (R206). -/
def RouterSt.original (x : RouterSt) (input : Nat) (f : Flit) : Flit :=
  if f.vc = 2 then ((x.added.find? (fun e => e.1 = input)).map Prod.snd).getD f else f

/-- The first flit of a buffer leaves it, and its credit goes back. -/
def State.popFlit (s : State) (node input : Nat) (f : Flit) : State :=
  let g := (s.router node).original input f
  (s.modRouter node (fun x => { x.setBuf input f.vc ((x.buf input f.vc).drop 1) with
    added := if f.vc = 2 then x.added.filter (fun e => e.1 ≠ input) else x.added })).creditBack node input g

/-! ## Discards (R194, R211, R212) -/

/-- A flit is discarded and logged against its sender's partition. -/
def State.badFlit (s : State) (node : Nat) (f : Flit) : State :=
  (s.setFlag F.netStatusBadDest true).logEv (if node < 96 then srcTile node 0x87 else srcCtl) (code14 4) f.part f.dest

/-- A router counts a flit that it discards under R211 or R212. -/
def State.countDiscard (s : State) (node : Nat) : State := s.when (node < 96) (fun s => s.satF (F.netRstatDiscards node) 1)

/-- From the apply beat of PART_BEGIN to that of PART_END a partition's flits are discarded. -/
def State.discards (s : State) (n : Nat) : Bool := (s.prt n).discard

/-! ## Compatibility messages and reductions -/

/-- What a flit of channel 3 does at its endpoint (R215): the message words of SYNC, SYNC_ACK and EVENT. -/
def State.compatMsg (s : State) (f : Flit) : State :=
  let type := bitsOf (f.word 0) 31 26
  let w := f.word 1
  if type = 0x20 then
    s.syncArrive f.src f.part (bitsOf w 31 28) (bitsOf w 27 14) (bitsOf w 13 0) (s.askedBy f.src (bitsOf w 27 14))
  else if type = 0x21 then s.ackArrive f.dest (bitsOf w 13 0)
  else if type = 0x28 then s.logEv (f.src * 256 + 0xFF) 0x1502 f.part (bitsOf w 15 0)
  else (s.addF F.rimeStatusDiscards 1).logEv (f.src * 256 + 0xFF) (code14 7) f.part type

/-- The input mask of a reduction context: bit 4 local, 3 west, 2 north, 1 east, 0 south; 0 where the context is not in use. -/
def State.ctxMask (s : State) (t k : Nat) : Nat := if s.flag (F.netRctxValid t k) then s.getF (F.netRctxMask t k) else 0

/-- The inputs of a mask in the order of additions (R206): local, west, north, east, south. -/
def maskInputs (m : Nat) : List Nat :=
  ([(4, 0), (3, 4), (2, 1), (1, 2), (0, 3)].filter (fun e => m.testBit e.1)).map Prod.snd

/-- A router adds flits of this reduction: its mask names more than one input. -/
def State.adds (s : State) (node rid : Nat) : Bool := node < 96 && 2 ≤ (maskInputs (s.ctxMask node rid)).length

/-! ## Forwarding (R196, R202, R211) -/

/-- A flit reaches the ejection point of tile t (R211, R208): a reduction flit waits for its landing object. -/
def State.ejectFlit (s : State) (t : Nat) (f : Flit) : State :=
  if f.part ≠ 0 ∧ s.ownerOf t ≠ f.part then (s.badFlit t f).countDiscard t
  else
    let s := s.count t 0x071 0 none 1
    if f.vc = 2 then
      (s.setF (credField t 0 2) (s.getF (credField t 0 2) - 1)).modRouter t (fun x => { x with eject := x.eject ++ [f] })
    else if f.vc = 3 then s.compatMsg f
    else s

/-- An edge endpoint takes a flit: a port's share of the partition is checked here (R211), an HBM4 access by its own command (R341). -/
def State.edgeFlit (s : State) (node : Nat) (f : Flit) : State :=
  if f.part ≠ 0 && 0x60 ≤ f.dest && f.dest ≤ 0x6F && s.getF (F.partLinkShareEntries f.part (f.dest - 0x60)) = 0 then s.badFlit node f
  else if f.vc = 3 then s.compatMsg f
  else s

/-- A flit leaves a node by an output. -/
def State.sendFlit (s : State) (node o : Nat) (f : Flit) : State :=
  if o = 0 then s.ejectFlit node f
  else if 128 ≤ o then s.edgeFlit node f
  else
    (s.modRouter node (fun x => { x with sent := x.sent ++ [(o, f)] })).when (node < 96 && o ≤ 4) (fun s =>
      s.setF (credField node o f.vc) (s.getF (credField node o f.vc) - 1))

/-- The head of an input and channel that wants an output and can be forwarded: a flit that its router adds waits for the sum, which then
stands in its place (R206). -/
def State.headFor (s : State) (node o input v : Nat) : Option Flit :=
  match (s.router node).buf input v with
  | f :: _ =>
    if route node f = some o ∧ !(v = 2 ∧ s.adds node f.rid = true ∧ !(s.router node).added.any (fun e => e.1 = input)) then some f
    else none
  | [] => none

/-- The inputs that hold flits, in the order in which an output serves them (R196): local, north, east, south, west, and the tap. -/
def RouterSt.inputs (x : RouterSt) : List Nat := (x.bufs.map (fun e => e.1 / 4)).eraseDups

/-- Those inputs from the round-robin pointer of an output and channel on (R196). -/
def RouterSt.turn (x : RouterSt) (o v : Nat) : List Nat :=
  let p := Sparse.get (fun _ => 0) x.rr (4 * o + v)
  x.inputs.filter (p ≤ ·) ++ x.inputs.filter (· < p)

/-- An output serves one channel, if it can. -/
def State.serveVc (s : State) (node o v : Nat) : Option State :=
  if !s.hasCredit node o v then none
  else match ((s.router node).turn o v).find? (fun i => (s.headFor node o i v).isSome) with
    | none => none
    | some i => (s.headFor node o i v).map (fun f =>
      ((s.modRouter node (fun x => { x with rr := Sparse.set (fun _ => 0) x.rr (4 * o + v) (i + 1) })).popFlit node i f).sendFlit
        node o f)

/-- A channel has a flit for an output and a credit. -/
def State.canServe (s : State) (node o v : Nat) : Bool :=
  s.hasCredit node o v && (s.router node).inputs.any (fun i => (s.headFor node o i v).isSome)

/-- The channel that an output serves: one that has waited 16 beats with a flit and a credit, else the one of highest priority that has
both (R196). -/
def State.nextVc (s : State) (node o : Nat) : Option Nat :=
  let ready := [3, 2, 1, 0].filter (fun v => s.canServe node o v)
  (ready.find? (fun v => 16 ≤ Sparse.get (fun _ => 0) (s.router node).waited (4 * o + v))) <|> ready.head?

/-- An output sends one flit, of the channel that it serves; at a beat the other channels that are ready have waited one beat more. -/
def State.serveOut (s : State) (node o : Nat) (beat : Bool) : State :=
  match s.nextVc node o with
  | none => s
  | some v =>
    let others := if beat then [3, 2, 1, 0].filter (fun w => w ≠ v && s.canServe node o w) else []
    let longer := fun (l : Sparse Nat) (w : Nat) => Sparse.set (fun _ => 0) l (4 * o + w) (Sparse.get (fun _ => 0) l (4 * o + w) + 1)
    let s := s.modRouter node (fun x => { x with waited := others.foldl longer (Sparse.set (fun _ => 0) x.waited (4 * o + v) 0) })
    (s.serveVc node o v).getD s

/-- The outputs that the flits held at a node want. -/
def RouterSt.wants (x : RouterSt) (node : Nat) : List Nat :=
  (x.bufs.filterMap (fun e => e.2.head?.bind (route node))).eraseDups

/-- The flits that an output sends in a beat (R192, R200): two on a tap and to a port, 32 to an HBM4 controller, one elsewhere. -/
def outRate (node o : Nat) : Nat :=
  if node < 96 then (if o = 5 then 2 else 1)
  else if o < 144 then 2
  else if o < 146 then 32
  else 1

/-- Every output of a node sends the flits of a beat that it can. -/
def State.serveNode (s : State) (node : Nat) (beat : Bool) : State :=
  s.each ((s.router node).wants node) (fun s o => s.each (List.range (outRate node o)) (fun s i => s.serveOut node o (beat && i = 0)))

/-- A channel that has no flit or no credit at a beat has stopped waiting (R196). -/
def State.dropWaits (s : State) (node : Nat) : State :=
  s.when (!(s.router node).waited.isEmpty) (fun s => s.modRouter node (fun x =>
    { x with waited := x.waited.filter (fun e => s.canServe node (e.1 / 4) (e.1 % 4)) }))

/-- The next flit of a channel that a tile or an edge endpoint has to send enters the injection queue or the hub's input, when that has a
place (R202, Table 7.6). -/
def State.injectVc (s : State) (node v : Nat) : State :=
  match (s.router node).inj.find? (fun f => f.vc = v) with
  | none => s
  | some f =>
    let i := inputOf node 0 f
    if bufDepth node i f ≤ ((s.router node).buf i v).length then s
    else (s.modRouter node (fun x => { x.setBuf i v (x.buf i v ++ [f]) with inj := x.inj.erase f })).when (node < 96) (fun s =>
      s.count node 0x070 0 none 1)

/-- See `State.injectVc`: every channel. -/
def State.inject (s : State) (node : Nat) : State := s.each [3, 2, 1, 0] (fun s v => s.injectVc node v)

/-- A beat of the fabric and of the rime net: every node that holds flits. -/
def State.serveFabric (s : State) : State :=
  (s.each (s.routers.map Prod.fst) (fun s n => ((s.dropWaits n).serveNode n true).inject n)).rimeBeat

/-- A node's router works. -/
def State.nodeOn (s : State) (node : Nat) : Bool := (96 ≤ node || s.tileOn node) && !s.pwr.stopped

/-! ## Arrival (R202 to R204) -/

/-- A flit has failed its parity check three times in a row: a failing wire moves to a spare, or the link has failed (R204). -/
def State.wireFault (s : State) (node input : Nat) : State :=
  let left := Sparse.get (fun _ => 8) (s.router node).wires input
  if left = 0 then (s.setFlag F.netStatusLinkFail true).failModule 8
  else
    let s := s.modRouter node (fun x => { x with wires := Sparse.set (fun _ => 8) x.wires input (left - 1) })
    let s := { s with firn := { s.firn with cfg := { s.firn.cfg with
      wires := Sparse.set (fun _ => 0) s.firn.cfg.wires (128 * node + input) (9 - left) } } }
    match seamInput node input with
    | some r => s.setF (F.netSeamSparesFree r) (s.getF (F.netSeamSparesFree r) - 1)
    | none => s

/-- A flit may arrive at an input: behind a router or a hub it is the oldest that the sender has sent on the channel and the receiver has
not taken, which is what a sender resends from (R202, R203); behind an injection queue or an edge endpoint the sender needs a place in the
buffer. -/
def State.mayArrive (s : State) (node input : Nat) (f : Flit) : Bool :=
  let held := ((s.router node).buf input f.vc).length
  match upstream node input with
  | some (u, o) => ((s.router u).sent.filter (fun e => e.1 = o && e.2.vc = f.vc))[held]? = some (o, f)
  | none => held < bufDepth node input f

/-- A flit fails its parity check (R203): it and every later one of its channel are discarded until it comes again. -/
def State.flitRetry (s : State) (node input : Nat) (f : Flit) : State :=
  let key := 4 * input + f.vc
  let n := Sparse.get (fun _ => 0) (s.router node).retries key + 1
  let s := match seamInput node input with
    | some r => s.addF (F.netSeamReplays r) 1
    | none => s.when (node < 96) (fun s => s.addF (F.netRstatReplays node) 1)
  let s := s.when (node < 96) (fun s => s.count node 0x073 0 none 1)
  let s := s.modRouter node (fun x => { x with
    retries := Sparse.set (fun _ => 0) x.retries key (if n = 3 then 0 else n)
    discarding := (key, f) :: x.discarding.filter (fun e => e.1 ≠ key) })
  s.when (n = 3) (fun s => s.wireFault node input)

/-- A sound flit arrives. -/
def State.flitTake (s : State) (node input : Nat) (f : Flit) : State :=
  let s := match seamInput node input with
    | some r =>
      s.when (!s.frozen) (fun s => { s with seamBytes := addAt s.seamBytes (8 * r + 2 * f.vc + (if node < 48 then 1 else 0)) 128 })
    | none => s
  if (route node f).isNone then (s.badFlit node f).creditBack node input f
  else if s.discards f.part then (s.countDiscard node).creditBack node input f
  else (s.modRouter node (fun x => x.setBuf input f.vc (x.buf input f.vc ++ [f]))).serveNode node false

/-- FLIT_RECEIVE (R202, R203): a flit that may not arrive is none that a sender sends, and nothing is received; while a channel
discards, only the flit that failed is taken or counted. Its parity is checked as it comes in; `ok` is false when the wires have turned
a bit of it. -/
def execFlitReceive (node : NodeN) (dir : Fin 5) (f : Flit) (ok : Bool) (s : State) : Host.Outcome State Fault Refusal :=
  let n := node.val
  let input := inputOf n dir.val f
  let key := 4 * input + f.vc
  let ok := ok && f.sound
  if !s.nodeOn n || !s.mayArrive n input f then .next s
  else match (s.router n).discarding.find? (fun e => e.1 = key) with
    | some e =>
      if e.2 ≠ f then .next s
      else if !ok then .next (s.flitRetry n input f)
      else
        .next ((s.modRouter n (fun x => { x with
          discarding := x.discarding.filter (fun e => e.1 ≠ key), retries := Sparse.set (fun _ => 0) x.retries key 0 })).flitTake
            n input f)
    | none => .next (if ok then s.flitTake n input f else s.flitRetry n input f)

/-! ## In-network reduction (R205 to R208) -/

/-- The sum of two payload words, and whether an int32 sum saturated. -/
def redAdd (int : Bool) (a b : Word) : Word × Bool :=
  if int then
    let v := a.toInt + b.toInt
    if v < -2147483648 then (BitVec.ofInt 32 (-2147483648), true)
    else if 2147483647 < v then (BitVec.ofInt 32 2147483647, true)
    else (BitVec.ofInt 32 v, false)
  else (addF false a b, false)

/-- The payload of the sum of flits, in the order given, and whether a word saturated. -/
def redSum : Flit → List Flit → Flit × Bool
  | f, [] => (f, false)
  | f, g :: gs =>
    let ws := (List.range 32).map (fun k => redAdd f.int (f.word k) (g.word k))
    let sum := flitOf f.hdr (BitVec.ofNat 1024 (leNat (ws.flatMap (fun w => leBytes 4 w.1.toNat))))
    let q := redSum sum gs
    (q.1, q.2 || ws.any Prod.snd)

/-- The heads at the inputs that a context names, none while one is missing, they are not the same flit of the round, or a sum waits. -/
def State.redHeads (s : State) (t rid : Nat) : Option (List (Nat × Flit)) :=
  let hs := (maskInputs (s.ctxMask t rid)).map (fun i => (i, ((s.router t).buf i 2).head?))
  match hs.filterMap (fun e => e.2.map (fun f => (e.1, f))) with
  | [] => none
  | x :: xs =>
    if xs.length + 1 = hs.length ∧ hs.all (fun e => !(s.router t).added.any (fun a => a.1 = e.1)) ∧ (x :: xs).all (fun e => e.2.rid = rid && e.2.seq = x.2.seq && e.2.int = x.2.int) then some (x :: xs)
    else none

/-- The router's one spare adder lane takes a lane's place; none where it is in use. -/
def State.laneSpare (s : State) (t lane : Nat) : Option (State × Nat) :=
  if s.flag (F.netRstatSpareValid t) then none
  else some ((((s.setFlag (F.netRstatSpareValid t) true).setF (F.netRstatSpareLane t) lane).saveRepair (R.netRstat t)), 0)

/-- What the checks of an added flit say (R207, R357, Table 13.3): a router whose vote names the whole unit makes the module fail; one
whose spare lane is taken makes its tile fail (R153). -/
def State.redChecked (s : State) (t : Nat) (chk : Chk) (run : State → State) : State :=
  let repaired := fun (s : State) (code el : Nat) =>
    if s.supplyActive then (run s).logTile t 0x87 code (detail code [el])
    else match s.laneSpare t el with
      | some s1 => (run s1.1).logTile t 0x87 code (detail code [el, s1.2])
      | none => (run s).failTile t 0x87
  match chk with
  | .pass => run s
  | .replayPassed => (run s).logTile t 0x87 0x0F01 (s.getF (F.tileSeqPosPos t))
  | .checker el => repaired s 0x0F04 el
  | .main el => repaired s 0x0F05 el
  | .neither => if s.supplyActive then (run s).logTile t 0x87 0x0F01 (s.getF (F.tileSeqPosPos t))
    else (s.logTile t 0x87 0x1201 (srcTile t 0x87)).failModule 10

/-- A saturation of an int32 reduction: once a window and reduction ID in the log (R206). -/
def State.redSaturated (s : State) (t dest rid part : Nat) : State :=
  let s := s.setFlag F.netStatusRedSat true
  let key := 0x1000000 + rid
  if (s.tile dest).logged.contains key then s
  else (s.modTile dest (fun x => { x with logged := key :: x.logged })).logEv (srcTile t 0x87) (code14 15) part rid

/-- The sum q of the heads at inputs i and `rest`: the other inputs' flits leave their buffers, and the sum waits for its output in the
place of the first one, arbitrated as any flit there (R196, R206). -/
def State.redPlace (s : State) (t i : Nat) (f q : Flit) (rest : List (Nat × Flit)) : State :=
  (s.each rest (fun s e => s.popFlit t e.1 e.2)).modRouter t (fun x => { x.setBuf i 2 (q :: (x.buf i 2).drop 1) with
    added := (i, f) :: x.added })

/-- REDUCTION_ADD (R206): once flit j is present at every named input, the router adds, and forwards when the output serves it. -/
def execReductionAdd (t : TileN) (rid : BitVec 8) (chk : Chk) (s : State) : Host.Outcome State Fault Refusal :=
  match s.redHeads t rid.toNat with
  | some ((i, f) :: (j, g) :: hs) =>
    if !s.nodeOn t then .next s
    else
      let q := redSum f (g :: hs.map Prod.snd)
      .next (s.redChecked t chk (fun s =>
        (((s.redPlace t i f q.1 ((j, g) :: hs)).count t 0x072 0 none 1).when q.2 (fun s =>
          s.redSaturated t f.dest rid.toNat f.part)).serveNode t false))
  | _ => .next s

/-- The landing object of a reduction ID (R208). -/
def State.landingObj (s : State) (n rid : Nat) : Nat := s.getF (F.netRidObjBase n) + (rid - s.getF (F.netRidIdBase n))

/-- Ejected bytes enter the store (Table 5.1); no action's writer record stands for the lines they touch. -/
def State.ejectBytes (s : State) (t o : Nat) (b : Bytes) : State :=
  s.modTile t (fun x => { (x.put o b) with writers := x.writers.filter (fun e => !(linesOf o b.length).contains e.1) })

/-- A reduction flit is written, where its lines may be written (R126, R130), and its place in the ejection queue is free. -/
def State.landFlit (s : State) (t : Nat) (f : Flit) : State :=
  let o := 512 * Sparse.get (fun _ => 0) (s.router t).landing f.rid + 128 * f.seq
  let s := if s.actOk t o 128 then s.ejectBytes t o (leBytes 128 f.payload.toNat) else s.denyStore t o
  ((s.modRouter t (fun x =>
    { x with eject := x.eject.erase f }))).addF (credField t 0 2) 1

/-- The flits of a round that wait: up to its LAST. -/
def roundFlits : List Flit → List Flit
  | [] => []
  | f :: fs => if f.last then [f] else f :: roundFlits fs

/-- REDUCTION_LANDING (R208): the first flit of a round waits until the landing object is 0; LAST signals it. -/
def execReductionLanding (t : TileN) (rid : BitVec 8) (s : State) : Host.Outcome State Fault Refusal :=
  let fs := roundFlits ((s.router t).eject.filter (fun f => f.rid = rid.toNat))
  match fs with
  | [] => .next s
  | f :: _ =>
    let o := s.landingObj f.part rid.toNat
    if !s.nodeOn t || (f.seq = 0 && s.getR (R.syncObj o) ≠ 0) then .next s
    else
      let s := s.each fs (fun s g => s.landFlit t g)
      .next (s.when (fs.any Flit.last) (fun s =>
        s.signalFrom t (s.ownerOf t) o (fun s => s.syncDo 0 opSignal o 1)))

/-! ## RSEND and RSENDI (R182, R205) -/

/-- The head result entry of an array that NET drains. -/
def State.netResult (s : State) (t a : Nat) : Option ResEntry :=
  match (s.arr t a).resQ.head? with
  | some r => if r.net then some r else none
  | none => none

/-- The bytes that a NET action sends, in whole flits; beyond the values of a result entry they are any bytes. -/
def State.netBytes (s : State) (t : Nat) (a : NetArgs) : Bytes :=
  match a.fromArr with
  | some k => match s.netResult t k with
    | some r => s.resBytes r (128 * ((4 * r.vals.length + 127) / 128))
    | none => []
  | none =>
    let src : MovSrc := match a.queue with | some k => .queue k | none => .line a.addr
    s.stRead t ((s.srcAddr t src).getD 0) (512 * (a.lines + 1))

/-- The flits of a round (R193, R205). -/
def netFlits (part dest src rid : Nat) (int : Bool) (win : Nat) (b : Bytes) : List Flit :=
  let n := b.length / 128
  (List.range n).map (fun j =>
    flitOf (flitHdr 2 part dest src rid (j + 1 = n) int j win) (BitVec.ofNat 1024 (fieldAt b (128 * j) 128)))

/-- RSEND and RSENDI as an action: NET injects a flit a beat, and is busy until the last one has entered the injection queue. A round
whose logical destination the map in force gives no tile is dropped, with BAD_DEST and a log entry (DESIGN CHOICE, log entry 86: R187 and
R194 say nothing of it). -/
def State.netAct (s : State) (t : Nat) (a : NetArgs) (int : Bool) : Action :=
  let src : MovSrc := match a.queue with | some k => .queue k | none => .line a.addr
  let o := (s.srcAddr t src).getD 0
  let b := s.netBytes t a
  { unit := 8
    occ := b.length / 128
    ready := Ready.all [
      (match a.fromArr with | some k => .need (s.netResult t k).isSome .front | none => s.srcReady t src),
      .need ((s.router t).inj.all (fun f => f.vc ≠ 2)) .busy, .need (((s.router t).buf 0 2).length < 4) .back]
    reads := match a.fromArr with | some _ => [] | none => [(o, 512 * (a.lines + 1))]
    ask := fun s => match a.fromArr with | some _ => s | none => s.srcAsk t src
    run := fun s =>
      let s := match a.fromArr with
        | some k => (s.modArr t k (fun x => { x with resQ := x.resQ.drop 1 })).freshN 512
        | none => ((s.noteRead t o (512 * (a.lines + 1))).srcTake t src).srcDone t src none
      match s.phys a.dest with
      | none => (s.setFlag F.netStatusBadDest true).logTile t 0x87 (code14 4) a.dest
      | some d =>
        let fs := netFlits (s.ownerOf t) d t a.rid.toNat int s.win b
        ((s.modRouter d (fun x => { x with landing := Sparse.set (fun _ => 0) x.landing a.rid.toNat a.addr })).modRouter t (fun x =>
          { x with inj := x.inj ++ fs })).inject t }

/-- RSEND (R206). -/
def execRsend (t : TileN) (a : NetArgs) (s : State) : Host.Outcome State Fault Refusal := .next (s.act t (s.netAct t a false))

/-- RSENDI (R206). -/
def execRsendi (t : TileN) (a : NetArgs) (s : State) : Host.Outcome State Fault Refusal := .next (s.act t (s.netAct t a true))

/-! ## Partition resets on the fabric (R212) -/

/-- Every node drops the flits of a kind that it holds, each with its credit; `note` is what a node notes of each. -/
def State.flitsDrop (s : State) (kind : Flit → Bool) (note : State → Nat → State) : State :=
  s.each (s.routers.map Prod.fst) (fun s node =>
    let s := s.each ((s.router node).added.filter (fun e => kind e.2)) (fun s e => note (s.popFlit node e.1 e.2) node)
    let gone := (s.router node).bufs.flatMap (fun e => (e.2.filter kind).map (fun f => (e.1 / 4, f)))
    let ej := (s.router node).eject.filter kind
    let s := s.modRouter node (fun x => { x with
      bufs := Sparse.mapAll (fun _ => []) x.bufs (fun _ l => l.filter (fun f => !kind f))
      inj := x.inj.filter (fun f => !kind f), eject := x.eject.filter (fun f => !kind f) })
    let s := s.each gone (fun s e => note (s.creditBack node e.1 e.2) node)
    s.each ej (fun s _ => note (s.addF (credField node 0 2) 1) node))

/-- A warm reset discards the operations and acknowledgements on their way between tiles and homes in compatibility mode (R215, R309). -/
def State.syncFlitsDrop (s : State) : State :=
  s.flitsDrop (fun f => f.vc = 3 && [0x20, 0x21].contains (bitsOf (f.word 0) 31 26)) (fun s _ => s)

/-- At the apply beat of PART_BEGIN every node discards the flits of partition n that it holds, each with its credit, and the contexts
of n are cleared. -/
def State.fabricDrop (s : State) (n : Nat) : State :=
  let s := s.flitsDrop (fun f => f.part = n) State.countDiscard
  { s with regs := Sparse.mapAll regDefault s.regs (fun a w =>
      match Reg.ofAddr a with
      | some r => if r.kind = .netRctx ∧ bitsOf w 25 22 = n then withBits w 31 31 0 else w
      | none => w) }

/-- At a window boundary the round-robin pointers return to local (R196). -/
def State.fabricWindow (s : State) : State := s.each (s.routers.map Prod.fst) (fun s n => s.modRouter n (fun x => { x with rr := [] }))

/-! ## Reduction ID ranges (R217) -/

/-- A NET_RID write is taken: no program of the partition is loaded, the range ends by ID 255 and meets no other's. -/
def State.ridOk (s : State) (n : Nat) (w : Word) : Bool :=
  let b := bitsOf w 7 0
  let c := bitsOf w 16 8
  s.progState n = 0 && b + c ≤ 256 &&
  (List.range 16).all (fun k => k = n || c = 0 || s.getF (F.netRidIdCount k) = 0 ||
    b + c ≤ s.getF (F.netRidIdBase k) || s.getF (F.netRidIdBase k) + s.getF (F.netRidIdCount k) ≤ b)

/-- A write of NET_RIDn. -/
def State.ridWrite (s : State) (n : Nat) (w : Word) : State :=
  if s.ridOk n w then s.setR (R.netRid n) (w &&& 0xFFFDFFFF) else s.logEv srcCtl (code14 5) n n

end Sys2Proof.Machine
end

