-- ==== Sys2Proof/Machine/Links.lean ====
section
/-! DEFINITION. The link ports (R218 to R238, R256): flits and messages, sending by class, share and credit, sequence numbers, replay,
lanes, training, and the NET actions LSEND and LSENDC. -/

namespace Sys2Proof.Machine

/-! ## Flits and messages (R222, R223) -/

/-- A header (Table 8.2). -/
def linkHdr (cls part dest src stream win index fill : Nat) : BitVec 64 :=
  BitVec.ofNat 64 (cls + part * 2 ^ 4 + dest % 1024 * 2 ^ 8 + src % 1024 * 2 ^ 18 + stream % 65536 * 2 ^ 28 + win % 256 * 2 ^ 44 +
    index % 256 * 2 ^ 52 + fill * 2 ^ 60)

/-- The flits of a message: 240 bytes each, the last one with its number of 16-byte units, padded with zeros. -/
def linkFlits (cls part dest src stream win : Nat) (b : Bytes) : List LFlit :=
  let n := max 1 ((b.length + 239) / 240)
  (List.range n).map (fun j =>
    let units := if j + 1 = n then max 1 ((b.length - 240 * j + 15) / 16) else 0
    { hdr := linkHdr cls part dest src stream win j units, payload := BitVec.ofNat 1920 (fieldAt b (240 * j) 240) })

/-- The flit's words (R222): header, 30 payload words, trailer. -/
def LFlit.words (f : LFlit) : List (BitVec 64) :=
  f.hdr :: (List.range 30).map (fun i => BitVec.ofNat 64 (f.payload.toNat / 2 ^ (64 * i))) ++ [f.ret ++ f.seq ++ f.par]

/-- The parity bits of a flit: bit i for word i, and bit 31 for the upper half of the trailer (R222). -/
def LFlit.parity (f : LFlit) : BitVec 32 :=
  let w := f.words
  (List.range 31).foldl (fun b i => setBit b i (oddOnes 64 (w.getD i 0).toNat)) (setBit 0 31 (oddOnes 32 (f.ret ++ f.seq).toNat))

/-- A flit with its parity bits formed, and whether those of an arrived one are correct (R222, R227). -/
def LFlit.seal (f : LFlit) : LFlit := { f with par := f.parity }
/-- See `LFlit.seal`. -/
def LFlit.sound (f : LFlit) : Bool := f.par = f.parity

/-- The lanes of a mask, ascending. -/
def laneList (mask : Nat) : List Nat := (List.range 4).filter (fun i => mask.testBit i)

/-- The words of a flit that go to the j-th of n active lanes: word i to lane i mod n (R221). -/
def LFlit.onLane (f : LFlit) (n j : Nat) : List (BitVec 64) := ((f.words.zipIdx).filter (fun e => e.2 % n = j)).map Prod.fst

/-- Send a flit's words on the lanes in use (R221). -/
def PortSt.spread (x : PortSt) (f : LFlit) : PortSt :=
  let l := laneList x.lanesOn
  { x with laneOut := (l.zipIdx).foldl (fun o e =>
      Sparse.set (fun _ => []) o e.1 (Sparse.get (fun _ => []) o e.1 ++ f.onLane l.length e.2)) x.laneOut }

/-- The class is sequenced (Table 8.3). -/
def sequenced (cls : Nat) : Bool := 1 ≤ cls && cls ≤ 7

/-! ## Credits (R225) -/

/-- Flits sent in pool k that the peer has not freed. -/
def PortSt.inUse (x : PortSt) (k : Nat) : Nat :=
  (Sparse.get (fun _ => 0) x.sent k + 8192 - Sparse.get (fun _ => 0) x.peerFreed k % 8192) % 8192

/-- The port holds a credit for pool k. -/
def State.linkCredit (s : State) (p k : Nat) : Bool := (s.port p).inUse k < s.getF (F.portCredDepth p k)

/-- PORT_CRED and PORT_RETRY show the credits held and the retry buffer. -/
def State.showPort (s : State) (p : Nat) : State :=
  ((List.range 6).foldl (fun s k => s.setF (F.portCredHeld p k) (s.getF (F.portCredDepth p k) - (s.port p).inUse k)) s).setF
    (F.portRetryOccupancy p) (s.port p).retry.length

/-- The credit return of the next flit: POOL 7 by turns with pools 0 to 5. -/
def PortSt.creditReturn (x : PortSt) : BitVec 16 :=
  if x.retTurn % 2 = 0 then BitVec.ofNat 16 (7 * 8192 + x.rxSeq.toNat % 8192)
  else BitVec.ofNat 16 (x.retTurn / 2 * 8192 + Sparse.get (fun _ => 0) x.freed (x.retTurn / 2) % 8192)

/-- Read a credit return: a pool's count, or an acknowledgement of every flit before a sequence number (R226). -/
def PortSt.takeReturn (x : PortSt) (ret : BitVec 16) : PortSt :=
  let k := ret.toNat / 8192
  let c := ret.toNat % 8192
  if k ≤ 5 then { x with peerFreed := Sparse.set (fun _ => 0) x.peerFreed k c }
  else if k = 7 then
    match x.retry with
    | [] => x
    | f :: _ =>
      let d := (c + 8192 - f.seq.toNat % 8192) % 8192
      if d ≤ x.retry.length then { x with retry := x.retry.drop d, resending := min x.resending (x.retry.length - d) } else x
  else x

/-! ## States of a port -/

/-- A link-control message waits to be sent (Table 8.4). -/
def State.control (s : State) (p subtype : Nat) (b : Bytes) : State :=
  s.modPort p (fun x => { x with control := x.control ++ [(subtype, b)] })

/-- The lanes in use: of the good ones, all four, a pair, or the lowest. -/
def activeLanes (ok n : Nat) : Nat :=
  if n = 0 then 0
  else if n = 4 then ok
  else if n = 2 then (if ok % 4 = 3 then 3 else 12)
  else ((List.range 4).find? (fun i => ok.testBit i)).elim 0 (fun i => 2 ^ i)

/-- How many lanes a port whose good lanes are `ok` runs on, when it ran on n (R233). -/
def lanesFor (ok n : Nat) : Nat :=
  if ok = 0 then 0
  else if n = 4 ∧ ok = 15 then 4
  else if n = 4 ∧ (ok % 4 = 3 ∨ ok / 4 = 3) then 2
  else if n = 2 then 2
  else 1

/-- Ones of a 4-bit mask. -/
def ones4 (m : Nat) : Nat := ((List.range 4).filter (fun i => m.testBit i)).length

/-- The port runs on the lanes of a mask. -/
def State.useLanes (s : State) (p mask : Nat) : State :=
  (s.setF (F.portStatusLanes p) (ones4 mask)).modPort p (fun x => { x with lanesOn := mask })

/-- The port's good lanes are `ok`, and it runs on n of them. -/
def State.setLanes (s : State) (p ok n : Nat) : State := (s.setF (F.portStatusLaneOk p) ok).useLanes p (activeLanes ok n)

/-- A port starts to train all its lanes (R228, R256). -/
def State.train (s : State) (p : Nat) (again : Bool) : State :=
  (s.setF (F.portStatusState p) 1).modPort p (fun x => { x with retraining := again })

/-- The INIT of a port (Table 8.4). -/
def State.initBytes (s : State) : Bytes :=
  leBytes 2 s.slot ++ (List.range 6).flatMap (fun k => leBytes 2 (poolSize k)) ++ leBytes 1 (s.getF F.cadCfgPeriod) ++
    leBytes 2 (s.getF F.cadCfgWindow)

/-- The link's sequence numbers, credits and retry buffer as at link initialisation (R225, R226). Accepted flits that still wait hold their
buffers: the count of those freed starts as many below 0, modulo 8,192 (DEDUCED, log entry 87). -/
def PortSt.fresh (x : PortSt) : PortSt :=
  let held := fun (k : Nat) => (x.rxBuf.filter (fun f => f.cls = k + 1)).length
  { x with retry := [], txSeq := 0, rxSeq := 0, sent := [], peerFreed := []
           freed := [0, 1].foldl (fun m k => if held k = 0 then m else Sparse.set (fun _ => 0) m k (8192 - held k % 8192)) []
           retTurn := 0, gap := false, resending := 0, replaySeq := 0, replayCnt := 0, drained := false, asm := [] }

/-- The port ends a drain: its sequence numbers, credits and retry buffer are cleared, the messages whose flits were not acknowledged
are sent again from the start of the queue, and all four lanes are tested and trained (R256). -/
def State.portRestart (s : State) (p : Nat) : State :=
  let s := (s.clearBy .p (fun r => (r.kind.geom.block = Block.port || r.kind.geom.block = Block.ctrPort) && r.i = p)).clearCtr (fun a => match Reg.ofAddr a with
    | some r => r.kind.geom.block = Block.ctrPort && r.i = p
    | none => false)
  let s := s.modPort p (fun x => { (x.fresh) with
    txQ := x.retry ++ x.txQ, drainWait := false, control := [], lanesOn := 0, badAt := [], fixedAt := [], missed := [] })
  (s.train p false).showPort p

/-! ## Lanes (R232 to R234) -/

/-- The beat period in picoseconds (R156). -/
def State.period (s : State) : Nat :=
  let n := s.getF F.cadCfgPeriod
  50 * (n + (n * s.getF F.cadStretchInForce + 99) / 100)

/-- The module's time in picoseconds, by which the 1 ms of R232 is measured. -/
def State.psNow (s : State) : Nat := s.cad.ps

/-- The beat count goes on to b: each beat takes the period in force (R156). -/
def State.passTo (s : State) (b : BitVec 64) : State :=
  { s with cad := { s.cad with beat := b, ps := s.cad.ps + (b.toNat - s.cad.beat.toNat) * s.period } }

/-- A lane is failing at a time in ps by what its codewords and markers say (R232): two markers missed in a row, 4 uncorrectable
codewords in 1 ms, or more corrected symbols than 2 × 10⁻⁴ of the 21,250,000 that a lane receives in 1 ms (R219). -/
def PortSt.laneFails (x : PortSt) (now i : Nat) : Bool :=
  2 ≤ Sparse.get (fun _ => 0) x.missed i ||
  4 ≤ (x.badAt.filter (fun e => e.2 = i && now < e.1 + 1000000000)).length ||
  4250 < (x.fixedAt.filter (fun e => e.2.1 = i && now < e.1 + 1000000000)).foldl (fun n e => n + e.2.2) 0

/-- The good lanes of a port that are failing, as a mask. -/
def State.failingLanes (s : State) (p : Nat) : Nat :=
  ((laneList (s.getF (F.portStatusLaneOk p))).filter ((s.port p).laneFails s.psNow)).foldl (fun m i => m + 2 ^ i) 0

/-- Lanes fail (R233, R236): the port moves to fewer lanes where one in use is among them, and where no good lane is left it retrains. A lane
that is out of use stays out until a port reset. -/
def State.laneFail (s : State) (p lanes : Nat) : State :=
  let ok := s.getF (F.portStatusLaneOk p)
  let n := s.getF (F.portStatusLanes p)
  let left := ok &&& (15 - lanes)
  let own := if n = 4 then left else left &&& (s.port p).lanesOn
  if left = 0 || (own = 0 && (s.port p).lanesOn &&& lanes ≠ 0) then (s.setLanes p 0 0).train p true
  else if (s.port p).lanesOn &&& lanes = 0 then s.setF (F.portStatusLaneOk p) left
  else
    let m := activeLanes own (if n = 4 then lanesFor left 4 else 1)
    (((s.setF (F.portStatusLaneOk p) left).useLanes p m).setF (F.portStatusState p) 4).control p 4 (leBytes 1 m)

/-- The master announces the variant for a port's new width to every module of a partition, for a window two ahead (R234). -/
def State.announceVariant (s : State) (slot p mask : Nat) : State :=
  let v := fun n => Config.variantFor n (16 * slot + p) (ones4 mask)
  let has := fun n => 0 < v n && v n < (match (s.prt n).prog with | some g => g.variants | none => 4)
  s.each ((List.range 16).filter has) (fun s n =>
    (s.sendMgmtAll (s.holdersOf n) 0x0209
      (leBytes 1 n ++ leBytes 1 (v n) ++ leBytes 2 0 ++ leBytes 8 (s.win + 2))).modPrt n (fun x =>
        { x with variantAt := some (s.win + 2, v n) }))

/-- Report a lane change (R234): to the log and to both masters; the sending master announces the variant for its own port too. -/
def State.laneChanged (s : State) (p : Nat) : State :=
  let m := (s.port p).lanesOn
  let s := s.modPort p (fun x => { x with lanesTold := m })
  let s := (s.logEv (srcPort p) 0x0F0D 0xFF (detail 0x0F0D [p, m])).sendMgmtAll s.masters 0x0208
    (leBytes 1 p ++ leBytes 1 m ++ leBytes 2 0 ++ leBytes 8 s.cad.beat.toNat)
  s.when s.cad.masterNow (fun s => s.announceVariant s.slot p m)

/-- The codewords and markers of the time before a flit (R220, R232): PORT_FEC counts the codewords. -/
def State.fecCount (s : State) (p : Nat) (e : FecNote) : State :=
  let t := s.psNow
  ((s.addF (F.portFecCorrected p) e.fixed.length).addF (F.portFecUncorrectable p) e.bad.length).modPort p (fun x => { x with
    badAt := (x.badAt.filter (fun b => t < b.1 + 1000000000)) ++ e.bad.map (fun i => (t, i.val))
    fixedAt := (x.fixedAt.filter (fun b => t < b.1 + 1000000000)) ++ e.fixed.map (fun i => (t, i.1.val, i.2))
    missed := e.markers.foldl (fun m i =>
      Sparse.set (fun _ => 0) m i.1.val (if i.2 then 0 else Sparse.get (fun _ => 0) m i.1.val + 1)) x.missed })

/-- A lane that is failing fails (R232, R233). -/
def State.fecLanes (s : State) (p : Nat) : State :=
  let m := s.failingLanes p
  if m = 0 then s else s.laneFail p m

/-! ## Arrival (R223, R227, R230, R231, R255) -/

/-- The bytes that the layout of a management subtype takes at the start of a payload (Table 8.11); none for an unknown subtype. -/
def mgmtSize (subtype : Nat) (b : Bytes) : Option Nat :=
  match subtype with
  | 0x0010 => some 8 | 0x0011 => some 68 | 0x0012 => some 4 | 0x0020 => some 4
  | 0x0200 => some 12 | 0x0201 => some 16 | 0x0202 => some 8 | 0x0203 => some 16
  | 0x0204 => some (8 + 12 * fieldAt b 6 2) | 0x0205 => some (10 + 2 * fieldAt b 8 2) | 0x0208 => some 12 | 0x0209 => some 12
  | 0x0300 => some (16 + fieldAt b 8 4) | 0x0301 => some 16 | 0x0302 => some 16 | 0x0303 => some 24
  | 0x0600 => some (8 + 32 * fieldAt b 0 1) | 0x0605 => some 16
  | 0x0904 => some 16 | 0x0905 => some 12 | 0x0906 => some 16 | 0x0907 => some (24 + fieldAt b 4 4)
  | _ => none

/-- A message has arrived whole (R223). A management message shorter than its layout is discarded and logged (R255); every other one
goes to the unit that it is for, whose command it becomes. -/
def State.linkMessage (s : State) (f : LFlit) (b : Bytes) : State :=
  if f.cls = 7 && (mgmtSize f.stream b).any (fun n => b.length < n) then
    s.logEv srcCtl (code14 7) 0xFF (detail (code14 7) [f.src, f.stream])
  else { s with linkIn := s.linkIn ++ [(f.src, { cls := f.cls, part := f.part, dest := f.dest, stream := f.stream, payload := b })] }

/-- A flit of a message joins those before it; the one with a FILL ends the message (R223). -/
def State.assemble (s : State) (p : Nat) (f : LFlit) : State :=
  let key := f.hdr.toNat % 2 ^ 44
  let b := (if f.index = 0 then [] else (List.lookup key (s.port p).asm).getD []) ++ f.bytes
  let rest := (s.port p).asm.filter (fun e => e.1 ≠ key)
  if f.fill = 0 then s.modPort p (fun x => { x with asm := (key, b) :: rest })
  else (s.modPort p (fun x => { x with asm := rest })).linkMessage f b

/-- Scheduled data crosses a port on fewer than four lanes: requests of its partition complete so (R235). -/
def State.noteSlow (s : State) (p : Nat) (f : LFlit) : State :=
  s.when (f.cls = 1 && s.getF (F.portStatusLanes p) ≠ 4) (fun s => s.modPrt f.part (fun x => { x with slow := true }))

/-- Count a flit of a class that the port sends (0) or accepts (1) (R461). -/
def State.countLink (s : State) (p cls d : Nat) : State :=
  if s.frozen || cls = 0 then s else s.modPort p (fun x => { x with winBytes := addAt x.winBytes (2 * cls + d) 256 })

/-- The receiver asks for its expected flit. -/
def State.askReplay (s : State) (p : Nat) : State :=
  ((s.modPort p (fun x => { x with gap := true })).control p 1 (leBytes 2 (s.port p).rxSeq.toNat)).addF (F.portReplayRequested p) 1

/-- A flit of a partition without a running program is discarded, with its credit (R231); one of a partition in reset too (R212). -/
def State.linkDiscard (s : State) (p : Nat) (f : LFlit) : State :=
  let s := (s.modPort p (fun x => x.free f.cls)).setFlag (F.portStatusBadPart p) true
  if (s.port p).badPartLogged.contains f.part then s
  else (s.modPort p (fun x => { x with badPartLogged := f.part :: x.badPartLogged })).logEv (srcPort p) (code14 6) f.part f.part

/-- An accepted flit: data waits in the port buffer; a flit of every other class joins its message, and its buffer is free. -/
def State.linkDeliver (s : State) (p : Nat) (f : LFlit) : State :=
  if (f.cls = 1 || f.cls = 2 || f.cls = 5 || f.cls = 6) && (!s.running f.part || s.discards f.part) then s.linkDiscard p f
  else if f.cls = 1 || f.cls = 2 then (s.modPort p (fun x => { x with rxBuf := x.rxBuf ++ [f] })).noteSlow p f
  else (s.modPort p (fun x => x.free f.cls)).assemble p f

/-- A later number than the expected one. -/
def later (seq expected : BitVec 16) : Bool := let d := (seq - expected).toNat; 0 < d && d < 32768

/-- A flit whose parity is correct. -/
def State.linkArrive (s : State) (p : Nat) (f : LFlit) : State :=
  let s := (s.modPort p (fun x => x.takeReturn f.ret)).showPort p
  let x := s.port p
  if f.cls = 8 then s.countLink p 8 1
  else if 9 ≤ f.cls then s.setFlag (F.portStatusBadClass p) true
  else if f.cls = 0 then (if later f.seq x.rxSeq && !x.gap then s.askReplay p else s)
  else if f.seq = x.rxSeq then
    ((s.modPort p (fun x => { x with rxSeq := x.rxSeq + 1, gap := false })).linkDeliver p f).countLink p f.cls 1
  else if later f.seq x.rxSeq && !x.gap then s.askReplay p
  else s

/-- A flit whose parity is wrong, or that has a word in an uncorrectable codeword, is discarded (R220, R227). -/
def State.linkBroken (s : State) (p : Nat) (f : LFlit) : State :=
  if f.cls = 0 || f.cls = 8 || (s.port p).gap then s else s.askReplay p

/-- LINK_FLIT_RECEIVE (R220, R227, R232). -/
def execLinkFlitReceive (p : PortN) (f : LFlit) (fec : FecNote) (s : State) : Host.Outcome State Fault Refusal :=
  if !s.portUp p then .next s
  else
    let s := s.fecCount p fec
    .next ((if f.sound && !fec.hit then s.linkArrive p f else s.linkBroken p f).fecLanes p)

/-! ## Sending (R229, R338) -/

/-- The weight of a partition on a port (R338, R342). -/
def State.linkWeight (s : State) (p n : Nat) : Nat :=
  match (s.prt n).override with
  | some o => max 1 o.weight
  | none => max 1 (s.getF (F.partLinkShareEntries n p))

/-- A flit may leave: a pooled class needs a credit, and in locked cadence scheduled data needs a grant (R185, R229); in Retain neither
scheduled nor credited data leave (R424). -/
def State.mayLeave (s : State) (p : Nat) (f : LFlit) : Bool :=
  (s.getF F.pwrModeState ≠ 2 || (f.cls ≠ 1 && f.cls ≠ 2)) &&
  (match poolOf f.cls with | some k => s.linkCredit p k | none => true) &&
  (f.cls ≠ 1 || !s.locked || 0 < Sparse.get (fun _ => 0) (s.port p).grant (16 * f.stream + f.part))

/-- The first flit of a class and partition in the queue that may leave: flits for one slot keep their order (R229), and a stream
without a grant holds up no other slot's (R185). -/
def State.firstOf (s : State) (p cls n : Nat) : Option LFlit :=
  let q := (s.port p).txQ.filter (fun f => f.cls = cls && f.part = n)
  q.find? (fun f => s.mayLeave p f && decide (q.find? (fun g => g.dest = f.dest) = some f))

/-- The partitions that have a flit of a class that may leave. -/
def State.readyParts (s : State) (p cls : Nat) : List Nat := (List.range 16).filter (fun n => (s.firstOf p cls n).isSome)

/-- The partition whose turn it is in a class: it keeps its turn while its weight lasts, then the next one in ascending order follows. -/
def State.turnOf (s : State) (p cls : Nat) : Option (Nat × Nat) :=
  let ready := s.readyParts p cls
  let cur := Sparse.get (fun _ => (0, 0)) (s.port p).wrr cls
  if ready.contains cur.1 && 0 < cur.2 then some cur
  else ((ready.find? (fun n => cur.1 < n)) <|> ready.head?).map (fun n => (n, s.linkWeight p n))

/-- A flit addressed to a failed slot goes to the standby module (R371); idle flits and link control go no further than the peer. -/
def State.toward (s : State) (f : LFlit) : LFlit :=
  if f.cls = 0 ∨ f.cls = 8 then f
  else { f with hdr := BitVec.ofNat 64 (f.hdr.toNat % 2 ^ 8 + s.redirect f.dest % 1024 * 2 ^ 8 + f.hdr.toNat / 2 ^ 18 * 2 ^ 18) }

/-- Put a flit on the lanes; in loopback it comes back to the port's own receiver. -/
def State.emit (s : State) (p : Nat) (f : LFlit) : State :=
  let f := { s.toward f with ret := (s.port p).creditReturn }.seal
  let s := (s.modPort p (fun x => { x with retTurn := (x.retTurn + 1) % 12 })).noteSlow p f
  if s.flag (F.portCfgLoopback p) then s.linkArrive p f else s.modPort p (fun x => x.spread f)

/-- The module's own messages that leave by a port become flits of its queue (R223, R224, R229); a message to the module itself
arrives at once. -/
def State.linkPull (s : State) (p : Nat) : State :=
  let own := s.linkOut.filter (fun m => m.dest = s.slot)
  let mine := s.linkOut.filter (fun (m : LinkMsg) => m.dest ≠ s.slot && Config.portFor m.dest m.cls = p)
  let rest := s.linkOut.filter (fun m => m.dest ≠ s.slot && Config.portFor m.dest m.cls ≠ p)
  { s with linkOut := rest, linkIn := s.linkIn ++ own.map (fun m => (s.slot, m)) }.modPort p (fun x => { x with
    txQ := x.txQ ++ mine.flatMap (fun (m : LinkMsg) => linkFlits m.cls m.part m.dest s.slot m.stream s.win m.payload) })

/-- A sequenced flit of a class leaves the queue. -/
def State.sendClass (s : State) (p cls : Nat) : Option State :=
  if 512 ≤ (s.port p).retry.length || (s.port p).drainWait then none
  else match s.turnOf p cls with
    | none => none
    | some (n, left) => (s.firstOf p cls n).map (fun f =>
      let g := { f with seq := (s.port p).txSeq }
      let s := s.modPort p (fun x => { x with
        txQ := x.txQ.erase f, retry := x.retry ++ [g], txSeq := x.txSeq + 1, wrr := Sparse.set (fun _ => (0, 0)) x.wrr cls (n, left - 1)
        sent := (match poolOf cls with | some k => addAt x.sent k 1 | none => x.sent)
        grant := if cls = 1 ∧ s.locked = true then
            Sparse.set (fun _ => 0) x.grant (16 * f.stream + n) (Sparse.get (fun _ => 0) x.grant (16 * f.stream + n) - 1) else x.grant })
      ((s.countLink p cls 0).emit p g).showPort p)

/-- A link-control flit leaves. -/
def State.sendControl (s : State) (p : Nat) : Option State :=
  match (s.port p).control with
  | [] => none
  | (k, b) :: cs =>
    some (((s.modPort p (fun x => { x with control := cs })).countLink p 8 0).emit p
      { hdr := linkHdr 8 0 0 s.slot k 0 0 (max 1 ((b.length + 15) / 16)), payload := BitVec.ofNat 1920 (leNat b), seq := (s.port p).txSeq })

/-- A flit of the retry buffer is sent again, in order (R227). -/
def State.resend (s : State) (p : Nat) : Option State :=
  let x := s.port p
  match x.retry[x.retry.length - x.resending]? with
  | some f =>
    if x.resending = 0 then none
    else some (((s.modPort p (fun x => { x with resending := x.resending - 1 })).addF (F.portReplayResent p) 1).emit p f)
  | none => none

/-- An idle flit. -/
def State.sendIdle (s : State) (p : Nat) : State := s.emit p { hdr := linkHdr 0 0 0 s.slot 0 0 0 0, seq := (s.port p).txSeq }

/-- LINK_FLIT_SEND (R229): the classes in the order of Table 8.3, flits being resent ahead of new ones; a port that is not up sends
link control alone, in deskew and in a lane change. -/
def execLinkFlitSend (p : PortN) (s : State) : Host.Outcome State Fault Refusal :=
  if s.pwr.stopped then .next s
  else if s.portUp p then
    let s := s.linkPull p
    let next := [s.resend p, s.sendClass p 4, s.sendControl p, s.sendClass p 1, s.sendClass p 3, s.sendClass p 5, s.sendClass p 6,
      s.sendClass p 2, s.sendClass p 7].findSome? id
    .next (next.getD (s.sendIdle p))
  else if s.getF (F.portStatusState p) = 2 || s.getF (F.portStatusState p) = 4 then .next ((s.sendControl p).getD s)
  else .next s

/-- The next partition after `last`, in ascending order and around, that still has part of its share left. -/
def nextOwner (left : List Nat) (last : Nat) : Option Nat :=
  ((List.range 16).map (fun i => (last + 1 + i) % 16)).find? (fun n => 0 < left.getD n 0)

/-- Entries of an owner table from entry i on, given the shares that are left and the last owner (R337). -/
def ownerWalk : Nat → List Nat → Nat → List Nat
  | 0, _, _ => []
  | k + 1, left, last =>
    match nextOwner left last with
    | some n => n :: ownerWalk k (left.set n (left.getD n 0 - 1)) n
    | none => 0 :: ownerWalk k left last

/-- The owner table of a port (R337), which follows from the partitions' shares: entry 255 belongs to partition 0. -/
def State.ownerTable (s : State) (p : Nat) : List Nat :=
  ownerWalk 255 ((List.range 16).map (fun n => if n = 0 then 0 else s.getF (F.partLinkShareEntries n p))) 0 ++ [0]

/-- The owner of a beat position on a port (R337). -/
def State.portOwner (s : State) (p pos : Nat) : Nat := (s.ownerTable p).getD (pos % 256) 0

/-- A link engine's grant (R185, R338): in locked cadence it holds for its beat, in a beat position of its partition. -/
def State.linkGrant (s : State) (p stream flits n : Nat) : State :=
  if !s.locked || s.portOwner p (s.cad.beat.toNat % s.winLen) ≠ n then s
  else s.modPort p (fun x => { x with grant := Sparse.set (fun _ => 0) x.grant (16 * stream + n) flits })

/-- LINK_ENGINE_GRANT (R185). -/
def execLinkEngineGrant (p : PortN) (stream : BitVec 16) (flits : BitVec 8) (n : PartN) (s : State) : Host.Outcome State Fault Refusal :=
  .next (s.linkGrant p stream.toNat flits.toNat n)

/-- LSEND and LSENDC as an action (R182, R230). The port, an edge endpoint, discards the flits of a partition without a share (R211). -/
def State.linkAct (s : State) (t : Nat) (src : MovSrc) (lines p stream cls : Nat) : Action :=
  let o := (s.srcAddr t src).getD 0
  let n := 512 * lines
  { unit := 8
    occ := 4 * lines
    ready := s.srcReady t src
    reads := [(o, n)]
    ask := fun s => s.srcAsk t src
    run := fun s =>
      let b := s.stRead t o n
      let s := ((s.noteRead t o n).srcTake t src).srcDone t src none
      let part := s.ownerOf t
      let fs := linkFlits cls part (s.redirect (Config.streamDest p stream)) s.slot stream s.win b
      if part ≠ 0 && s.getF (F.partLinkShareEntries part p) = 0 then
        (s.setFlag F.netStatusBadDest true).each (List.range (4 * lines)) (fun s _ => s.logEv srcCtl (code14 4) part (0x60 + p))
      else (s.modPort p (fun x => { x with txQ := x.txQ ++ fs })).count t 0x070 0 none (4 * lines) }

/-- LSEND (R230). -/
def execLsend (t : TileN) (src : MovSrc) (lines : Fin 64) (p : PortN) (stream : BitVec 16) (s : State) :
    Host.Outcome State Fault Refusal :=
  .next (s.act t (s.linkAct t src (lines + 1) p stream.toNat 1))

/-- LSENDC (R182). -/
def execLsendc (t : TileN) (src : MovSrc) (lines : Fin 64) (p : PortN) (stream : BitVec 16) (s : State) :
    Host.Outcome State Fault Refusal :=
  .next (s.act t (s.linkAct t src (lines + 1) p stream.toNat 2))

/-! ## Link control (Table 8.4) -/

/-- A port reset starts (R256): a port that is up drains first. -/
def State.portReset (s : State) (p : Nat) : State :=
  if !s.flag (F.portCfgEnable p) || !s.domOn (48 + p) then s
  else if s.portUp p then (s.modPort p (fun x => { x with drainWait := true })).control p 6 []
  else s.portRestart p

/-- The third REPLAY of one number: failing lanes leave, and where none is failing all lanes retrain (R228). -/
def State.thirdReplay (s : State) (p : Nat) : State :=
  let m := s.failingLanes p
  if m = 0 then (s.setFlag (F.portStatusRetrained p) true).train p true else s.laneFail p m

/-- REPLAY (R227, R228): the sender goes back to the named flit; one that it no longer holds leads to a port reset. -/
def execReplay (p : PortN) (seq : BitVec 16) (s : State) : Host.Outcome State Fault Refusal :=
  if !s.portUp p then .next s
  else
    let x := s.port p
    let cnt := if x.replaySeq = seq then x.replayCnt + 1 else 1
    match (List.range x.retry.length).find? (fun i => (x.retry[i]?).elim false (fun f => f.seq = seq)) with
    | some i =>
      let s := s.modPort p (fun x => { x with resending := x.retry.length - i, replaySeq := seq, replayCnt := if cnt = 3 then 0 else cnt })
      .next (s.when (cnt = 3) (fun s => s.thirdReplay p))
    | none => if seq = x.txSeq then .next s else .next (s.portReset p)

/-- REPLAY_REPEAT_TIMER (R227). -/
def execReplayRepeatTimer (p : PortN) (s : State) : Host.Outcome State Fault Refusal :=
  if s.portUp p && (s.port p).gap then .next (s.askReplay p) else .next s

/-- ECHO (R228, R247): the answer carries the value and the residence. -/
def execEcho (p : PortN) (count : BitVec 64) (resPs : BitVec 64) (s : State) : Host.Outcome State Fault Refusal :=
  if !s.portUp p then .next s else .next (s.control p 3 (leBytes 8 count.toNat ++ leBytes 8 resPs.toNat))

/-- The module notes a path that is slower than its table says (R248). -/
def State.pathMismatch (s : State) (src item measured : Nat) : State :=
  (s.setFlag F.cadAlignPathMismatch true).logEv src (code14 14) 0xFF (detail (code14 14) [item, measured])

/-- ECHO_REPLY (R247, R248): counts in taps, 50 ps each; the smallest of 64 is kept, and the one-way latency is half the round trip. -/
def execEchoReply (p : PortN) (count resPs arrival : BitVec 64) (s : State) : Host.Outcome State Fault Refusal :=
  if !s.portUp p then .next s
  else
    let rtt := arrival.toNat - count.toNat - resPs.toNat / 50
    let x := s.port p
    let m := match x.ecMin with | some m => min m rtt | none => rtt
    let s := s.modPort p (fun x => { x with ecMin := some m, ecCount := x.ecCount + 1 })
    let s := (s.setF (F.portLatRtt p) (min m 65535)).setF (F.portLatOneWay p) (min (m / 2) 65535)
    let last := decide (x.ecCount + 1 = 64)
    let s := s.when (last && s.me.hopRt.getD p 0 + 2000 < m) (fun s => s.pathMismatch (srcPort p) p m)
    .next (s.when (last && s.me.hopOne.getD p 0 + 2000 < m / 2) (fun s => s.pathMismatch (srcPort p) p (m / 2)))

/-- The lanes that a port goes on with after a retrain in which `lanes` have trained: a lane that had failed stays out (R233), and one
that did not train has failed; a port that had no good lane left takes all that trained (R236). -/
def State.retrained (s : State) (p lanes : Nat) : State :=
  let old := s.getF (F.portStatusLaneOk p)
  let ok := if old = 0 then lanes else old &&& lanes
  let on := (s.port p).lanesOn
  if ok = 0 then s.setLanes p 0 0
  else
    let n := s.getF (F.portStatusLanes p)
    let own := if old = 0 || n = 4 || on &&& ok = 0 then ok else on &&& ok
    let m := if old ≠ 0 && on &&& ok = on then on else activeLanes own (if old = 0 || n = 4 then lanesFor ok 4 else 1)
    let s := (((s.setF (F.portStatusLaneOk p) ok).useLanes p m).modPort p (fun x => { x with
      retraining := false, badAt := [], fixedAt := [], missed := [] })).setF (F.portStatusState p) 3
    ((s.askReplay p).logEv (srcPort p) 0x0F10 0xFF p).when (m ≠ on) (fun s => s.laneChanged p)

/-- LINK_TRAINING_DONE (R228, R233, R247): after a retrain the port is up and asks for its expected flit; otherwise it sends INIT. -/
def execLinkTrainingDone (p : PortN) (lanes : BitVec 4) (s : State) : Host.Outcome State Fault Refusal :=
  if s.getF (F.portStatusState p) ≠ 1 || lanes = 0 then .next s
  else if (s.port p).retraining then .next (s.retrained p lanes.toNat)
  else
    .next (((s.setLanes p lanes.toNat (lanesFor lanes.toNat 4)).setF (F.portStatusState p) 2).control p 0 s.initBytes)

/-- The lanes of an offered set that are still in use here (R233). -/
def State.lanesOffered (s : State) (p : Nat) (mask : BitVec 4) : Nat := mask.toNat &&& (s.port p).lanesOn

/-- LANES (R233): the port accepts those of the proposed set that it has in use, and goes on with them. -/
def execLanes (p : PortN) (mask : BitVec 4) (s : State) : Host.Outcome State Fault Refusal :=
  let m := s.lanesOffered p mask
  if (!s.portUp p && s.getF (F.portStatusState p) ≠ 4) || m = 0 then .next s
  else .next ((((s.useLanes p m).setF (F.portStatusState p) 3).control p 5 (leBytes 1 m)).laneChanged p)

/-- LANES_ACK (R233). -/
def execLanesAck (p : PortN) (mask : BitVec 4) (s : State) : Host.Outcome State Fault Refusal :=
  let m := s.lanesOffered p mask
  if s.getF (F.portStatusState p) ≠ 4 || m = 0 then .next s
  else .next (((s.useLanes p m).setF (F.portStatusState p) 3).laneChanged p)

/-- LINK_DRAIN (R256): the peer sends nothing sequenced until INIT. -/
def execLinkDrain (p : PortN) (s : State) : Host.Outcome State Fault Refusal :=
  if !s.portUp p then .next s else .next (s.modPort p (fun x => { x with drained := true }))

/-- LANE_FAIL (R232, R233, R236): lanes have lost their signal or lock, or met another failing condition. -/
def execLaneFail (p : PortN) (lanes : BitVec 4) (s : State) : Host.Outcome State Fault Refusal :=
  if !s.portUp p && s.getF (F.portStatusState p) ≠ 4 then .next s else .next (s.laneFail p lanes.toNat)

/-- LAST_LANE_RETRAIN_TIMEOUT (R236): a port without a good lane has not come up again. -/
def execLastLaneRetrainTimeout (p : PortN) (s : State) : Host.Outcome State Fault Refusal :=
  if s.getF (F.portStatusState p) ≠ 1 || !(s.port p).retraining then .next s
  else .next (((s.setF (F.portStatusState p) 0).logEv (srcPort p) 0x1201 0xFF (srcPort p)).failModule 7)

/-- PORT_RESET (R256): a write of RESET. -/
def execPortReset (p : PortN) (s : State) : Host.Outcome State Fault Refusal := .next (s.portReset p)

/-- DRAIN_WAIT_END (R256). -/
def execDrainWaitEnd (p : PortN) (s : State) : Host.Outcome State Fault Refusal :=
  if !(s.port p).drainWait then .next s
  else .next ((s.when (!(s.port p).retry.isEmpty) (fun s => s.logEv (srcPort p) (code14 6) 0xFF (s.port p).retry.length)).portRestart p)

/-- A partition's flits that wait in the transmit queues and the receive buffers are discarded (R212, R231), with its messages that no port
has cut into flits yet. -/
def State.linksDrop (s : State) (n : Nat) : State :=
  State.each { s with linkOut := s.linkOut.filter (fun m => m.part ≠ n || m.cls = 7) } (s.ports.map Prod.fst) (fun s p =>
    let gone := (s.port p).rxBuf.filter (fun f => f.part = n)
    s.modPort p (fun x => gone.foldl (fun x f => x.free (if f.cls = 6 then 0 else f.cls)) { x with
      txQ := x.txQ.filter (fun f => f.part ≠ n), rxBuf := x.rxBuf.filter (fun f => f.part ≠ n)
      asm := x.asm.filter (fun e => e.1 / 16 % 16 ≠ n), skip := x.skip.filter (fun e => e.1 / 65536 ≠ n) }))

end Sys2Proof.Machine
end

