-- ==== Sys2Proof/Machine/Domain.lean ====
section
/-! DEFINITION. The cadence domain (R156, R157, R240 to R248, R365 to R368): the topology table, marks and alignment, stretch requests,
bring-up, window extension, and lane reports. -/

namespace Sys2Proof.Machine

/-! ## The topology table (R240, R242) -/

/-- A slot entry from its 160 bytes. -/
def slotEntryOf (b : Bytes) : SlotEntry :=
  let roles := fieldAt b 3 1
  { slot := fieldAt b 0 2
    group := fieldAt b 2 1
    master := roles.testBit 0
    standbyMaster := roles.testBit 1
    bridge := roles.testBit 2
    standby := roles.testBit 3
    pcieWired := roles.testBit 4
    present := roles.testBit 5
    buddy := fieldAt b 4 2
    latMaster := fieldAt b 8 4
    latStandby := fieldAt b 12 4
    used := (List.range 16).map (fun p => fieldAt b (35 + 8 * p) 1 = 1)
    hopRt := (List.range 16).map (fun p => fieldAt b (36 + 8 * p) 2)
    hopOne := (List.range 16).map (fun p => fieldAt b (38 + 8 * p) 2) }

/-- A topology table from its bytes, none where it does not have the layout of Table 8.5. -/
def topoOf (b : Bytes) : Option Topo :=
  let n := fieldAt b 6 2
  let m := fieldAt b 28 4
  if fieldAt b 0 4 = 0x44565450 ∧ fieldAt b 4 2 = 1 ∧ b.length = 64 + 160 * n + 16 * m + 132 then
    some {
      bytes := b
      epoch := fieldAt b 16 4
      domain := fieldAt b 8 8
      n := fieldAt b 20 1
      l256 := fieldAt b 22 2
      master := fieldAt b 24 2
      standbyMaster := fieldAt b 26 2
      slots := (List.range n).map (fun i => slotEntryOf ((b.drop (64 + 160 * i)).take 160))
      pairs := (List.range m).map (fun i =>
        let o := 64 + 160 * n + 16 * i
        ⟨fieldAt b o 2, fieldAt b (o + 2) 2, fieldAt b (o + 4) 4, fieldAt b (o + 8) 4⟩) }
  else none

/-- The table keeps R242, with N and L / 256 in their ranges. -/
def Topo.rules (t : Topo) : Bool :=
  let of_ := fun g => t.slots.filter (fun e => e.group = g)
  32 ≤ t.n && t.n ≤ 80 && 4 ≤ t.l256 && t.l256 ≤ 256 &&
  t.slots.all (fun e => e.slot < 1024 && e.group = e.slot / 128) &&
  (List.range 8).all (fun g => (of_ g).isEmpty ||
    (((of_ g).filter SlotEntry.bridge).length = 1 && ((of_ g).filter SlotEntry.standby).length ≤ 1)) &&
  (t.slots.filter SlotEntry.master).length = 1 && (t.slots.filter SlotEntry.standbyMaster).length = 1 &&
  t.slots.all (fun e => !e.master || e.slot = t.master) && t.slots.all (fun e => !e.standbyMaster || e.slot = t.standbyMaster) &&
  t.master / 128 ≠ t.standbyMaster / 128

/-- The status of a table for this slot (R240, R242): SIGNATURE_INVALID, BAD_PARAM, or OK with the table. -/
def State.judgeTopo (s : State) (b : Bytes) : Nat × Option Topo :=
  if !s.topoSigned b then (stSignature, none)
  else match topoOf b with
    | none => (stBadParam, none)
    | some t => if t.rules && t.slots.any (fun e => e.slot = s.slot) then (stOK, some t) else (stBadParam, none)

/-- Put a table in force: N, L, the master's slot, and which ports have a peer (R155, R162, R218). -/
def State.useTopo (s : State) (t : Topo) : State :=
  let s := { s with firn := { s.firn with topo := t } }
  let s := ((s.setF F.cadCfgPeriod t.n).setF F.cadCfgWindow t.l256).setF F.cadMasterSlot t.master
  s.each (List.range 16) (fun s p => s.setFlag (F.portCfgEnable p) (s.me.used.getD p false))

/-! ## The cadence (R155 to R157, R245) -/

/-- The ports that have a peer and are up. -/
def State.usedPorts (s : State) : List Nat := (List.range 16).filter (fun p => s.flag (F.portCfgEnable p) && s.portUp p)

/-- The payload of a MARK (Table 8.6). -/
def State.markBytes (s : State) (corr : Word) : Bytes :=
  leBytes 8 s.cad.beat.toNat ++ leBytes 4 corr.toNat ++ leBytes 1 (s.getF F.cadStretchInForce) ++ leBytes 1 s.cad.nextStretch ++
  leBytes 2 s.slot ++ (match s.cad.stretchAt with | some b => leBytes 8 b | none => leBytes 8 (2 ^ 64 - 1)) ++
  leBytes 1 (s.getF F.cadMasterEpoch) ++ leBytes 1 (bit (0 < s.cad.takeover) + 2 * bit s.cad.ext.isSome) ++ leBytes 6 0 ++
  (match s.cad.ext with | some e => leBytes 6 e.x ++ leBytes 1 e.e | none => leBytes 7 0) ++ leBytes 9 0

/-- MARK_SEND (R243): at a multiple of 512 the master sends a mark on every used port, ahead of every flit that has not started, and the rime CADENCE of its own beat. The
correction to departure and the header's DEST, which the spec does not give, are free. -/
def execMarkSend (s : State) : Host.Outcome State Fault Refusal :=
  if !s.cad.masterNow || !s.locked || s.cad.beat.toNat % 512 ≠ 0 then .next s
  else
    let b := s.markBytes (Config.freeWord s.free)
    let fs := linkFlits 4 0 (Config.freeNat (s.free + 1)) s.slot 0 s.win b
    let s := (s.freshN 2).each s.usedPorts (fun s p => s.modPort p (fun x => { x with txQ := fs ++ x.txQ }))
    .next ({ s with cad := { s.cad with takeover := s.cad.takeover - 1 } }.sendRime 0x18 0xFF 0x72 0
      [BitVec.ofNat 32 s.cad.beat.toNat, BitVec.ofNat 32 (s.cad.beat.toNat / 2 ^ 32), BitVec.ofNat 32 (s.getF F.cadStretchInForce)])

/-- In free cadence the largest local request is the stretch in force, and no change is pending (R156, R394). -/
def State.freeStretch (s : State) : State :=
  ({ s with cad := { s.cad with stretchAt := none, nextStretch := 0 } }.setF F.cadStretchInForce (s.getF F.cadStretchLocalReq)).setFlag
    F.cadStretchPending false

/-- The module leaves its domain and is failed (R244). -/
def State.leaveDomain (s : State) : State :=
  let s := ((s.setFlag F.cadCfgLocked false).freeStretch.setFlag F.cadAlignLeft true).setFlag F.cadAlignAligned false
  ({ s with cad := { s.cad with running := false, joining := false, alignedRun := 0 } }.logEv srcCtl (code14 14) 0xFF
    (detail (code14 14) [s.slot])).failModule 6

/-- The JOIN of this module (Table 8.11): for each of its pairs the one-way latency, half of the smallest round trip, and the largest
round trip of its hops. -/
def State.joinBytes (s : State) : Bytes :=
  let mine := s.firn.topo.pairs.filter (fun q => q.src = s.slot)
  let rt := 50 * s.usedPorts.foldl (fun m p => max m (s.getF (F.portLatRtt p))) 0
  leBytes 4 s.firn.topo.epoch ++ leBytes 1 (bit (s.flag F.cadAlignAligned) + 2 * bit (s.flag F.cadAlignPathMismatch)) ++ leBytes 1 0 ++
  leBytes 2 mine.length ++
  mine.flatMap (fun q => leBytes 2 q.dest ++ leBytes 2 0 ++ leBytes 4 (Sparse.get (fun _ => 0) s.cad.pairMin q.dest / 2) ++ leBytes 4 rt)

/-- The module has aligned in bring-up (R247): it locks its cadence, sends JOIN to both masters, and DOMAIN_JOIN is done. -/
def State.aligned (s : State) : State :=
  let s := { s with cad := { s.cad with joining := false } }.setFlag F.cadCfgLocked true
  (s.sendMgmtAll s.masters 0x0204 s.joinBytes).completeAll 0x0202 none stOK 0 []

/-- Where the module stands after a mark with a phase error of `err` picoseconds (R244). -/
def State.phase (s : State) (err : Int) : State :=
  let p := s.period
  let beats := err.natAbs / p
  let taps := max (-32768) (min 32767 (err / 50))
  let s := s.setF F.cadAlignError (taps % 65536).toNat
  let s := s.setF F.cadAlignErrMax (max (s.getF F.cadAlignErrMax) (min 255 beats))
  if err.natAbs ≤ 4 * p then
    let run := min 8 (s.cad.alignedRun + 1)
    let s := { s with cad := { s.cad with alignedRun := run } }
    if run < 8 then s
    else
      let s := s.setFlag F.cadAlignAligned true
      s.when s.cad.joining State.aligned
  else
    let s := { s with cad := { s.cad with alignedRun := 0 } }
    let s := (s.setFlag F.cadAlignAligned false).logEv srcCtl (code14 14) 0xFF (detail (code14 14) [beats])
    s.when (16 * p < err.natAbs && s.locked) State.leaveDomain

/-- The domain's count replaces the module's own (R159, R247): the windows of running programs and awaited starts are counted anew from
its current window. -/
def State.rebase (s : State) (b : BitVec 64) : State :=
  let w := s.winOf b.toNat
  let s := { s with cad := { s.cad with beat := b, edge := w, shift := 0, held := 0 } }
  let s := s.each (s.tiles.map Prod.fst) (fun s t => s.modTile t (fun x => { x with seq := { x.seq with win := w } }))
  s.each (s.parts.map Prod.fst) (fun s n => s.modPrt n (fun x => { x with startWin := x.startWin.map (fun _ => w + 2) }))

/-- MARK_RECEIVE (R243 to R246). -/
def execMarkReceive (m : Mark) (arrivalPs : Int) (s : State) : Host.Outcome State Fault Refusal :=
  if m.epoch.toNat < s.getF F.cadMasterEpoch || !(s.locked || s.cad.joining) then .next s
  else if s.cad.masterNow && m.epoch.toNat = s.getF F.cadMasterEpoch then .next s
  else
    let s := s.when s.cad.masterNow (fun s =>
      { s with cad := { s.cad with masterNow := false } }.logEv srcCtl (code14 14) 0xFF (detail (code14 14) [m.master.val]))
    let s := (((s.setF F.cadMasterEpoch m.epoch.toNat).setF F.cadMasterSlot m.master).addF F.cadMarksCount 1).sendRime 0x18 0xFF 0x72 0
      [BitVec.ofNat 32 m.beat.toNat, BitVec.ofNat 32 (m.beat.toNat / 2 ^ 32), BitVec.ofNat 32 m.now.toNat]
    let s := s.when (s.cad.joining && !s.locked) (fun s =>
      (s.rebase m.beat).setF F.cadStretchInForce m.now.toNat)
    let at_ := if m.at_.toNat = 2 ^ 64 - 1 then none else some m.at_.toNat
    let s := { s with cad := { s.cad with
        nextStretch := m.next.toNat, stretchAt := at_
        ext := if m.extend then some ⟨m.extWindow.toNat, m.extCount.toNat, 0⟩ else s.cad.ext } }.setFlag
      F.cadStretchPending at_.isSome
    let lat := if m.master.val = s.firn.topo.master then s.me.latMaster else s.me.latStandby
    .next (s.phase (arrivalPs - ((m.beat.toNat * s.period + m.corr.toNat + lat : Nat) : Int)))

/-- MARK_LOSS (R244). -/
def execMarkLoss (s : State) : Host.Outcome State Fault Refusal :=
  if s.locked && !s.cad.masterNow then .next s.leaveDomain else .next s

/-- REQ_RECEIVE (R245): both masters keep the requests; the one that sends marks announces a change. -/
def execReqReceive (slot : SlotN) (pct : Byte) (_beat : BitVec 64) (s : State) : Host.Outcome State Fault Refusal :=
  .next (s.keepReq slot pct.toNat)

/-- REQ_KEEPALIVE (R370). -/
def execReqKeepalive (s : State) : Host.Outcome State Fault Refusal := if s.locked then .next s.sendReq else .next s

/-- STRETCH_CHANGE (R157): at the announced beat the new stretch takes effect. -/
def execStretchChange (s : State) : Host.Outcome State Fault Refusal :=
  match s.cad.stretchAt with
  | some b =>
    if b ≤ s.cad.beat.toNat then
      .next (({ s with cad := { s.cad with stretchAt := none } }.setF F.cadStretchInForce s.cad.nextStretch).setFlag F.cadStretchPending
        false)
    else .next s
  | none => .next s

/-- CADENCE (R243): the nodes take the stretch of a received mark; its domain beat is the one the module follows (R157). -/
def execCadence (_beat : BitVec 64) (pct : Byte) (s : State) : Host.Outcome State Fault Refusal :=
  if s.locked then .next (s.setF F.cadStretchInForce pct.toNat) else .next s

/-- STRETCH (R213): the cadence generator takes a request; in locked cadence it goes to the masters, in free cadence it is in force. -/
def execStretch (pct : Byte) (s : State) : Host.Outcome State Fault Refusal :=
  let s := s.setF F.cadStretchLocalReq pct.toNat
  if s.locked then .next (s.reqTo pct.toNat) else .next (s.setF F.cadStretchInForce pct.toNat)

/-- MASTER_TAKEOVER (R246). -/
def execMasterTakeover (s : State) : Host.Outcome State Fault Refusal :=
  if !s.me.standbyMaster || s.cad.masterNow || !s.locked then .next s
  else
    let s := { s with cad := { s.cad with masterNow := true, takeover := 16 } }
    .next (((s.addF F.cadMasterEpoch 1).setF F.cadMasterSlot s.slot).logEv srcCtl (code14 14) 0xFF (detail (code14 14) [s.slot]))

/-! ## The running domain (R247, R371, R428) -/

/-- The standby module that takes the place of slot f (R371). -/
def State.standbyFor (s : State) (f : Nat) : Option Nat :=
  ((s.firn.topo.slots).find? (fun e => e.standby && e.group = (s.slotEntry f).group && e.present && e.slot ≠ f &&
    !s.cad.failedSlots.contains e.slot)).map (·.slot)

/-- The redirect of slot f to d will be in force from window y (R371). -/
def State.addRedirect (s : State) (y f d : Nat) : State :=
  { s with cad := { s.cad with redirects := s.cad.redirects.filter (fun r => r.2.1 ≠ f) ++ [(y, f, d)] } }

/-- The module is admitted (R428): its place is its own, or that of the group's standby module when its slot is served under a
redirect, which the master tells it by naming it among those left out. -/
def State.takeDomainRun (s : State) (leftOut : List Nat) : State :=
  let s := { s with
    cad := { s.cad with running := true, leftOut := leftOut }
    pwr := { s.pwr with admitted := true, failedModule := false, thawing := false } }.indicate 0 0 false
  let s := s.each leftOut (fun s f => match s.standbyFor f with
    | some d => s.addRedirect s.win f d
    | none => s)
  if leftOut.contains s.slot then
    let s := match s.standbySlot with
      | some d => (((s.setFlag (F.glbRedirectValid 0) true).setF (F.glbRedirectFrom 0) s.slot).setF (F.glbRedirectTo 0) d)
      | none => s
    s.completeAll 0x0202 none stOK 1 []
  else s

/-- DOMAIN_RUN goes to every other module of the domain, or to one that joined late. -/
def State.sendDomainRun (s : State) (to_ : List Nat) : State :=
  s.sendMgmtAll to_ 0x0205 (leBytes 8 s.cad.beat.toNat ++ leBytes 2 s.cad.leftOut.length ++ s.cad.leftOut.flatMap (leBytes 2))

/-- Once every slot that is expected has joined or is left out, the domain runs (R247, step 5). -/
def State.checkRun (s : State) : State :=
  if s.cad.masterNow && !s.cad.running && s.others.all (fun d => s.cad.joined.contains d || s.cad.leftOut.contains d) then
    (s.sendDomainRun s.others).takeDomainRun s.cad.leftOut
  else s

/-! ## Bring-up (R247) -/

/-- Measure every pair of this module end to end with 64 ECHO_E2E messages (R247, step 2). -/
def State.measurePairs (s : State) : State :=
  let mine := s.firn.topo.pairs.filter (fun q => q.src = s.slot)
  let s := { s with cad := { s.cad with pairMin := [], pairCnt := [] } }
  s.each mine (fun s q => (s.each (List.range 64) (fun s i =>
    s.sendMgmt q.dest 0x0202 (leBytes 8 (Config.freeNat (s.free + i))))).freshN 64)

/-- The cadence master starts the domain's count (R247, step 3). -/
def State.startMaster (s : State) : State :=
  let s := s.rebase 0
  let s := { s with cad := { s.cad with masterNow := true, joining := false, joined := [s.slot], leftOut := [], running := false } }
  (((s.setFlag F.cadCfgLocked true).setF F.cadMasterSlot s.slot).setFlag F.cadAlignAligned true).completeAll 0x0202 none stOK 0 []

/-- Join with the table in force (R241, R247): measure, and as the master start the count. -/
def State.joinNow (s : State) : State :=
  let s := { s with cad := { s.cad with fetch := none } }.measurePairs
  if s.me.master then s.startMaster.checkRun else { s with cad := { s.cad with joining := true, alignedRun := 0 } }

/-- Measure a port's hop with 64 ECHOs, of which the smallest is kept (R247, step 2). -/
def State.measureHop (s : State) (p : Nat) : State :=
  (s.modPort p (fun x => { x with
    ecMin := none, ecCount := 0
    control := x.control ++ (List.range 64).map (fun i => (2, leBytes 8 (Config.freeNat (s.free + i)))) })).freshN 64

/-- The ports that have peers are powered and trained, those that are up stay up and exchange INIT and measure their hop again, and those
without a peer lose their power (R218, R247, steps 1 and 2). -/
def State.trainPorts (s : State) : State :=
  s.each (List.range 16) (fun s p =>
    if s.flag (F.portCfgEnable p) && s.portUp p then (s.control p 0 s.initBytes).measureHop p
    else if s.flag (F.portCfgEnable p) then (s.domainForce (48 + p) 2).train p false else (s.setF (F.portStatusState p) 0).domainForce (48 + p) 0)

/-- The module stays out of every domain, in free cadence with every port unpowered (R240). -/
def State.stayOut (s : State) : State :=
  (s.each (List.range 16) (fun s p => (s.setF (F.portStatusState p) 0).domainForce (48 + p) 0)).setFlag F.cadCfgLocked false

/-- Some port that has a peer still trains or deskews. -/
def State.portsTraining (s : State) : Bool :=
  (List.range 16).any (fun p => s.flag (F.portCfgEnable p) && (s.getF (F.portStatusState p) = 1 || s.getF (F.portStatusState p) = 2))

/-- Bring-up goes on once the ports have trained (R241, R247): the bridge measures and joins, another module asks the bridge for a newer
table. -/
def State.portsTrained (s : State) : State :=
  if !s.cad.waitPorts || s.portsTraining then s
  else
    let s := { s with cad := { s.cad with waitPorts := false } }
    if s.me.bridge then s.joinNow
    else
      { s with cad := { s.cad with fetch := some (s.firn.topo.epoch, 0, []) } }.sendMgmt s.bridgeSlot 0x0200
        (leBytes 4 s.firn.topo.epoch ++ leBytes 4 0 ++ leBytes 4 0)

/-- Domain bring-up (R240, R241, R247). A module whose table is not valid stays out. -/
def State.bringUp (s : State) : State :=
  if !s.topoOk then s.stayOut
  else { s.trainPorts with cad := { s.trainPorts.cad with waitPorts := true } }.portsTrained

/-- INIT (R225, R226, R247): a peer of the same N and L brings the port up; the hop is then measured with 64 ECHOs. At a port that is up it
comes from a peer that has reset its port, which DRAIN announced (R256): numbers, credits and retry buffer start anew and INIT answers it;
or from one that joins again, and only N and L are compared. -/
def execInit (p : PortN) (slot : SlotN) (pools : List Nat) (n l256 : Nat) (s : State) : Host.Outcome State Fault Refusal :=
  let up := s.portUp p
  if s.getF (F.portStatusState p) ≠ 2 && !up then .next s
  else if n ≠ s.getF F.cadCfgPeriod ∨ l256 ≠ s.getF F.cadCfgWindow then
    .next ((s.setF (F.portStatusState p) 0).logEv (srcPort p) (code14 14) 0xFF slot).portsTrained
  else if up && !(s.port p).drained then .next s
  else
    let s := s.when up (fun s => s.control p 0 s.initBytes)
    let s := s.modPort p (fun x => { (x.fresh) with txQ := x.retry ++ x.txQ })
    let s := (List.range 6).foldl (fun s k => s.setF (F.portCredDepth p k) (pools.getD k 0)) s
    let s := ((s.setF (F.portStatusState p) 3).showPort p).measureHop p
    .next (s.when ((s.port p).lanesOn ≠ (s.port p).lanesTold) (fun s => s.laneChanged p)).portsTrained

/-- A domain is held off (R385). -/
def State.mustLock (s : State) (k : Nat) : Bool :=
  if k < 48 then s.firn.cfg.bad.contains (2 * k) && s.firn.cfg.bad.contains (2 * k + 1)
  else if k < 64 then !s.flag (F.portCfgEnable (k - 48))
  else k = 71 && !s.me.bridge && !s.me.pcieWired

/-- The LOCKED bits of the power domains (R385). -/
def State.lockDomains (s : State) : State := s.each (List.range 72) (fun s k => s.setFlag (F.pwrDomLocked k) (s.mustLock k))

/-- The PCIe endpoint goes on or off with the bridge role (R15). -/
def State.endpointByRole (s : State) : State :=
  if s.me.bridge && !s.domOn 71 then (s.domainForce 71 2).bridgeOn
  else if !s.me.bridge && s.getF (F.pwrDomState 71) ≠ 0 then s.domainForce 71 0
  else s

/-- TOPO_QUERY (R241): the bridge answers with a part of the table in force. -/
def execTopoQuery (slot : SlotN) (_epoch : Word) (off max : Nat) (s : State) : Host.Outcome State Fault Refusal :=
  if !s.me.bridge then .next s
  else
    let t := s.firn.topo
    .next (s.sendMgmt slot 0x0201 (leBytes 4 t.epoch ++ leBytes 4 t.bytes.length ++ leBytes 4 off ++ leBytes 4 0 ++
      (t.bytes.drop off).take (min max 61000)))

/-- The whole newer table has arrived (R241, steps 2 to 4): ports and endpoint follow it; one that fails its verification leaves the
module out of every domain (R240). -/
def State.newTopo (s : State) (b : Bytes) : State :=
  let q := s.judgeTopo b
  match q.2 with
  | some t => ((s.useTopo t).lockDomains.endpointByRole).bringUp
  | none => ({ s with cad := { s.cad with topoFault := some q.1 } }.stayOut).completeAll 0x0202 none q.1 0 []

/-- TOPO_INFO (R241). -/
def execTopoInfo (epoch : Word) (total off : Nat) (data : Bytes) (s : State) : Host.Outcome State Fault Refusal :=
  match s.cad.fetch with
  | none => .next s
  | some (_, _, old) =>
    if epoch.toNat ≤ s.firn.topo.epoch then .next s.joinNow
    else
      let b := putPiece old off data
      if b.length < total ∨ data.isEmpty = true then
        .next ({ s with cad := { s.cad with fetch := some (epoch.toNat, total, b) } }.sendMgmt s.bridgeSlot 0x0200
          (leBytes 4 s.firn.topo.epoch ++ leBytes 4 b.length ++ leBytes 4 61000))
      else .next ({ s with cad := { s.cad with fetch := none } }.newTopo b)

/-- TOPO_INFO_TIMEOUT (R241). -/
def execTopoInfoTimeout (s : State) : Host.Outcome State Fault Refusal :=
  if s.cad.fetch.isSome then .next s.joinNow else .next s

/-- ECHO_E2E (R247). -/
def execEchoE2e (slot : SlotN) (count resPs : BitVec 64) (s : State) : Host.Outcome State Fault Refusal :=
  .next (s.sendMgmt slot 0x0203 (leBytes 8 count.toNat ++ leBytes 8 resPs.toNat))

/-- ECHO_E2E_REPLY (R247, R248): counts in taps of 50 ps; the smallest round trip of 64 is kept, and half of it is the path's latency. -/
def execEchoE2eReply (slot : SlotN) (count resPs arrival : BitVec 64) (s : State) : Host.Outcome State Fault Refusal :=
  let rt := 50 * (arrival.toNat - count.toNat) - resPs.toNat
  let n := Sparse.get (fun _ => 0) s.cad.pairCnt slot.val + 1
  let m := if n = 1 then rt else min rt (Sparse.get (fun _ => 0) s.cad.pairMin slot.val)
  let s := { s with cad := { s.cad with
    pairMin := Sparse.set (fun _ => 0) s.cad.pairMin slot.val m, pairCnt := Sparse.set (fun _ => 0) s.cad.pairCnt slot.val n } }
  match s.firn.topo.pairs.find? (fun q => q.src = s.slot && q.dest = slot.val) with
  | some q => .next (s.when (n = 64 && q.tm + 100000 < m / 2) (fun s => s.pathMismatch srcCtl slot.val (m / 2)))
  | none => .next s

/-- JOIN (R247): at the master; one that arrives while the domain runs is answered at once. -/
def execJoin (slot : SlotN) (_epoch : Word) (_aligned _mismatch : Bool) (s : State) : Host.Outcome State Fault Refusal :=
  if !(s.me.master || s.me.standbyMaster) then .next s
  else
    let s := { s with cad := { s.cad with joined := (slot.val :: s.cad.joined).eraseDups } }
    if s.cad.masterNow && s.cad.running then .next (s.sendDomainRun [slot.val]) else .next s.checkRun

/-- DOMAIN_RUN (R247, R428). -/
def execDomainRun (_beat : BitVec 64) (leftOut : List Nat) (s : State) : Host.Outcome State Fault Refusal :=
  .next (s.takeDomainRun leftOut)

/-! ## Extensions and lanes (R234, R365 to R368) -/

/-- LATE (R365): firmware sends one class-4 LATE to both masters for a window, with the module's largest lag at the deadline check and
whether the overrun was supply-caused. -/
def execLate (t : TileN) (window : Word) (s : State) : Host.Outcome State Fault Refusal :=
  let w := s.win / 2 ^ 32 * 2 ^ 32 + window.toNat
  if !s.locked || s.cad.lateSent.contains w then .next s
  else
    let now := ((List.range 96).foldl (fun m k => max m (s.getF (F.tileSeqLagNow k))) (s.getF (F.tileSeqLagNow t)), s.supplyActive)
    let (lag, supply) := ((s.cad.lateNotes.find? (fun e => e.1 = w)).map Prod.snd).getD now
    let s := { s with cad := { s.cad with lateSent := w :: s.cad.lateSent } }
    .next (s.each s.masters (fun s d =>
      s.sendMsg { cls := 4, dest := d, stream := 2, payload := leBytes 8 w ++ leBytes 4 lag ++ leBytes 1 (bit supply) ++ leBytes 3 0 }))

/-- The first window of an extension announced now (R366), by the slots' latencies to the master that announces it. -/
def State.extWindow (s : State) : Nat :=
  let mark := (s.cad.beat.toNat + 512) / 512 * 512
  let far := s.firn.topo.slots.foldl (fun m e => max m (if s.slot = s.firn.topo.master then e.latMaster else e.latStandby)) 0
  let b := mark + 1024 + (far + s.period - 1) / s.period
  (b + s.winLen - 1) / s.winLen

/-- The windows that a lag asks for (R366). -/
def State.extCount (s : State) (lag : Nat) : Nat := max 1 (min 4 ((lag + s.winLen - 1) / s.winLen))

/-- LANE_REPORT (R234): the master announces the variant for a port's new width. -/
def execLaneReport (slot : SlotN) (p : PortN) (mask : BitVec 4) (_beat : BitVec 64) (s : State) : Host.Outcome State Fault Refusal :=
  if !s.cad.masterNow then .next s else .next (s.announceVariant slot p mask.toNat)

/-- VARIANT (R234): VARIANT_NEXT is written in the window before. -/
def execVariant (n : PartN) (v : Fin 4) (window : BitVec 64) (s : State) : Host.Outcome State Fault Refusal :=
  if s.win + 1 = window.toNat then .next (s.setF (F.partProgCtrlVariantNext n) v)
  else .next (s.modPrt n (fun x => { x with variantAt := some (window.toNat, v.val) }))

/-! ## Other messages (R213, R255) -/

/-- FAULT (R213). -/
def execFault (src : Byte) (n : PartN) (code dtl : BitVec 16) (s : State) : Host.Outcome State Fault Refusal :=
  .next (s.logEv (src.toNat * 256 + 0xFF) code.toNat n dtl.toNat)

/-- EVENT (R213): an information entry. -/
def execEvent (src : Byte) (n : PartN) (code : BitVec 16) (s : State) : Host.Outcome State Fault Refusal :=
  .next (s.logEv (src.toNat * 256 + 0xFF) 0x1502 n code.toNat)

/-- RIME_UNKNOWN_TYPE (R213). -/
def execRimeUnknownType (src : Byte) (type : BitVec 6) (s : State) : Host.Outcome State Fault Refusal :=
  .next ((s.addF F.rimeStatusDiscards 1).logEv (src.toNat * 256 + 0xFF) (code14 7) 0xFF type.toNat)

/-- MANAGEMENT_UNKNOWN_SUBTYPE (R255). -/
def execManagementUnknownSubtype (slot : SlotN) (subtype : BitVec 16) (s : State) : Host.Outcome State Fault Refusal :=
  .next (s.logEv srcCtl (code14 7) 0xFF (detail (code14 7) [slot.val, subtype.toNat]))

/-! ## Commands (Table 10.4) -/

/-- What a command that needs the topology replies on a module without a valid table (R240). -/
def State.topoStatus (s : State) : Nat :=
  match s.cad.topoFault with
  | some e => e
  | none => if s.topoSigned s.firn.topo.bytes then stBadParam else stSignature

/-- TOPO_GET (R300). -/
def execTopoGet (h : CmdHdr) (s : State) : Host.Outcome State Fault Refusal :=
  .next (s.command h false true true true true s.firn.topo.bytes.length (fun s =>
    if s.topoOk then s.done h true stOK 0 s.firn.topo.bytes else s.done h true s.topoStatus 0 []))

/-- TOPO_PUT (R300): the last piece is checked, and the table comes into force at the next module reset. -/
def execTopoPut (h : CmdHdr) (off total : Word) (data : Bytes) (s : State) : Host.Outcome State Fault Refusal :=
  .next (s.command h false true (off.toNat + data.length ≤ total.toNat) true true 0 (fun s =>
    let b := putPiece (if off = 0 then [] else s.firn.topoCollect) off.toNat data
    let s := { s with firn := { s.firn with topoCollect := b } }
    if off.toNat + data.length < total.toNat then s.done h true stOK 0 []
    else
      let q := s.judgeTopo b
      let s := { s with firn := { s.firn with topoCollect := [] } }
      match q.2 with
      | none => s.done h true q.1 0 []
      | some t =>
        if t.epoch ≤ s.firn.topo.epoch then s.done h true stBadParam 0 []
        else { s with firn := { s.firn with topoNext := some t } }.done h true stOK 0 []))

/-- DOMAIN_JOIN (R247): replies when aligned, or when left out. -/
def execDomainJoin (h : CmdHdr) (s : State) : Host.Outcome State Fault Refusal :=
  .next (s.command h false true true (!s.locked && !s.flag F.secDbgOpen) true 0 (fun s =>
    if s.topoOk then (s.outstand h 0x0202 0).bringUp else s.done h true s.topoStatus 0 []))

/-- DOMAIN_LEAVE (R300): the ports stay up. -/
def execDomainLeave (h : CmdHdr) (s : State) : Host.Outcome State Fault Refusal :=
  .next (s.command h false true true (!s.anyRunning) true 0 (fun s =>
    ({ s with cad := { s.cad with running := false, joining := false, masterNow := false } }.setFlag F.cadCfgLocked false).freeStretch.done h true
      stOK 0 []))

end Sys2Proof.Machine
end

