-- ==== Sys2Proof/Machine/Counters.lean ====
section
/-! DEFINITION. The performance counters (chapter 17): which events a counter may be set to, latches, shadows, freezing, modes, and the
classification of a window's unit-beats. -/

namespace Sys2Proof.Machine

/-! ## Events (Table 17.1) -/

/-- The SEL range of an event code (0 where it has no SEL column) and whether it carries a layer slot; none for a code not in the
table. -/
def eventInfo (code : Nat) : Option (Nat × Bool) :=
  if code = 0x000 ∨ code = 0x001 ∨ code = 0x002 then some (0, false)
  else if 0x010 ≤ code ∧ code ≤ 0x014 then some (128, true)
  else if code = 0x015 then some (128, false)
  else if code = 0x016 then some (128, true)
  else if code = 0x020 then some (0, true)
  else if code = 0x021 ∨ code = 0x022 ∨ code = 0x030 then some (0, false)
  else if code = 0x031 ∨ code = 0x032 then some (0, true)
  else if code = 0x040 ∨ (0x050 ≤ code ∧ code ≤ 0x053) then some (0, false)
  else if code = 0x060 then some (16, false)
  else if code = 0x061 then some (32, false)
  else if (0x070 ≤ code ∧ code ≤ 0x073) ∨ code = 0x080 then some (0, false)
  else none

/-- An EVENT word is accepted (R457). Code 0 counts nothing. -/
def eventOk (w : Word) : Bool :=
  match eventInfo (bitsOf w 11 0) with
  | none => false
  | some (n, ls) => (bitsOf w 19 12 = 0xFF || bitsOf w 19 12 < n || (bitsOf w 11 0 = 0 && bitsOf w 19 12 = 0)) && (!w.getLsbD 26 || ls)

/-! ## Latches (R464) -/

/-- A read of a LO register latches the rest of its counter. -/
def State.ctrLatch (s : State) (r : Reg) : State :=
  let v := (s.ctrGet r.addr).toNat
  let hi := BitVec.ofNat 32 (v / 2 ^ 32)
  let pair := fun (s : State) (lo hiR : Reg) =>
    let w := (s.ctrGet lo.addr).toNat
    (s.setR lo (BitVec.ofNat 32 w)).setR hiR (BitVec.ofNat 32 (w / 2 ^ 32 % 2 ^ 16))
  match r.kind with
  | .ctrPcLo =>
    (s.setR (R.ctrPcHi r.i r.k) (hi &&& 0xFFFF)).when (s.service && r.k % 2 = 0) (fun s =>
      pair s (R.ctrPcLo r.i (r.k + 1)) (R.ctrPcHi r.i (r.k + 1)))
  | .ctrPcLoSh =>
    (s.setR (R.ctrPcHiSh r.i r.k) (hi &&& 0xFFFF)).when (s.service && r.k % 2 = 0) (fun s =>
      pair s (R.ctrPcLoSh r.i (r.k + 1)) (R.ctrPcHiSh r.i (r.k + 1)))
  | .ctrTdLo => s.setR (R.ctrTdHi r.i r.j r.k) hi
  | .ctrTdLoSh => s.setR (R.ctrTdHiSh r.i r.j r.k) hi
  | .ctrPortLo => s.setR (R.ctrPortHi r.i r.j r.k) hi
  | .ctrPortLoSh => s.setR (R.ctrPortHiSh r.i r.j r.k) hi
  | .ctrSeamLo => s.setR (R.ctrSeamHi r.i r.j r.k) hi
  | .ctrSeamLoSh => s.setR (R.ctrSeamHiSh r.i r.j r.k) hi
  | .ctrSnapBeatLo => s.setR R.ctrSnapBeatHi hi
  | _ => s

/-- The register is a counter's LO register. -/
def Reg.isCtrLo (r : Reg) : Bool :=
  match r.kind with
  | .ctrPcLo | .ctrPcLoSh | .ctrTdLo | .ctrTdLoSh | .ctrPortLo | .ctrPortLoSh | .ctrSeamLo | .ctrSeamLoSh | .ctrSnapBeatLo => true
  | _ => false

/-- What a LO register reads: the low word of its counter; of the odd counter of a service-mode pair, the word latched with the even
one. -/
def State.ctrLoWord (s : State) (r : Reg) : Word :=
  if s.service && (r.kind = .ctrPcLo || r.kind = .ctrPcLoSh) && r.k % 2 = 1 then s.getR r
  else BitVec.ofNat 32 (s.ctrGet r.addr).toNat

/-- COUNTER_LO_READ (R464). -/
def execCounterLoRead (addr : Word) (s : State) : Host.Outcome State Fault Refusal :=
  match Reg.ofAddr addr.toNat with
  | some r => .next (if r.isCtrLo then s.ctrLatch r else s)
  | none => .next s

/-! ## Shadows, freezing and modes (R455, R462) -/

/-- The shadow of a counter's LO register, or of another register that a snapshot copies. -/
def shadowReg (r : Reg) : Option Reg :=
  match r.kind with
  | .ctrPcLo => some (R.ctrPcLoSh r.i r.k)
  | .ctrTdLo => some (R.ctrTdLoSh r.i r.j r.k)
  | .ctrPortLo => some (R.ctrPortLoSh r.i r.j r.k)
  | .ctrSeamLo => some (R.ctrSeamLoSh r.i r.j r.k)
  | .ctrTileStatus => some (R.ctrTileStatusSh r.i)
  | .ctrPortWin => some (R.ctrPortWinSh r.i r.j r.k)
  | .ctrSeamWin => some (R.ctrSeamWinSh r.i r.j r.k)
  | _ => none

/-- The register holds a shadow. -/
def Reg.isShadow (r : Reg) : Bool :=
  match r.kind with
  | .ctrPcLoSh | .ctrTdLoSh | .ctrPortLoSh | .ctrSeamLoSh | .ctrTileStatusSh | .ctrPortWinSh | .ctrSeamWinSh => true
  | _ => false

/-- An address passes a test of its register. -/
def regAtIs (p : Reg → Bool) (a : Nat) : Bool := match Reg.ofAddr a with | some r => p r | none => false

/-- Copy every counter, OVF bit and WIN register into its shadow, with the apply beat and the cause. -/
def State.snapshotAt (s : State) (b : Nat) (cause : Bool) : State :=
  let s0 := { s with
    ctr := s.ctr.filter (fun e => !regAtIs Reg.isShadow e.1)
    regs := s.regs.filter (fun e => !regAtIs Reg.isShadow e.1) }
  let s1 := s0.each s0.ctr (fun x e => match (Reg.ofAddr e.1).bind shadowReg with
    | some r => x.ctrSet r.addr e.2.toNat
    | none => x)
  let s2 := s1.each s0.regs (fun x e => match (Reg.ofAddr e.1).bind shadowReg with
    | some r => x.setR r e.2
    | none => x)
  (s2.ctrSet R.ctrSnapBeatLo.addr b).setFlag F.ctrSnapCauseCause cause

/-- Every counter and every OVF bit is cleared (R455). -/
def State.clearCounters (s : State) : State :=
  { s with
    ctr := s.ctr.filter (fun e => regAtIs (fun r => r.isShadow || r.kind = RegKind.ctrSnapBeatLo) e.1)
    regs := s.regs.filter (fun e => !regAtIs (fun r => decide (r.kind = RegKind.ctrTileStatus)) e.1) }.setFlag F.ctrCtrlPortOvf false

/-- The counting mode that applies (R453): 2 test, 1 bring-up, 3 recovery, 0 service. A thaw from Deep is recovery and no bring-up. -/
def State.ctrModeNow (s : State) : Nat :=
  if s.flag F.ctrCtrlTest then 2
  else if !s.pwr.admitted && !s.pwr.thawing then 1
  else if s.getF F.glbHoldParts ≠ 0 || s.pwr.thawing then 3
  else 0

/-- At a window boundary a change of mode takes effect, unless the counters are frozen (R455). -/
def State.ctrModeStep (s : State) : State :=
  if s.frozen || s.getF F.ctrCtrlMode = s.ctrModeNow then s
  else ((s.snapshotAt s.cad.beat.toNat true).clearCounters).setF F.ctrCtrlMode s.ctrModeNow

/-- The effect of FREEZE (1), SNAPSHOT (2) and UNFREEZE (3) at apply beat b. -/
def State.ctrEffect (s : State) (type b : Nat) : State :=
  if type = 1 then s.setFlag F.ctrSnapCauseFrozen true
  else if type = 2 then s.snapshotAt b false
  else s.setFlag F.ctrSnapCauseFrozen false

/-- A rime message with an apply beat arrives; every node keeps it until that beat (R214). -/
def State.rimeWait (s : State) (b : BitVec 64) (m : RimeMsg) : State :=
  if s.rime.contains (b, m) then s else { s with rime := s.rime ++ [(b, m)] }

/-- FREEZE (R462). -/
def execFreeze (b : BitVec 64) (s : State) : Host.Outcome State Fault Refusal := .next (s.rimeWait b ⟨0x01, 0xFF, 0x72, 0, []⟩)

/-- SNAPSHOT (R462). -/
def execSnapshot (b : BitVec 64) (s : State) : Host.Outcome State Fault Refusal := .next (s.rimeWait b ⟨0x02, 0xFF, 0x72, 0, []⟩)

/-- UNFREEZE (R462). -/
def execUnfreeze (b : BitVec 64) (s : State) : Host.Outcome State Fault Refusal := .next (s.rimeWait b ⟨0x03, 0xFF, 0x72, 0, []⟩)

/-- The rime type of a CTR_SNAP kind: snapshot, freeze, unfreeze. -/
def snapType (kind : Nat) : Nat := match kind with | 0 => 2 | 1 => 1 | _ => 3

/-- CTR_APPLY (R463): the module applies it at its own release of the beat. -/
def execCtrApply (kind : Fin 3) (b : BitVec 64) (s : State) : Host.Outcome State Fault Refusal :=
  .next (s.broadcastAt (snapType kind) 0 0xFF b.toNat)

/-- The first window boundary at least two windows ahead (R463). -/
def State.snapAhead (s : State) : Nat := (s.cad.beat.toNat + 3 * s.winLen - 1) / s.winLen * s.winLen

/-- CTR_SNAP (R463): module-wide 128 beats ahead, domain-wide at the first window boundary at least two windows ahead. -/
def execCtrSnap (h : CmdHdr) (scope kind : Byte) (s : State) : Host.Outcome State Fault Refusal :=
  .next (s.command h false true (scope.toNat ≤ 1 && kind.toNat ≤ 2) (scope = 0 || s.locked) true 0 (fun s =>
    let b := if scope = 0 then s.applyAhead else s.snapAhead
    let s := s.when (scope ≠ 0) (fun s => s.sendMgmtAll s.others 0x0605 (leBytes 1 kind.toNat ++ leBytes 7 0 ++ leBytes 8 b))
    (s.broadcastAt (snapType kind.toNat) 0 0xFF b).done h true stOK (b % 2 ^ 32) []))

/-- CTR_CFG (R457). -/
def execCtrCfg (h : CmdHdr) (tile counter : Byte) (event : Word) (s : State) : Host.Outcome State Fault Refusal :=
  let t := tile.toNat
  let k := counter.toNat
  let place := t < 96 && k < 16
  .next (s.command h true false (place && eventOk event) (s.ownerOf t = h.part.val && !s.absent t) true 0 (fun s =>
    (s.setR (R.ctrPcCfg t k) (event &&& 0x7FFFFFF)).done h false stOK 0 []))

/-! ## Window ends (R458 to R461) -/

/-- Classify the unit-beats of a tile's window. -/
def State.classify (s : State) (t : Nat) : State :=
  let x := s.tile t
  let get := fun (m : Sparse Nat) (u : Nat) => Sparse.get (fun _ => 0) m u
  let s := s.each (x.sched.map Prod.fst) (fun s u =>
    let n := get x.sched u
    let w := min n (get x.wasted u)
    let f := min (n - w) (get x.front u)
    let b := min (n - w - f) (get x.back u)
    (((s.tdAdd t u 0 (n - w - f - b)).tdAdd t u 1 w).tdAdd t u 2 f).tdAdd t u 3 b)
  s.modTile t (fun x => { x with sched := [], wasted := [], front := [], back := [] })

/-- Latch the bytes of a window into WIN and add them to COUNT: port p, class c and direction d. -/
def State.latchPort (s : State) (p c d : Nat) : State :=
  let n := Sparse.get (fun _ => 0) (s.port p).winBytes (2 * c + d)
  ((s.setR (R.ctrPortWin p (c - 1) d) (BitVec.ofNat 32 n))).when (n ≠ 0) (fun s =>
    s.fixAdd (R.ctrPortLo p (c - 1) d).addr n (fun s => s.setFlag F.ctrCtrlPortOvf true))

/-- See `State.latchPort`: seam bundle r, channel v, direction d. -/
def State.latchSeam (s : State) (r v d : Nat) : State :=
  let n := Sparse.get (fun _ => 0) s.seamBytes (8 * r + 2 * v + d)
  ((s.setR (R.ctrSeamWin r v d) (BitVec.ofNat 32 n))).when (n ≠ 0) (fun s =>
    s.fixAdd (R.ctrSeamLo r v d).addr n (fun s => s.setFlag F.ctrCtrlPortOvf true))

/-- Some bytes were counted in the window, or the last window's are still shown. -/
def State.portCounts (s : State) (p : Nat) : List (Nat × Nat) :=
  (List.range 16).filterMap (fun i =>
    let c := i / 2 + 1
    let d := i % 2
    if Sparse.get (fun _ => 0) (s.port p).winBytes (2 * c + d) ≠ 0 ∨ s.getR (R.ctrPortWin p (c - 1) d) ≠ 0 then some (c, d) else none)

/-- The counters at a window end: nothing while they are frozen. -/
def State.ctrWindow (s : State) : State :=
  let s := if s.frozen then
      s.each (s.tiles.map Prod.fst) (fun s t => s.modTile t (fun x => { x with sched := [], wasted := [], front := [], back := [] }))
    else
      let s := s.each (s.tiles.map Prod.fst) (fun s t => s.classify t)
      let s := s.each (List.range 16) (fun s p => s.each (s.portCounts p) (fun s e => s.latchPort p e.1 e.2))
      s.each (List.range 48) (fun s i =>
        let r := i / 8
        let v := i % 8 / 2
        let d := i % 2
        if Sparse.get (fun _ => 0) s.seamBytes i ≠ 0 ∨ s.getR (R.ctrSeamWin r v d) ≠ 0 then s.latchSeam r v d else s)
  let s := s.each (s.ports.map Prod.fst) (fun s p => s.modPort p (fun x => { x with winBytes := [] }))
  { s with seamBytes := [] }.ctrModeStep

end Sys2Proof.Machine
end

