-- ==== Sys2Proof/Machine/Logging.lean ====
section
/-! DEFINITION. The event log and the moulin: LOG_REPORT, LOG_WRITE, MOULIN_BATCH, SPILL_DRAIN, LOG_BATCH, MOULIN_CFG, LOG_READ and
NV_READ (R375 to R382). -/

namespace Sys2Proof.Machine

/-- Put an entry into the log ring with the next SEQ (R377): a full ring loses its oldest entry. -/
def State.logAppend (s : State) (e : Entry) : State :=
  let e := { e with seq := s.log.seq }
  let full := 65536 ≤ s.log.ring.length
  let off := s.getF F.logMoulinMode = 0
  let s := { s with log := { s.log with
    ring := (if full then s.log.ring.drop 1 else s.log.ring) ++ [e], seq := s.log.seq + 1, lastWritten := some e } }
  let s := s.when (full && off) (fun s => s.setFlag F.logStatusWrapped true)
  s.setF F.logFillUndrained (min 65536 (s.getF F.logFillUndrained + 1))

/-- A summary entry as it is written (Table 13.6): FLAGS bit 0, DETAIL the count and the low 32 bits of the last beat. -/
def Summary.entry (x : Summary) : Entry :=
  { x.first with flags := x.first.flags ||| 1, detail := BitVec.ofNat 64 (x.count * 2 ^ 32 + x.last.toNat % 2 ^ 32) }

/-- LOG_REPORT (R377, R378). -/
def execLogReport (e : Entry) (s : State) : Host.Outcome State Fault Refusal := .next ((s.countCode e.code).ingest e)

/-- Writing stops: the moulin is enabled and the ring is full of entries not yet drained (R377). -/
def State.logStalled (s : State) : Bool := s.getF F.logMoulinMode ≠ 0 && 65536 ≤ s.getF F.logFillUndrained

/-- LOG_WRITE (R377, R378): one entry a beat. With 64 entries or fewer in the ingest queue, summary entries alternate with queue
entries, and once the summary table is empty a count of lost reports takes the place of the next queue entry. -/
def execLogWrite (s : State) : Host.Outcome State Fault Refusal :=
  .next (
    if s.logStalled then s
    else
      let few := decide (s.log.ingest.length ≤ 64)
      let fromQueue (s : State) : State :=
        match s.log.ingest with
        | [] => s
        | e :: rest => { s with log := { s.log with ingest := rest, alternate := false } }.logAppend e
      match s.log.summary with
      | x :: rest =>
        if few && (!s.log.alternate || s.log.ingest.isEmpty) then
          { s with log := { s.log with summary := rest, alternate := true } }.logAppend x.entry
        else fromQueue s
      | [] =>
        if few && 0 < s.getF F.logLostLost then
          (s.logAppend ⟨s.cad.beat, Config.subns s.cad.beat.toNat, srcHk, 0x1701, 0xFF, 8, 0, 0,
            BitVec.ofNat 64 (s.getF F.logLostLost)⟩).setF F.logLostLost 0
        else fromQueue s)

/-- The undrained entries, oldest first. -/
def State.undrained (s : State) : List Entry := s.log.ring.drop (s.log.ring.length - s.getF F.logFillUndrained)

/-- n more entries count as drained. -/
def State.drained (s : State) (n : Nat) : State := s.setF F.logFillUndrained (s.getF F.logFillUndrained - n)

/-- The size of the host moulin ring (R381). -/
def State.moulinRing (s : State) : Nat := 2 ^ min 16 (max 6 (s.getF (F.moulinSizeLog2 0)))

/-- The bridge writes a record into the host moulin ring when TAIL + 1 is not HEAD (R379, R381); answers whether it did. -/
def State.moulinRecord (s : State) (slot : Nat) (e : Entry) : State × Bool :=
  let tail := s.getF (F.moulinTailTail 0)
  let next := (tail + 1) % s.moulinRing
  if next = s.getF (F.moulinHeadHead 0) % s.moulinRing then (s, false)
  else
    let base := (s.getR (R.moulinBaseLo 0)).toNat + (s.getR (R.moulinBaseHi 0)).toNat * 2 ^ 32
    ({ s with hostOut := s.hostOut ++ [(base + 64 * tail, e.bytes ++ leBytes 2 slot ++ leBytes 30 0)] }.setF
      (F.moulinTailTail 0) next, true)

/-- Write records until the ring is full; answers how many were written. -/
def State.moulinRecords (s : State) : List (Nat × Entry) → State × Nat
  | [] => (s, 0)
  | x :: xs =>
    match s.moulinRecord x.1 x.2 with
    | (s', true) => let p := s'.moulinRecords xs; (p.1, p.2 + 1)
    | (s', false) => (s', 0)

/-- This module's PCIe link carries the host path. -/
def State.isBridge (s : State) : Bool := s.me.bridge && s.flag F.glbBridgeEnabled

/-- Send entries toward the host: into the host ring on the bridge, as LOG_BATCH on any other module (R379); answers how many. -/
def State.moulinHost (s : State) (es : List Entry) : State × Nat :=
  if s.isBridge then
    if s.bridge.linkUp then s.moulinRecords (es.map (fun e => (s.slot, e))) else (s, 0)
  else
    (s.sendMgmt s.bridgeSlot 0x0600 (leBytes 1 es.length ++ leBytes 1 0 ++ leBytes 2 s.slot ++ leBytes 4 0 ++
      (es.map Entry.bytes).flatten), es.length)

/-- How many entries of 32 bytes the spill ring holds. -/
def State.spillCap (s : State) : Nat := s.getF F.logSpillLenLen * 128

/-- The HBM4 address of a place of the spill ring (R379). -/
def State.spillAt (s : State) (i : Nat) : Nat := 4096 * s.getF F.logSpillBaseBase + 32 * (i % s.spillCap)

/-- Spill one entry into the next place. -/
def State.spillOne (s : State) (e : Entry) : State :=
  let s := s.hbmWrite (s.spillAt s.log.spillNext) e.bytes
  { s with log := { s.log with spill := s.log.spill ++ [e], spillNext := (s.log.spillNext + 1) % s.spillCap } }

/-- Spill as many entries as fit (R380). -/
def State.moulinSpill (s : State) (es : List Entry) : State × Nat :=
  let k := min es.length (s.spillCap - s.log.spill.length)
  (s.each (es.take k) State.spillOne, k)

/-- The entries held lie in a new spill ring from its first place on, and those that it has no room for are lost (DESIGN CHOICE, log
entry 81). -/
def State.spillLay (s : State) : State :=
  let es := s.log.spill
  let q := { s with log := { s.log with spill := [], spillNext := 0 } }.moulinSpill es
  q.1.addF F.logLostLost (es.length - q.2)

/-- A 4 KiB line of HBM4 is lost: the spilled entries in it are counted as lost (R356, R380). -/
def State.spillLost (s : State) (line : Nat) : State :=
  let n := s.log.spill.length
  let in_ := fun (i : Nat) => s.spillAt (s.log.spillNext + s.spillCap - n + i) / 4096 = line
  let left := ((s.log.spill.zipIdx).filter (fun e => !in_ e.2)).map Prod.fst
  if left.length = n then s
  else ({ s with log := { s.log with spill := [], spillNext := 0 } }.moulinSpill left).1.addF F.logLostLost (n - left.length)

/-- The bridge's host ring takes no record: it is full, or the PCIe link is down (R380, R381). -/
def State.ringFull (s : State) : Bool :=
  s.isBridge && (!s.bridge.linkUp ||
    (s.getF (F.moulinTailTail 0) + 1) % s.moulinRing = s.getF (F.moulinHeadHead 0) % s.moulinRing)

/-- MOULIN_BATCH (R379, R380): up to 7 entries in SEQ order go to the host, or to the spill ring in mode 2, or in mode 3 while the
host path is down or the host ring is full. While the spill ring holds entries, the host gets those first (SPILL_DRAIN). The
bridge's records of other modules that wait for the ring go first. -/
def execMoulinBatch (hostPath : Bool) (s : State) : Host.Outcome State Fault Refusal :=
  .next (
    let p := if hostPath && s.isBridge && s.bridge.linkUp then s.moulinRecords s.log.batch else (s, 0)
    let s : State := { p.1 with log := { p.1.log with batch := p.1.log.batch.drop p.2 } }
    let es := s.undrained.take 7
    let mode : Nat := s.getF F.logMoulinMode
    if es = [] ∨ mode = 0 then s
    else if mode = 2 then let q := s.moulinSpill es; q.1.drained q.2
    else
      let q := if hostPath && s.log.spill.isEmpty then s.moulinHost es else (s, 0)
      let s := q.1.drained q.2
      if mode = 3 && q.2 < es.length && (!hostPath || s.log.spill.isEmpty || s.ringFull) then
        let r := s.moulinSpill (es.drop q.2)
        r.1.drained r.2
      else s)

/-- SPILL_DRAIN (R380): the host path has returned and the oldest spilled entries go to the host. -/
def execSpillDrain (s : State) : Host.Outcome State Fault Refusal :=
  .next (
    let es := s.log.spill.take 7
    if es = [] then s
    else
      let q := s.moulinHost es
      { q.1 with log := { q.1.log with spill := q.1.log.spill.drop q.2 } })

/-- LOG_BATCH (R379, R381): the bridge writes another module's entries into the host ring; those for which the ring has no room
wait. A module that is not the bridge discards the message. -/
def execLogBatch (slot : SlotN) (entries : List Entry) (s : State) : Host.Outcome State Fault Refusal :=
  .next (
    if !s.me.bridge then s
    else
      let l := s.log.batch ++ entries.map (fun e => (slot.val, e))
      let p := if s.bridge.linkUp then s.moulinRecords l else (s, 0)
      { p.1 with log := { p.1.log with batch := l.drop p.2 } })

/-- The bytes from a to a + n - 1 touch a tenant partition's region (R332, R379). -/
def State.touchesTenant (s : State) (a n : Nat) : Bool :=
  (List.range 16).any (fun p => p ≠ 0 && (s.hbmRegions p).any (fun r => decide (0 < n ∧ 0 < r.2 ∧ a < r.1 + r.2 ∧ r.1 < a + n)))

/-- The fields of a MOULIN_CFG descriptor lie within their values (R379). -/
def moulinDescOk (d : Bytes) : Bool :=
  d.length = 32 && fieldAt d 0 1 ≤ 3 && fieldAt d 1 1 = 0 && 1 ≤ fieldAt d 2 2 && fieldAt d 2 2 ≤ 10000 &&
  fieldAt d 4 8 % 4096 = 0 && fieldAt d 4 8 + fieldAt d 12 8 ≤ hbmSize && fieldAt d 20 12 = 0

/-- MOULIN_CFG (R379). -/
def execMoulinCfg (h : CmdHdr) (desc : Bytes) (s : State) : Host.Outcome State Fault Refusal :=
  .next (s.command h false true (moulinDescOk desc && !s.touchesTenant (fieldAt desc 4 8) (fieldAt desc 12 8)) true true 0 (fun s =>
    ((((s.setF F.logMoulinMode (fieldAt desc 0 1)).setF F.logMoulinMaxDelay (fieldAt desc 2 2)).setF F.logSpillBaseBase
      (fieldAt desc 4 8 / 4096)).setF F.logSpillLenLen (fieldAt desc 12 8 / 4096)).spillLay.done h true stOK 0 []))

/-- The entries LOG_READ returns: those from a beat onward, in SEQ order, at most `max`; a tenant sees its partition's alone. -/
def State.logFrom (s : State) (h : CmdHdr) (fromBeat : BitVec 64) (max : Nat) : List Entry :=
  (s.log.ring.filter (fun e => fromBeat.toNat ≤ e.beat.toNat && (h.tenant.val = 0 || e.part = h.part.val))).take max

/-- LOG_READ (R300). -/
def execLogRead (h : CmdHdr) (fromBeat : BitVec 64) (max : Word) (s : State) : Host.Outcome State Fault Refusal :=
  .next (
    let p := ((s.logFrom h fromBeat max.toNat).map Entry.bytes).flatten
    s.command h true (h.tenant.val = 0) (decide (p.length ≤ 61424)) true true p.length (fun s =>
      s.done h (h.tenant.val = 0) stOK 0 p))

/-- NV_READ (R382): records by index; one whose CRC fails is zeros. -/
def execNvRead (h : CmdHdr) (index count : Word) (s : State) : Host.Outcome State Fault Refusal :=
  .next (
    let ok := index.toNat + count.toNat ≤ 4096 && count.toNat * 128 ≤ 61424
    let p := if ok then ((List.range count.toNat).map (fun k =>
      nvChecked (Sparse.get (fun _ => []) s.firn.nv (index.toNat + k)))).flatten else []
    s.command h false true ok true true p.length (fun s => s.done h true stOK 0 p))

end Sys2Proof.Machine
end

