-- ==== Sys2Proof/Machine/Flags.lean ====
section
/-! DEFINITION. What a register reads as: the status bits that the units hold are spliced into the stored word (Tables 2.7, 5.10, 6.12,
10.5, 10.8, 12.4, 13.9, 14.6). -/

namespace Sys2Proof.Machine

/-- Commands of a function that are fetched and not yet replied to (GLB_RING_STATUS.OUTSTANDING). -/
def State.ringOut (s : State) (f : Nat) : Nat :=
  (s.outOf (.host f)).length + (s.bridge.relays.filter (fun r => r.fn = f && !r.dropped)).length

/-- The vectors of a partition with a non-zero pending count (PART_IRQ_PEND). -/
def State.irqPending (s : State) (n : Nat) : Nat :=
  (List.range 16).foldl (fun m v => if (Sparse.get (fun _ => {}) (s.prt n).irq v).count = 0 then m else m + 2 ^ v) 0

/-- A multiply or a port access of an array is in progress (ARR_STATUS.BUSY, Table 2.9). -/
def ArrSt.busy (x : ArrSt) : Bool := x.mul.isSome || !x.portWait.isEmpty

/-- A register of partition 0's block that reads as zero (Table 12.5). -/
def Reg.partZero (r : Reg) : Bool :=
  r.i = 0 && (RegKind.partTiles :: [.partHbm, .partQos, .partIso, .partLinkShare, .partIrqCfg, .partIrqRoute, .partIrqPend]).contains r.kind

/-- What a register reads as. -/
def State.readWord (s : State) (r : Reg) : Word :=
  let w := s.getR r
  if r.isCtrLo then s.ctrLoWord r
  else if r.partZero then 0
  else match r.kind with
  | .arrStatus => withBits w 0 0 (bit (s.arr r.i r.j).busy)
  | .arrCanary => withBits w 30 30 (bit (s.arr r.i r.j).canary.isSome)
  | .deStatus =>
    let x := s.tile r.i
    withBits (withBits (withBits w 1 1 (bit (x.dePrio ≠ 0))) 15 8 x.deIn.length) 0 0 (bit (x.deRun.any x.deMay))
  | .netCompat => BitVec.ofNat 32 ((List.range 16).foldl (fun m n => m + if s.compat n then 2 ^ n else 0) 0)
  | .cadBeatLo => BitVec.ofNat 32 s.cad.beat.toNat
  | .syncStatus => withBits w 31 16 s.syncWaits.length
  | .ringStatus => withBits w 31 16 (s.ringOut r.i)
  | .partIrqPend => BitVec.ofNat 32 (s.irqPending r.i)
  | .logStatus =>
    withBits (withBits (withBits (withBits w 31 31 (bit (!s.log.summary.isEmpty))) 30 30 (bit s.logStalled)) 24 16 s.log.ingest.length)
      10 0 s.log.summary.length
  | .hkUrgent => withBits w 18 16 s.hk.urgent.length
  | .hkStatus => withBits (withBits w 9 9 (bit s.hk.conv.isSome)) 8 0 s.hk.fifo.length
  | .hkFifo => s.hk.fifo.headD 0
  | _ => w

end Sys2Proof.Machine
end

