-- ==== Sys2Proof/Machine/Services.lean ====
section
/-! DEFINITION. Resident services (chapter 11): opening and closing, requests and their states, tokens, steps, output records,
KV pages; and the commands that firmware sends to other modules (R299). -/

namespace Sys2Proof.Machine

/-! ## Commands to other modules (R291, R299) -/

/-- A command packet: header and parameters (Table 10.1). -/
def cmdBytes (opcode flags tenant part tag target : Nat) (params : Bytes) : Bytes :=
  leBytes 2 opcode ++ leBytes 2 flags ++ leBytes 1 tenant ++ leBytes 1 part ++ leBytes 2 0 ++ leBytes 4 tag ++ leBytes 2 target ++
  leBytes 14 0 ++ leBytes 4 params.length ++ params

/-- The first relay tag from t on that no relay holds. -/
def freeTag (l : List Relay) : Nat → Nat → Nat
  | 0, t => t
  | n + 1, t => if l.any (fun r => r.rtag = t % 65536) then freeTag l n (t + 1) else t % 65536

/-- Send a command to another slot as a class-3 message with a relay tag of its own (R299); function 64 stands for this module's
firmware. -/
def State.relayCmd (s : State) (fn : Nat) (tag : BitVec 32) (slot part rbuf : Nat) (packet : Bytes) : State :=
  let t := freeTag s.bridge.relays s.bridge.relays.length s.bridge.nextTag
  { s with bridge := { s.bridge with relays := s.bridge.relays ++ [Relay.mk t fn tag slot rbuf false], nextTag := (t + 1) % 65536 } }.sendMsg
    { cls := 3, part := part, dest := slot, stream := t, payload := packet }

/-- Firmware sends a command of a partition to another slot. -/
def State.fwCommand (s : State) (slot opcode part : Nat) (tag : BitVec 32) (params : Bytes) : State :=
  s.relayCmd 64 tag slot part 0 (cmdBytes opcode 0 (s.tenantOf part) part tag.toNat slot params)

/-! ## Service tables and descriptors (R310, R311) -/

/-- A string is the heap string of token t, with its special mark. -/
def svcToken (b : Bytes) (index heap t : Nat) : Bytes × Bool :=
  let e := index + 8 * t
  ((b.drop (heap + fieldAt b e 4)).take (fieldAt b (e + 4) 1), fieldAt b (e + 5) 1 % 2 = 1)

/-- A list of byte strings holds no string twice. -/
def noTwice (l : List Bytes) : Bool := l.eraseDups.length = l.length

/-- The service tables of a manifest (R311), none when the loader refuses them. -/
def svcTables (b : Bytes) : Option Svc :=
  let vocab := fieldAt b 4 4
  let kv := fieldAt b 20 4
  let index := fieldAt b 36 4
  let heap := fieldAt b 40 4
  let head :=
    64 ≤ b.length && fieldAt b 0 4 = 0x44565356 && 256 ≤ vocab && vocab ≤ 1048576 &&
    1 ≤ fieldAt b 16 2 && fieldAt b 16 2 ≤ 4096 && 64 ≤ fieldAt b 18 2 && fieldAt b 18 2 ≤ 32768 &&
    kv % 64 = 0 && 64 ≤ kv && kv ≤ 16384 && 256 ≤ fieldAt b 24 4 && fieldAt b 28 4 ≤ 65536 && fieldAt b 32 1 ≤ 1 &&
    fieldAt b 33 3 = 0 && fieldAt b 44 20 = 0 && index + 8 * vocab ≤ b.length &&
    (fieldAt b 8 4 < vocab || fieldAt b 8 4 = 0xFFFFFFFF) && (fieldAt b 12 4 < vocab || fieldAt b 12 4 = 0xFFFFFFFF)
  if !head then none
  else
    let entryOk := fun t =>
      let e := index + 8 * t
      1 ≤ fieldAt b (e + 4) 1 && fieldAt b (e + 4) 1 ≤ 64 && fieldAt b (e + 5) 1 ≤ 1 && fieldAt b (e + 6) 2 = 0 &&
      heap + fieldAt b e 4 + fieldAt b (e + 4) 1 ≤ b.length
    let dict := (List.range vocab).map (svcToken b index heap)
    let plain := (dict.filter (fun e => !e.2)).map Prod.fst
    if (List.range vocab).all entryOk && noTwice plain && (List.range 256).all (fun v => plain.contains [BitVec.ofNat 8 v]) then
      some { id := 0, vocab := vocab, bos := fieldAt b 8 4, eos := fieldAt b 12 4, batch := fieldAt b 16 2, prefill := fieldAt b 18 2,
             kvW := kv, budget := fieldAt b 24 4, classes := fieldAt b 28 4, pool := fieldAt b 32 1, dict := dict }
    else none

/-- Size of a KV page for a key width (R327). -/
def pageBytes (kvW : Nat) : Nat := 576 * kvW

/-- The manifest that the partition's current or staged weights come from. -/
def WgtSt.anyMan (w : WgtSt) : Option Manifest := w.resident.man <|> w.staging.man

/-- The tables that a partition's services run under. -/
def State.svcBase (s : State) (n : Nat) : Svc :=
  (((s.prt n).wgt.anyMan).bind (fun m => svcTables m.svc)).getD { id := 0 }

/-- A slot on which the manifest places layers. -/
def State.holdsLayers (s : State) (n slot : Nat) : Bool :=
  match (s.prt n).wgt.anyMan with
  | some m => m.places.any (fun p => p.slot = slot)
  | none => false

/-- Service `id` of a partition, if it is open. -/
def State.svc (s : State) (n id : Nat) : Option Svc := (s.prt n).svcs.find? (fun v => v.id = id)

/-- A descriptor's values (Table 11.1), those of its own module aside. -/
def State.svcDescOk (s : State) (n : Nat) (d : Bytes) : Bool :=
  let id := fieldAt d 0 4
  d.length = 64 && 1 ≤ id && id ≤ 65535 && (s.svc n id).isNone && fieldAt d 4 1 ≤ 2 &&
  fieldAt d 5 1 ≤ (if fieldAt d 4 1 = 1 then 1 else 0) && s.holdsLayers n (fieldAt d 8 2) && 1 ≤ fieldAt d 10 2 &&
  1 ≤ fieldAt d 12 4 && fieldAt d 12 4 ≤ 65536 && 1 ≤ fieldAt d 16 4 && fieldAt d 20 4 = 0 &&
  fieldAt d 32 8 % pageBytes (s.svcBase n).kvW = 0 && fieldAt d 40 24 = 0

/-- A service from its descriptor and the partition's tables. -/
def State.svcOf (s : State) (n : Nat) (d : Bytes) : Svc :=
  { s.svcBase n with
    id := fieldAt d 0 4, kind := fieldAt d 4 1, out := fieldAt d 5 1, front := fieldAt d 6 2, last := fieldAt d 8 2,
    maxActive := fieldAt d 10 2, queueDepth := fieldAt d 12 4, deadline := fieldAt d 16 4, maxContext := fieldAt d 24 8,
    kvPool := fieldAt d 32 8, opening := true }

/-- Bytes of a partition's HBM4 region, and the bytes that its image slots and KV pools take. -/
def State.regionBytes (s : State) (n : Nat) : Nat := (s.hbmRegions n).foldl (fun m r => m + r.2) 0
/-- See `State.regionBytes`. -/
def Manifest.bytesOn (m : Manifest) (slot : Nat) : Nat := (m.places.filter (fun p => p.slot = slot)).foldl (fun k p => k + p.length) 0
/-- See `State.regionBytes`. -/
def State.weightBytes (s : State) (n : Nat) : Nat :=
  match (s.prt n).wgt.anyMan with
  | some m => m.bytesOn s.placeSlot + m.bytesOn (s.slotEntry s.placeSlot).buddy
  | none => 0

/-- This module can reserve a pool (R310). -/
def State.poolFits (s : State) (n bytes : Nat) : Bool :=
  s.weightBytes n + (s.prt n).svcs.foldl (fun k v => k + v.kvPool) 0 + bytes ≤ s.regionBytes n

/-- The registers of the KV pool (Table 11.6). -/
def State.kvShow (s : State) (n : Nat) : State :=
  let k := (s.prt n).kv
  ((s.setF (F.partKvFreePages n) (k.pages - k.used.length)).setF (F.partKvLentPages n)
    (k.used.filter (fun e => e.2 / 65536 ≠ s.slot)).length).setF (F.partKvBorrowedPages n) k.borrowed.length

/-- Reserve the pool of a service and add the service. -/
def State.svcAdd (s : State) (n : Nat) (v : Svc) : State :=
  (s.modPrt n (fun x => { x with
    svcs := x.svcs ++ [v]
    kv := { x.kv with pages := x.kv.pages + v.kvPool / pageBytes v.kvW, pageSize := pageBytes v.kvW } })).kvShow n

/-- A service goes, with the pages of its pool. -/
def State.svcGone (s : State) (n id : Nat) : State :=
  match s.svc n id with
  | none => s
  | some v =>
    (s.modPrt n (fun x =>
      let pages := x.kv.pages - v.kvPool / pageBytes v.kvW
      { x with
        svcs := x.svcs.filter (fun w => w.id ≠ id)
        kv := { x.kv with
          pages := pages
          used := x.kv.used.filter (fun e => e.1 < pages)
          data := x.kv.data.filter (fun e => e.1 < pages) } })).kvShow n

/-- The module that holds this module's mirror: the slot whose buddy it is (R263, R285). -/
def State.mirrorSlot (s : State) : Option Nat :=
  ((s.firn.topo.slots).find? (fun e => e.present && e.buddy = s.placeSlot && e.slot ≠ s.slot)).map (·.slot)

/-- Send a piece of the mirror record to the mirror holder (R372). -/
def State.mirrorSend (s : State) (kind n off : Nat) (b : Bytes) : State :=
  match s.mirrorSlot with
  | some d => s.sendMgmt d 0x0907 (leBytes 1 kind ++ leBytes 1 n ++ leBytes 2 0 ++ leBytes 4 b.length ++ leBytes 8 s.win ++
      leBytes 8 off ++ b)
  | none => s

/-- The tag of the firmware's commands about a service. -/
def svcTag (n id : Nat) : BitVec 32 := BitVec.ofNat 32 (n * 65536 + id)

/-- SVC_OPEN (R310): the front module reserves its pool and forwards the descriptor; another module that the front module sends
it to, under the tag of its firmware, reserves its own pool. -/
def execSvcOpen (h : CmdHdr) (desc : Bytes) (s : State) : Host.Outcome State Fault Refusal :=
  .next (
    let n := h.part.val
    let own := fieldAt desc 6 2 = s.placeSlot
    let fromFront := decide (h.sender = .slot (fieldAt desc 6 2)) && decide (h.tag = svcTag n (fieldAt desc 0 4))
    s.command h true false (s.svcDescOk n desc && (own || fromFront)) (s.running n && (s.prt n).usable && (s.prt n).wgt.behind.isNone)
      ((s.prt n).svcs.length < 16 && s.poolFits n (fieldAt desc 32 8)) 0 (fun s =>
      let v := s.svcOf n desc
      let s := (s.svcAdd n { v with opening := own && !(s.modulesOf n).isEmpty }).mirrorSend 2 n v.id desc
      if !own || (s.modulesOf n).isEmpty then s.done h false stOK 0 []
      else
        (s.each (s.modulesOf n) (fun s d => s.fwCommand d 0x0500 n (svcTag n v.id) desc)).outstand h 0x0500 v.id))

/-- The answer of a module to a forwarded SVC_OPEN (R310): when all have answered OK the command completes; one that cannot
reserve its pool releases every reservation. -/
def State.svcAnswer (s : State) (n id status : Nat) : State :=
  match s.svc n id with
  | none => s
  | some v =>
    if !v.opening then s
    else if status ≠ stOK then
      let s := s.each (s.modulesOf n) (fun s d => s.fwCommand d 0x0501 n (svcTag n id) (leBytes 4 id))
      let waits := (s.waitingFor 0x0500 (some n)).filter (fun o => o.arg = id)
      s.each waits (fun s o => (s.complete o.sender o.tag (some n) stNoResource 0 [])) |>.svcGone n id
    else if s.bridge.relays.any (fun r => r.fn = 64 && r.tag = svcTag n id) then s
    else
      let s := s.modPrt n (fun x => { x with svcs := x.svcs.map (fun w => if w.id = id then { w with opening := false } else w) })
      s.each ((s.waitingFor 0x0500 (some n)).filter (fun o => o.arg = id)) (fun s o => s.complete o.sender o.tag (some n) stOK 0 [])

/-! ## KV pages of requests (R327, R328) -/

/-- A page's holder is a request of this module, under its own slot or under that of the failed module it stands for (R371). -/
def State.ownTag (s : State) (tag holder : Nat) : Bool :=
  holder = s.slot * 65536 + tag % 65536 || holder = s.placeSlot * 65536 + tag % 65536

/-- A request over the loss of the KV pages on slot f (R321): one with a page borrowed there, and every one where f holds layers of the
partition, restarts. -/
def State.kvOver (s : State) (n f : Nat) (r : Request) : Request :=
  if r.active && (s.holdsLayers n f || (s.prt n).kv.borrowed.any (fun b => b.1 / 65536 = f && b.1 % 65536 = r.tag % 65536)) then
    { r with state := .restart, inFlight := false, held := false }
  else r

/-- The requests fronted here that `sel` picks lose their KV pages on slot f. -/
def State.kvRestart (s : State) (n f : Nat) (sel : Request → Bool) : State :=
  s.mapSvcs n (fun v => if s.isFront v then v.mapReqs (fun r => if sel r then s.kvOver n f r else r) else v)

/-- Every page that a request holds in this module's pool is freed, and those it holds in other pools are given back. -/
def State.kvRelease (s : State) (n tag : Nat) : State :=
  let k := (s.prt n).kv
  let mine := (k.used.filter (fun e => s.ownTag tag e.2)).map Prod.fst
  let s := s.each (k.borrowed.filter (fun b => b.1 % 65536 = tag % 65536)) (fun s b =>
    s.sendMsg { cls := 5, part := n, dest := b.1 / 65536, stream := tag % 65536,
                payload := leBytes 1 1 ++ leBytes 1 0 ++ leBytes 2 0 ++ leBytes 4 b.2 ++ leBytes 8 0 })
  (s.modPrt n (fun x => { x with kv := { x.kv with
    used := x.kv.used.filter (fun e => !mine.contains e.1)
    data := x.kv.data.filter (fun e => !mine.contains e.1)
    borrowed := x.kv.borrowed.filter (fun b => b.1 % 65536 ≠ tag % 65536)
    asking := x.kv.asking.filter (fun q => q.1 ≠ tag % 65536) } })).kvShow n

/-! ## Tokens (R314, R315) -/

/-- The longest ordinary token whose string opens the bytes: its number and length. -/
def bestToken (dict : List (Bytes × Bool)) (b : Bytes) : Option (Nat × Nat) :=
  (List.range dict.length).foldl (fun (best : Option (Nat × Nat)) t =>
    match dict[t]? with
    | some (w, false) =>
      if w.isPrefixOf b && (match best with | some x => decide (x.2 < w.length) | none => true) then some (t, w.length) else best
    | _ => best) none

/-- The tokens of a byte string. -/
def tokensOf (dict : List (Bytes × Bool)) : Nat → Bytes → List Nat
  | 0, _ => []
  | _, [] => []
  | k + 1, b :: bs => match bestToken dict (b :: bs) with
    | some x => x.1 :: tokensOf dict k ((b :: bs).drop x.2)
    | none => tokensOf dict k bs

/-- A prompt's tokens (R315). -/
def Svc.tokenise (v : Svc) (prompt : Bytes) : List Nat :=
  (if v.bos = 0xFFFFFFFF then [] else [v.bos]) ++ tokensOf v.dict prompt.length prompt

/-- The bytes that a token adds (R315). -/
def Svc.tokenBytes (v : Svc) (t : Nat) : Bytes :=
  match v.dict[t]? with
  | some (w, false) => w
  | _ => []

/-! ## Output (R324 to R326) -/

/-- The stop sequence that the output ends with. -/
def Request.stopHit (r : Request) : Option Nat :=
  (List.range r.stops.length).find? (fun k => let w := r.stops.getD k []; !w.isEmpty && w.isSuffixOf r.outBytes)

/-- A request takes a token that the last module has returned (R316, R320, R324). -/
def Svc.takeToken (v : Svc) (r : Request) (t : Nat) : Request :=
  let r := { r with tokens := r.tokens ++ [t], outTokens := r.outTokens + 1, inFlight := false, redo := r.passed }
  let end_ := fun (r : Request) (c : Nat) => { r with state := .finish, endCode := some c }
  if t = v.eos then end_ r 0
  else
    let r := { r with outBytes := r.outBytes ++ v.tokenBytes t }
    match r.stopHit with
    | some k => end_ { r with outBytes := r.outBytes.take (r.outBytes.length - (r.stops.getD k []).length) } (k + 1)
    | none =>
      if r.maxTokens ≤ r.outTokens then end_ r 5
      else if v.maxContext ≠ 0 ∧ v.maxContext ≤ r.tokens.length then end_ r 6
      else r

/-- How many bytes at the end of the output are held back: the longest suffix that is a proper prefix of a stop sequence
(R324). -/
def Request.heldBack (r : Request) : Nat :=
  if r.endCode.isSome then 0
  else
    (r.stops.flatMap (fun w => (List.range w.length).filter (fun k => (w.take k).isSuffixOf r.outBytes))).foldl max 0

/-- The bytes of a stream record (R325): header, data and padding. -/
def recordBytes (tag flags seq : Nat) (data : Bytes) : Bytes :=
  leBytes 4 tag ++ leBytes 4 data.length ++ leBytes 1 flags ++ leBytes 3 0 ++ leBytes 4 seq ++ data ++
  List.replicate ((16 - data.length % 16) % 16) 0

/-- The status of a completed request, and its DETAIL (R326). -/
def Request.status (r : Request) : Nat × Nat :=
  if r.cancelled then (stCancelled, 0)
  else if r.rolledBack then (0x0303, r.epoch % 2 ^ 32)
  else if r.clamps ≠ 0 then (0x0002, r.clamps)
  else if r.late then (0x0001, 0)
  else if r.degraded then (0x0003, 0)
  else (stOK, 0)

/-- The reply payload of a request (Table 11.4), at beat `now`. -/
def Request.payload (r : Request) (now : Nat) : Bytes :=
  leBytes 1 (r.endCode.getD 7) ++
  leBytes 1 (bit r.late + 2 * bit (r.clamps ≠ 0) + 4 * bit r.degraded + 8 * bit r.restarted + 16 * bit r.rolledBack) ++
  leBytes 2 0 ++ leBytes 4 r.promptLen ++ leBytes 4 r.outTokens ++ leBytes 4 r.outBytes.length ++ leBytes 8 r.admitted ++
  leBytes 8 r.firstRec ++ leBytes 8 now ++ leBytes 4 r.clamps ++ leBytes 4 0

/-- Change one request of a service. -/
def Svc.modReq (v : Svc) (tag : Nat) (f : Request → Request) : Svc := v.mapReqs (fun r => if r.tag = tag then f r else r)

/-- Replace a service of a partition. -/
def State.setSvc (s : State) (n : Nat) (v : Svc) : State := s.modPrt n (fun x => { x with svcs := x.svcs.map (fun w => if w.id = v.id then v else w) })

/-- Admitted and not in DONE (R317, Table 11.6); one that ended in the queue was never admitted. -/
def Request.admittedNow (r : Request) : Bool := r.active || (r.entered && decide (r.state = .finish))

/-- The counts of requests in this module's queues and admitted (Table 11.6). -/
def State.svcShow (s : State) (n : Nat) : State :=
  let l := ((s.prt n).svcs.filter s.isFront).flatMap (fun v => v.reqs)
  let q := (l.filter (fun r => r.state = .queued)).length
  let a := (l.filter Request.admittedNow).length
  ((s.setF (F.partSvcStatusActive n) a).setF (F.partSvcStatusQueued n) (min q 0xFFFF)).setF (F.partWgtHoldHeld n)
    (l.filter (fun r => r.held)).length

/-- Share the clamps of a window among requests: each but the last takes a free part of what is left. -/
def clampShares (total k : Nat) : Nat → List Nat
  | 0 => []
  | 1 => [total]
  | m + 2 => let x := Config.freeNat (k + m) % (total + 1); x :: clampShares (total - x) k (m + 1)

/-- A request whose vectors the window's steps may hold: one that is in a step, and not left out of them (Table 11.3). -/
def Request.stepping (r : Request) : Bool := r.inFlight || decide (r.state = .prefill) || decide (r.state = .decode)

/-- The clamps of the window go to the requests whose vectors held the elements (R124), and a request whose scheduled data crossed a
port on fewer than four lanes is marked (R235). With one request in the window's steps both are its own. Whose vector or data it was among
several, and what other modules of the partition add, is the program's own and free (log entry 37). -/
def State.windowData (s : State) (n : Nat) : State :=
  let x := s.prt n
  let act := (x.svcs.filter s.isFront).flatMap (fun v => (v.reqs.filter Request.stepping).map (fun r => (v.id, r.tag)))
  let alone := (s.modulesOf n).isEmpty
  let k := s.free
  let total := x.clamps + (if alone then 0 else Config.freeNat k)
  let parts := clampShares total (k + 1) act.length
  let crossed := fun i => (x.slow && act.length = 1) || ((x.slow || !alone) && Config.freeNat (k + 1 + act.length + i) % 2 = 1)
  let s := s.mapSvcs n (fun v => if !s.isFront v then v else v.mapReqs (fun r =>
    match act.idxOf? (v.id, r.tag) with
    | some i => { r with clamps := min 0xFFFFFFFF (r.clamps + parts.getD i 0), degraded := r.degraded || crossed i }
    | none => r))
  { s.modPrt n (fun x => { x with clamps := 0, slow := false }) with free := k + 1 + 2 * act.length }

/-- A service that is closing goes once its last request has ended (R320), and SVC_CLOSE completes. -/
def State.svcClosed (s : State) (n id : Nat) : State :=
  match s.svc n id with
  | none => s
  | some v =>
    if !v.closing || !v.reqs.isEmpty then s
    else
      let s := s.each ((s.waitingFor 0x0501 (some n)).filter (fun o => o.arg = id)) (fun s o =>
        s.complete o.sender o.tag (some n) stOK 0 [])
      (s.svcGone n id).mirrorSend 2 n id []

/-- A request has ended and its FINAL record is written (R312, R313, R320, R326): its reply. -/
def State.requestDone (s : State) (n : Nat) (v : Svc) (r : Request) : State :=
  let s := s.setSvc n { v with reqs := v.reqs.filter (fun q => q.tag ≠ r.tag) }
  let s := s.addF (F.partSvcCntDone n) 1
  let st := r.status
  let o := (s.waitingFor 0x0502 (some n)).find? (fun o => o.tag = r.cmdTag && o.arg = v.id * 2 ^ 32 + r.tag)
  let s := match o with
    | some o => s.complete o.sender o.tag (some n) st.1 st.2 (r.payload s.cad.beat.toNat)
    | none => s
  (s.svcClosed n v.id).svcShow n

/-! ## Requests (R312 to R321) -/

/-- A binary32 number is +0 or positive and finite. -/
def f32NonNeg (w : Word) : Bool := !signOf w && isFin w

/-- A request descriptor's values (Table 11.2). -/
def reqDescOk (v : Svc) (d : Bytes) : Bool :=
  let stops := fieldAt d 26 1
  let len := fun k => fieldAt d (48 + k) 1
  64 + 128 ≤ d.length &&
  !v.reqs.any (fun r => r.tag = fieldAt d 4 4) &&
  (if v.kind = 0 then 1 ≤ fieldAt d 12 4 else fieldAt d 12 4 = 0) &&
  f32NonNeg (BitVec.ofNat 32 (fieldAt d 16 4)) && (fieldAt d 20 4 ≤ 0x3F800000 || fieldAt d 20 4 = 0x80000000) && fieldAt d 24 2 ≤ 1024 && stops ≤ 4 &&
  fieldAt d 27 1 = 0 && 1 ≤ fieldAt d 28 4 && fieldAt d 28 4 ≤ 16777216 &&
  (List.range 4).all (fun k => if k < stops then 1 ≤ len k && len k ≤ 32 else len k = 0) && fieldAt d 52 12 = 0 &&
  (if fieldAt d 40 8 = 0 then fieldAt d 28 4 ≤ 61216 && d.length = 192 + fieldAt d 28 4 else d.length = 192)

/-- The epoch that a request is admitted under (R274). -/
def WgtSt.admitEpoch (w : WgtSt) : Nat :=
  match w.swap with
  | some sw => if sw.cutover && !sw.rolling then sw.epoch else w.epoch.toNat
  | none => w.epoch.toNat

/-- REQ_SUBMIT (R312, R325). `prompt` holds the bytes that the bridge read by DMA when PROMPT_ADDR is not 0. -/
def execReqSubmit (h : CmdHdr) (desc : Bytes) (prompt : Bytes) (timeUs : Nat) (s : State) : Host.Outcome State Fault Refusal :=
  .next (
    let n := h.part.val
    let v := (s.svc n (fieldAt desc 0 4)).getD { id := 0 }
    s.command h true false (reqDescOk v desc) (v.id ≠ 0 && !v.opening && !v.closing && s.isFront v && v.ringSize ≠ 0) true 48 (fun s =>
      if v.queueDepth ≤ (v.reqs.filter (fun r => r.state = .queued)).length then s.done h false stHeld 0 []
      else
        let len := fieldAt desc 28 4
        let tag := fieldAt desc 4 4
        let us := fieldAt desc 8 4
        let r : Request := {
          tag := tag, cmdTag := h.tag
          sender := match h.sender with | .host f => f | .slot d => 64 + d
          prompt := if fieldAt desc 40 8 = 0 then (desc.drop 192).take len else prompt.take len
          maxTokens := fieldAt desc 12 4
          deadline := if us = 0 then v.deadline else us
          start := timeUs
          stops := (List.range (fieldAt desc 26 1)).map (fun k => (desc.drop (64 + 32 * k)).take (fieldAt desc (48 + k) 1))
          seed := fieldAt desc 32 8
          temp := BitVec.ofNat 32 (fieldAt desc 16 4)
          topP := BitVec.ofNat 32 (fieldAt desc 20 4)
          topK := fieldAt desc 24 2
          admitted := 0 }
        ((s.setSvc n { v with reqs := v.reqs ++ [r] }).outstand h 0x0502 (v.id * 2 ^ 32 + tag)).svcShow n))

/-- A request ends early (Table 11.3). -/
def Request.stop (r : Request) (code : Nat) : Request :=
  match r.state with
  | .done => r
  | .finish => r
  | _ => { r with state := .finish, endCode := some code, cancelled := true, held := false }

/-- REQ_CANCEL (R317, R320): the cancellation is applied at the next window boundary. -/
def execReqCancel (h : CmdHdr) (reqTag : Word) (s : State) : Host.Outcome State Fault Refusal :=
  .next (
    let n := h.part.val
    let has := fun (v : Svc) => s.isFront v && v.reqs.any (fun r => r.tag = reqTag.toNat)
    s.command h true false ((s.prt n).svcs.any has) true true 0 (fun s =>
      (s.mapSvcs n (fun v => if has v then { v with cancels := v.cancels ++ [reqTag.toNat] } else v)).done h false stOK 0 []))

/-- SVC_CLOSE (R320): every request moves to FINISH with its end reason, and the service goes when their last records have been
written; the other modules release their pools. -/
def execSvcClose (h : CmdHdr) (svc : Word) (s : State) : Host.Outcome State Fault Refusal :=
  .next (
    let n := h.part.val
    let v := (s.svc n svc.toNat).getD { id := 0 }
    s.command h true false true (v.id ≠ 0 && !v.closing) true 0 (fun s =>
      let gone := fun (s : State) => ((s.svcGone n v.id).mirrorSend 2 n v.id []).done h false stOK 0 []
      if !s.isFront v then gone s
      else
        let s := s.each (s.modulesOf n) (fun s d => s.fwCommand d 0x0501 n (svcTag n v.id) (leBytes 4 v.id))
        if v.reqs.isEmpty then gone s
        else
          let s := s.setSvc n { v with
            reqs := v.reqs.map (·.stop 8), cancels := [], closing := true
            ended := v.ended ++ (v.reqs.filter Request.active).map (fun r => (r.tag, s.cad.beat)) }
          let hit := v.reqs.filter (fun r => r.state ≠ .finish && r.state ≠ .done)
          let s := s.each hit (fun s r => s.kvRelease n r.tag)
          (s.outstand h 0x0501 v.id).svcShow n))

/-- STREAM_CFG (R325): the ring starts with no byte written or read. -/
def execStreamCfg (h : CmdHdr) (svc : Word) (addr : BitVec 64) (size : Word) (s : State) : Host.Outcome State Fault Refusal :=
  .next (
    let n := h.part.val
    let v := (s.svc n svc.toNat).getD { id := 0 }
    let ok := size.toNat % 64 = 0 && 4096 ≤ size.toNat && size.toNat ≤ 2 ^ 30
    s.command h true false ok (v.id ≠ 0 && !v.closing) true 0 (fun s =>
      (s.setSvc n { v with ringAddr := addr.toNat, ringSize := size.toNat, ringWrite := 0, ringRead := 0 }).done h false stOK 0 []))

/-! ## The window boundary at the front module (R317, R320) -/

/-- The placements of a layer that lie on a slot. -/
def Manifest.placesAt (m : Manifest) (l : ManLayer) (slot : Nat) : List Nat :=
  (List.range l.placeCount).map (l.firstPlace + ·) |>.filter (fun i =>
    match m.places[i]? with | some p => p.slot = slot | none => false)

/-- The layers placed on a slot, in ascending layer number. -/
def Manifest.layersOn (m : Manifest) (slot : Nat) : List ManLayer :=
  (m.layers.filter (fun l => !(m.placesAt l slot).isEmpty)).mergeSort (fun a b => a.layer ≤ b.layer)

/-- The layer slots of a layer, in the loaded program. -/
def State.layerSlotsOf (s : State) (n layer : Nat) : List Nat :=
  match (s.prt n).prog with
  | some p => (List.range p.layers.length).filter (fun k => match p.layers[k]? with | some e => e.layer = layer | none => false)
  | none => []

/-- The layers of this module that a pass of a request may not start on: PART_WGT_LEPOCH of the layer is not the request's epoch
(R275). -/
def State.barred (s : State) (n : Nat) (r : Request) : List ManLayer :=
  (((s.prt n).wgt.resident.man.map (fun m => m.layersOn s.placeSlot)).getD []).filter (fun l =>
    (s.layerSlotsOf n l.layer).any (fun k => s.getF (F.partWgtLepochEpoch n k) ≠ r.epoch % 2 ^ 32))

/-- A request waits at the input of this module's first layers, which a step of the front module feeds (R275). -/
def State.gated (s : State) (n : Nat) (r : Request) : Bool :=
  let here := ((s.prt n).wgt.resident.man.map (fun m => m.layersOn s.placeSlot)).getD []
  (s.barred n r).any (fun l => here.all (fun k => l.order ≤ k.order))

/-- The output of a request is kept until the swap commits (R277). -/
def WgtSt.keepsOut (w : WgtSt) (r : Request) : Bool :=
  match w.swap with
  | some sw => decide (r.epoch = sw.epoch)
  | none => false

/-- The record of a classification (R330): the index of the largest logit, the lowest on a tie, and the logits; with a NaN among them
the index is free. -/
def Svc.classRecord (v : Svc) (b : Bytes) (k : Nat) : Bytes :=
  let z := (List.range v.classes).map (fun i => BitVec.ofNat 32 (fieldAt b (4 * i) 4))
  let best := if z.any isNan then Config.freeNat k % max 1 v.classes
    else (List.range v.classes).foldl (fun m i => if numLt (z.getD m 0) (z.getD i 0) then i else m) 0
  leBytes 4 best ++ z.flatMap (fun w => leBytes 4 w.toNat)

/-- The vector of an embed request (R330) in its OUT format: the hidden vector of the last position, or the mean over all positions, summed
in ascending order and multiplied once by round32(1 / p). The hidden vectors of run k are the program's own, so they are free. -/
def Svc.embedding (v : Svc) (r : Request) (k : Nat) : Bytes :=
  let p := r.promptLen
  (List.range Config.hiddenWidth).flatMap (fun j =>
    let x := if v.pool = 0 then Config.hidden k (p - 1) j
      else mulF false ((List.range p).foldl (fun a i => addF false a (Config.hidden k i j)) 0) (recip32 (cvtI2F (BitVec.ofNat 32 p)))
    if v.out = 1 then leBytes 2 ((cvt16 x).toNat / 2 ^ 16) else leBytes 4 x.toNat)

/-- Tokens and vectors come back (R317 step 1): whether a request's has returned in the window, and the logits or the vector, are the
program's own, so they are free; the token follows from the logits (R322). A request that waits at the input of a layer here returns
nothing (R275), nor does a decode entry whose windows at a layer module have not passed (R318). -/
def State.svcReturns (s : State) (n : Nat) (v : Svc) (k : Nat) : Svc :=
  (List.range v.reqs.length).foldl (fun v i =>
    match v.reqs[i]? with
    | some r =>
      if !r.inFlight || r.stay ≠ 0 || !(s.barred n r).isEmpty || Config.freeNat (k + 2 * i) % 2 = 0 then v
      else if v.kind = 0 then
        (match r.state with
         | .finish | .done => v.modReq r.tag (fun r => { r with inFlight := false })
         | _ => v.modReq r.tag (fun r => v.takeToken r (sampleToken v.vocab r.topK r.temp r.topP (BitVec.ofNat 64 r.seed)
            (BitVec.ofNat 64 r.tokens.length) (Config.logit (k + 2 * i + 1)))))
      else match r.state with
        | .finish | .done => v.modReq r.tag (fun r => { r with inFlight := false })
        | _ => v.modReq r.tag (fun r => { r with
          inFlight := false, state := .finish, endCode := some 9, redo := r.passed
          outBytes := if v.kind = 2 then v.classRecord (Config.vector (k + 2 * i + 1)) (k + 2 * i + 1) else v.embedding r (k + 2 * i + 1) })
    | none => v) v

/-- Cancellations of the window (step 2). -/
def Svc.cancelAll (v : Svc) : Svc :=
  { v with reqs := v.reqs.map (fun r => if v.cancels.contains r.tag then r.stop 7 else r), cancels := [] }

/-- How many of the tokens ts have gone to the stream, when `sent` bytes have and the first token's bytes begin at byte `at_`. -/
def Svc.sentCount (v : Svc) (sent : Nat) : Nat → List Nat → Nat
  | _, [] => 0
  | at_, t :: ts =>
    let k := (v.tokenBytes t).length
    if at_ < sent || (k = 0 && at_ = sent) then 1 + v.sentCount sent (at_ + k) ts else 0

/-- A request that starts again keeps its prompt and the tokens that it has sent to the stream (R321). -/
def Svc.again (v : Svc) (r : Request) : Request :=
  let out := (r.tokens.drop r.promptLen).take (v.sentCount r.sentBytes 0 (r.tokens.drop r.promptLen))
  { r with
    state := .queued, passed := 0, redo := 0, entered := false, inFlight := false, restarted := true, pages := 0
    tokens := r.tokens.take r.promptLen ++ out, outTokens := out.length, outBytes := out.flatMap v.tokenBytes }

/-- Requests that lost pages go to the queue's head (R319, R321): the next pass runs over the prompt and the tokens already
sent. -/
def Svc.requeue (v : Svc) : Svc :=
  { v with
    reqs := (v.reqs.filter (fun r => r.state = .restart)).map v.again ++
      v.reqs.filter (fun r => r.state ≠ .restart) }

/-- Admit from the head while fewer than MAX_ACTIVE are active (step 3). A request takes the epoch of its first admission (R274, R277),
and keeps it when it is admitted again after a restart (log entry 69). -/
def Svc.takeIn (v : Svc) (epoch now : Nat) : Svc :=
  let active := (v.reqs.filter Request.admittedNow).length
  let names := ((v.reqs.filter (fun r => r.state = .queued)).take (v.maxActive - active)).map (·.tag)
  v.mapReqs (fun r =>
    if names.contains r.tag then
      let t := if r.tokens.isEmpty then v.tokenise r.prompt else r.tokens
      { r with
        state := .prefill, entered := true, tokens := t, promptLen := if r.tokens.isEmpty then t.length else r.promptLen, admitted := now
        epoch := if r.tokens.isEmpty then epoch else r.epoch }
    else r)

/-- Older first: by admission, then by place in the list. -/
def Svc.oldest (v : Svc) (p : Request → Bool) : List Request :=
  (v.reqs.filter p).mergeSort (fun a b => a.admitted ≤ b.admitted)

/-- The layer modules of a partition, by its manifest. -/
def State.layerModules (s : State) (n : Nat) : Nat :=
  max 1 ((((s.prt n).wgt.anyMan.map (fun m => m.places.map (·.slot))).getD []).eraseDups).length

/-- The windows that a decode entry stays at each layer module (R318): one, or ⌈c / BUDGET⌉ for more positions than BUDGET. -/
def Svc.staysFor (v : Svc) (r : Request) : Nat := max 1 ((r.tokens.length + v.budget - 1) / v.budget)

/-- An entry that stays k windows at each of m layer modules, and one under way that stays `old` at each and has `left` windows to go, are
never at the same module together: it leaves every module before the new entry comes to it. -/
def entriesApart (m k old left : Nat) : Bool := (List.range m).all (fun i => left ≤ i * k + (m - 1 - i) * old)

/-- The decode entries that join a step, up to BATCH, oldest first; a split one joins only when no other split one is in the step already, or
would be at a layer module together with it (R318; DEDUCED, log entry 78). -/
def Svc.joinsOf (v : Svc) (m : Nat) : List Nat :=
  let under := v.reqs.filter (fun r => r.inFlight && r.stay ≠ 0 && v.staysFor r ≠ 1)
  ((v.oldest (fun r => r.state = .decode && !r.inFlight)).foldl (fun (a : List Nat × Bool) r =>
    if v.batch ≤ a.1.length then a
    else if v.staysFor r = 1 then (a.1 ++ [r.tag], a.2)
    else if a.2 || !under.all (fun q => entriesApart m (v.staysFor r) (v.staysFor q) q.stay) then a
    else (a.1 ++ [r.tag], true)) ([], false)).1

/-- One window of the entries under way has passed. -/
def Svc.stayOn (v : Svc) : Svc := v.mapReqs (fun r => { r with stay := if r.inFlight then r.stay - 1 else 0 })

/-- The prompt positions that a request passes: a generate request ends when the next position would reach MAX_CONTEXT (R324). -/
def Svc.prefillEnd (v : Svc) (r : Request) : Nat :=
  if v.kind = 0 && v.maxContext ≠ 0 then min v.maxContext r.tokens.length else r.tokens.length

/-- A generate request whose next position would reach MAX_CONTEXT (R324) ends once its prompt positions have passed: none is sampled. -/
def Svc.contextEnd (v : Svc) : Svc :=
  v.mapReqs (fun r =>
    if r.state = .prefill && v.kind = 0 && v.maxContext ≠ 0 && v.maxContext ≤ r.passed then { r with state := .finish, endCode := some 6 }
    else r)

/-- Form the step (step 4): up to BATCH decode entries, then prompt positions up to PREFILL. Each passes the m layer modules one after
another (R318). -/
def Svc.formStep (v : Svc) (m : Nat) : Svc :=
  let dec := v.joinsOf m
  let v := v.mapReqs (fun r => if dec.contains r.tag then { r with inFlight := true, stay := m * v.staysFor r } else r)
  let v := v.mapReqs (fun r => if r.state = .prefill then { r with redo := r.passed } else r)
  let pre := v.oldest (fun r => r.state = .prefill && !r.inFlight)
  (pre.foldl (fun (a : Svc × Nat) r =>
    let k := min a.2 (v.prefillEnd r - r.passed)
    let all := decide (r.passed + k = r.tokens.length) && (v.kind ≠ 0 || v.maxContext = 0 || r.tokens.length < v.maxContext)
    (a.1.modReq r.tag (fun r => { r with
      passed := r.passed + k
      inFlight := all
      stay := if all then m else r.stay
      state := if all && v.kind = 0 then .decode else r.state }), a.2 - k)) (v, v.prefill)).1

/-- The records that the window gave (R325): at most one of a request with the bytes that may go, then FINAL when it has ended;
a vector's records carry whole elements. A request is in FINISH until its reply is sent (Table 11.3). -/
def Svc.emit (v : Svc) (w : WgtSt) : Svc :=
  v.reqs.foldl (fun v r =>
    if r.state = .done || r.closed || w.keepsOut r then v
    else
      let sendable := r.outBytes.length - r.heldBack
      let new := (r.outBytes.take sendable).drop r.sentBytes
      let vec := v.kind ≠ 0 && r.endCode = some 9
      let chunks := if vec then
          (List.range ((new.length + 65519) / 65520)).map (fun i => (r.tag, 2, (new.drop (65520 * i)).take 65520))
        else if new.isEmpty then [] else [(r.tag, 0, new)]
      let fin := r.state = .finish
      let v := v.modReq r.tag (fun r => { r with sentBytes := max r.sentBytes sendable, closed := fin })
      { v with outQ := v.outQ ++ chunks ++ (if fin then [(r.tag, 1, [])] else []) }) v

/-- The bytes of a request that wait to be written. -/
def Svc.waiting (v : Svc) (tag : Nat) : Nat :=
  ((v.outQ ++ v.outReady).filter (fun x => x.1 = tag)).foldl (fun k x => k + x.2.2.length) 0

/-- Requests enter and leave WAIT for the swap barrier and the output hold (R275, R320, R325). One whose pass is under way and waits at
the input of a later layer here is held as well. -/
def State.svcHolds (s : State) (n : Nat) (v : Svc) : Svc :=
  v.mapReqs (fun r =>
    let gate := s.gated n r
    let stop := gate || 65536 < v.waiting r.tag
    let flying := r.inFlight && !(s.barred n r).isEmpty
    match r.state with
    | .prefill => if stop && !r.inFlight then { r with state := .wait 1, held := gate } else { r with held := flying }
    | .decode => if stop && !r.inFlight then { r with state := .wait 2, held := gate } else { r with held := flying }
    | .wait _ => if stop || r.pages ≠ 0 then r else { r.unpark with held := false }
    | _ => r)

/-- One boundary of one service at its front module. The pages of an embed or classify request go once its last position has passed each layer
module (R330). -/
def State.svcStep (s : State) (n id : Nat) : State :=
  match s.svc n id with
  | none => s
  | some v =>
    if !s.isFront v || v.opening || (s.prt n).resetting then s
    else
      let w := (s.prt n).wgt
      let k := s.free
      let old := v
      let v := s.svcReturns n v.stayOn k
      let v := v.cancelAll
      let fin := fun (u : Svc) => (u.reqs.filter (fun r => r.state = .finish)).map (·.tag)
      let held := (s.prt n).hold.isSome
      let lost := if held then [] else (v.reqs.filter (fun r => r.state = .restart)).map (·.tag)
      let past := if v.kind = 0 then [] else (v.reqs.filter (fun r => r.inFlight && r.stay = 0)).map (·.tag)
      let v := if held then v
        else (s.svcHolds n (v.contextEnd.requeue.takeIn w.admitEpoch s.cad.beat.toNat)).formStep (s.layerModules n)
      let ended := (fin v).filter (fun t => !(fin old).contains t)
      let left := (old.reqs.filter (fun r => r.active && (ended.contains r.tag || lost.contains r.tag))).map (fun r => (r.tag, s.cad.beat))
      let caught := v.reqs.filter (fun r => r.held && !old.reqs.any (fun q => q.tag = r.tag && q.held))
      let s := { s with free := k + 2 * old.reqs.length }.setSvc n ({ v with ended := v.ended ++ left }.emit w)
      let s := s.each caught (fun s _ => s.irq n 3)
      let s := s.each (ended ++ past) (fun s t => s.kvRelease n t)
      s.each lost (fun s t =>
        ((s.addF (F.partSvcEvtRestarted n) 1).report srcCtl 0x0F0C n 0 t (detail 0x0F0C [t])).irq n 3)

/-- Bytes with their length in front. -/
def packBytes (b : Bytes) : Bytes := leBytes 4 b.length ++ b

/-- A request's state as a number (Table 11.3): 0 QUEUED, 1 PREFILL or a wait that leads there, 2 DECODE likewise, 3 RESTART,
4 FINISH, 5 DONE. -/
def ReqState.code : ReqState → Nat
  | .queued => 0
  | .prefill => 1
  | .decode => 2
  | .wait f => if f = 1 then 1 else 2
  | .restart => 3
  | .finish => 4
  | .done => 5

/-- The state of a request that a standby module takes over: an active one waits for the end of the hold. -/
def ReqState.ofCode : Nat → ReqState
  | 0 => .queued
  | 1 => .wait 1
  | 2 => .wait 2
  | 4 => .finish
  | 5 => .done
  | _ => .restart

/-- A request as the mirror record carries it (R372 names the table and gives no layout; the layout is the model's). -/
def Request.pack (r : Request) : Bytes :=
  leBytes 4 r.tag ++ leBytes 4 r.cmdTag.toNat ++ leBytes 4 r.sender ++ leBytes 8 r.epoch ++ leBytes 4 r.maxTokens ++ leBytes 8 r.deadline ++
  leBytes 8 r.start ++ leBytes 8 r.seed ++ leBytes 4 r.temp.toNat ++ leBytes 4 r.topP.toNat ++ leBytes 4 r.topK ++ leBytes 4 r.promptLen ++
  leBytes 4 r.sentBytes ++ leBytes 4 r.outTokens ++ leBytes 4 r.records ++ leBytes 1 r.state.code ++ leBytes 4 r.passed ++
  leBytes 1 (match r.endCode with | some c => c + 1 | none => 0) ++
  leBytes 1 (bit r.late + 2 * bit r.cancelled + 4 * bit r.degraded + 8 * bit r.restarted + 16 * bit r.rolledBack + 32 * bit r.entered) ++
  leBytes 4 r.clamps ++ leBytes 8 r.admitted ++ leBytes 8 r.firstRec ++
  packBytes (r.tokens.flatMap (leBytes 4)) ++ packBytes r.prompt ++ packBytes r.outBytes ++ packBytes (r.stops.flatMap packBytes)

/-- The strings packed one after another. -/
def unpackAll : Nat → Bytes → List Bytes
  | 0, _ => []
  | _, [] => []
  | n + 1, b => (b.drop 4).take (fieldAt b 0 4) :: unpackAll n ((b.drop 4).drop (fieldAt b 0 4))

/-- A request from a mirror record (R371), and the bytes after it. -/
def requestOf (b : Bytes) : Request × Bytes :=
  let l := fun (o : Nat) => fieldAt b o 4
  let o1 := 103
  let flags := BitVec.ofNat 8 (fieldAt b 82 1)
  let o2 := o1 + 4 + l o1
  let o3 := o2 + 4 + l o2
  let o4 := o3 + 4 + l o3
  let part := fun (o : Nat) => (b.drop (o + 4)).take (l o)
  ({ tag := l 0, cmdTag := BitVec.ofNat 32 (l 4), sender := l 8, epoch := fieldAt b 12 8, maxTokens := l 20, deadline := fieldAt b 24 8
     start := fieldAt b 32 8, seed := fieldAt b 40 8, temp := BitVec.ofNat 32 (l 48), topP := BitVec.ofNat 32 (l 52), topK := l 56
     promptLen := l 60, sentBytes := l 64, outTokens := l 68, records := l 72, state := .ofCode (fieldAt b 76 1), passed := l 77
     held := fieldAt b 76 1 = 1 || fieldAt b 76 1 = 2
     endCode := if fieldAt b 81 1 = 0 then none else some (fieldAt b 81 1 - 1)
     late := flags.getLsbD 0, cancelled := flags.getLsbD 1, degraded := flags.getLsbD 2, restarted := flags.getLsbD 3
     rolledBack := flags.getLsbD 4, entered := flags.getLsbD 5, redo := l 77, clamps := fieldAt b 83 4, admitted := fieldAt b 87 8, firstRec := fieldAt b 95 8
     tokens := (List.range (l o1 / 4)).map (fun i => fieldAt (part o1) (4 * i) 4)
     prompt := part o2, outBytes := part o3, stops := unpackAll (l o4) (part o4) }, b.drop (o4 + 4 + l o4))

/-- The requests of a mirror record. -/
def requestsOf : Nat → Bytes → List Request
  | 0, _ => []
  | _, [] => []
  | n + 1, b => let q := requestOf b; q.1 :: requestsOf n q.2

/-- The state of a front module's request table (R372), as the mirror holder keeps it. -/
def Svc.table (v : Svc) : Bytes := leBytes 4 v.id ++ v.reqs.flatMap Request.pack

/-! ## Taking KV pages (R319, R328) -/

/-- A KV page reply (Table 11.5). -/
def State.kvReply (s : State) (slot n tag status : Nat) (pages : List Nat) (data : Bytes) : State :=
  s.sendMsg { cls := 6, part := n, dest := slot, stream := tag,
              payload := leBytes 2 status ++ leBytes 2 0 ++ leBytes 4 pages.length ++ pages.flatMap (leBytes 4) ++ data }

/-- The lowest free pages of this module's pool. -/
def State.kvFree (s : State) (n count : Nat) : List Nat :=
  let k := (s.prt n).kv
  ((List.range (min k.pages (k.used.length + count))).filter (fun p => (List.lookup p k.used).isNone)).take count

/-- Give pages to a request of a slot. -/
def State.kvTake (s : State) (slot n tag : Nat) (pages : List Nat) : State :=
  (s.modPrt n (fun x => { x with kv := { x.kv with
    used := pages.foldl (fun u p => Sparse.set (fun _ => 2 ^ 32) u p (slot * 65536 + tag)) x.kv.used } })).kvShow n

/-- The modules that may lend pages (R328): the other modules of the partition in this group, in ascending order of pair latency
and then of slot. -/
def State.lenders (s : State) (n : Nat) : List Nat :=
  let lat := fun d => ((s.firn.topo.pairs.find? (fun p => p.src = s.slot && p.dest = d)).map (·.tm)).getD 0
  ((s.modulesOf n).filter (fun d => (s.slotEntry d).group = s.me.group)).mergeSort (fun a b =>
    decide (lat a < lat b) || (lat a = lat b && a ≤ b))

/-- Ask lender number i for pages (R328). -/
def State.kvAsk (s : State) (n tag count i : Nat) : Option State :=
  ((s.lenders n)[i]?).map (fun d =>
    (s.sendMsg { cls := 5, part := n, dest := d, stream := tag,
                 payload := leBytes 1 0 ++ leBytes 1 0 ++ leBytes 2 count ++ leBytes 12 0 }).modPrt n (fun x =>
      { x with kv := { x.kv with asking := (tag, count * 65536 + i) :: x.kv.asking.filter (fun q => q.1 ≠ tag) } }))

/-- A request has the pages that it waited for. -/
def State.kvServed (s : State) (n tag : Nat) : State :=
  s.mapSvcs n (fun v => v.mapReqs (fun r => if r.tag % 65536 = tag then { r with pages := 0 } else r))

/-- No lender has a page (R319): the youngest holder of pages on this module is preempted when it is younger than the request in
need, which otherwise waits; of those admitted at one boundary the queue's order says which was admitted later. -/
def State.kvShort (s : State) (n tag count : Nat) : State :=
  let s := s.modPrt n (fun x => { x with kv := { x.kv with asking := x.kv.asking.filter (fun q => q.1 ≠ tag) } })
  let reqs := ((s.prt n).svcs.filter s.isFront).flatMap (fun v => v.reqs)
  let need := (reqs.find? (fun r => r.tag % 65536 = tag)).getD { tag := tag }
  let holds := fun (r : Request) => (s.prt n).kv.used.any (fun e => s.ownTag r.tag e.2)
  let order := reqs.mergeSort (fun a b => a.admitted ≤ b.admitted)
  let rank := fun (r : Request) => (order.findIdx? (fun q => q.tag = r.tag)).getD 0
  let young := (order.filter (fun r => r.active && holds r && r.tag ≠ need.tag)).getLast?
  let wait := fun (s : State) => s.mapSvcs n (fun v => v.modReq need.tag (fun r => { r.park with held := false, pages := count }))
  match young with
  | some y =>
    if rank y ≤ rank need then wait s
    else
      let s := (s.kvRelease n y.tag).mapSvcs n (fun v => v.modReq y.tag (fun r => { r with state := .restart, inFlight := false }))
      let own := s.kvFree n count
      let s := ((s.addF (F.partSvcEvtPreempted n) 1).irq n 3).kvTake s.slot n tag own
      if own.length = count then s.kvServed n tag
      else s.mapSvcs n (fun v => v.modReq need.tag (fun r => { r.park with held := false, pages := count - own.length }))
  | none => wait s

/-- A request of this module needs pages: its own pool first and then the lenders, and after them R319 (R328). -/
def State.kvNeed (s : State) (n tag count : Nat) : State :=
  let own := s.kvFree n count
  let s := s.kvTake s.slot n tag own
  if own.length = count then s.kvServed n tag
  else (s.kvAsk n tag (count - own.length) 0).getD (s.kvShort n tag (count - own.length))

/-- A request that waits for pages asks again at a window boundary (R319, R320; DEDUCED, log entry 79). -/
def State.kvRetry (s : State) (n : Nat) : State :=
  let want := ((s.prt n).svcs.filter s.isFront).flatMap (fun v => v.reqs.filter (fun r => r.pages ≠ 0 &&
    !(s.prt n).kv.asking.any (fun q => q.1 = r.tag % 65536)))
  s.each want (fun s r => s.kvNeed n (r.tag % 65536) r.pages)

/-- The services of a partition at a window boundary: the step of each service of which this module is the front; the request
table goes to the mirror holder, and without one the records go to the bridge at once (R372). -/
def State.svcWindow (s : State) (n : Nat) : State :=
  let s := (s.windowData n).kvRetry n
  let s := s.each ((s.prt n).svcs.map (·.id)) (fun s id => s.svcStep n id)
  let s := s.each ((s.prt n).svcs.filter s.isFront) (fun s v => s.mirrorSend 3 n v.id v.table)
  let s := match s.mirrorSlot with
    | some _ => s
    | none => s.mapSvcs n (fun v => { v with outReady := v.outReady ++ v.outQ, outQ := [] })
  s.svcShow n

/-- STREAM_RECORD_WRITE (R313, R325, R345): the bridge, which has read the host's READ count, writes the service's next record when
it fits, after a pad record where it would wrap; with FINAL the request completes. The link that carries it is the bridge module's own. While the partition resets no record is written
(R320). -/
def execStreamRecordWrite (n : PartN) (svc : Nat) (read : Nat) (timeUs : Nat) (s : State) : Host.Outcome State Fault Refusal :=
  .next (
    match s.svc n svc with
    | none => s
    | some v =>
      let v := { v with ringRead := read }
      match v.outReady with
      | [] => s.setSvc n v
      | (tag, flags, data) :: rest =>
        let room := v.ringSize - 64
        let len := 16 + (data.length + 15) / 16 * 16
        let at_ := v.ringWrite % max 1 room
        let pad := if room < at_ + len then room - at_ else 0
        if v.ringSize = 0 || (s.isBridge && !s.bridge.linkUp) || (s.prt n).resetting || room < v.ringWrite - read + pad + len then s.setSvc n v
        else
          let r := (v.reqs.find? (fun r => r.tag = tag)).getD { tag := tag }
          let w := v.ringWrite + pad
          let base := v.ringAddr + 64
          let padOut := if pad = 0 then [] else
            [(base + at_, leBytes 4 0xFFFFFFFF ++ leBytes 4 (pad - 16) ++ leBytes (pad - 8) 0)]
          let s := { s with hostOut := s.hostOut ++ padOut ++
            [(base + w % max 1 room, recordBytes tag flags r.records data), (v.ringAddr, leBytes 8 (w + len))] }
          let late := flags % 2 = 1 && r.deadline < timeUs - r.start
          let r := { r with
            records := r.records + 1
            firstRec := if r.records = 0 then s.cad.beat.toNat else r.firstRec
            late := r.late || late }
          let v := { v with outReady := rest, ringWrite := w + len }
          let v := v.modReq tag (fun _ => r)
          let s := (s.setSvc n v).irq n 1
          let s := s.when late (fun s => ((s.addF (F.partSvcCntLate n) 1).report srcCtl (code14 16) n 0 tag (timeUs - r.start)).faultIrq n)
          if flags % 2 = 1 then s.requestDone n v r else s)

/-! ## KV page commands (R329) -/

/-- KV_ALLOC (R328, R329): from another module, as many pages as the pool has free, up to COUNT; from this module's own program,
its own pool first and then the lenders. -/
def execKvAlloc (slot : SlotN) (n : PartN) (tag : BitVec 16) (count : Nat) (s : State) : Host.Outcome State Fault Refusal :=
  .next (
    if slot.val = s.slot then
      s.kvNeed n tag.toNat count
    else if s.partState n = 0 || count = 0 || 1024 < count then
      (s.kvReply slot n tag.toNat 2 [] []).logEv srcCtl (code14 0) n tag.toNat
    else
      let pages := s.kvFree n count
      if pages.isEmpty then s.kvReply slot n tag.toNat 1 [] []
      else (s.kvTake slot n tag.toNat pages).kvReply slot n tag.toNat 0 pages [])

/-- The page is one that this request of this slot holds. -/
def State.kvHeld (s : State) (slot n tag page : Nat) : Bool := List.lookup page (s.prt n).kv.used = some (slot * 65536 + tag)

/-- A request for a page that is not the requester's (R329). -/
def State.kvRefuse (s : State) (slot n tag page : Nat) : State := (s.kvReply slot n tag 2 [] []).logEv srcCtl (code14 0) n page

/-- The lender of a page that a request of this module's program holds in another module (R328, R329). -/
def State.kvRemote (s : State) (slot n tag page : Nat) : Option Nat :=
  if slot = s.slot && !s.kvHeld slot n tag page then
    ((s.prt n).kv.borrowed.find? (fun b => b.1 % 65536 = tag && b.2 = page)).map (fun b => b.1 / 65536)
  else none

/-- A KV page request to a lender (Table 11.5). -/
def State.kvSend (s : State) (d n tag op page off len : Nat) (data : Bytes) : State :=
  s.sendMsg { cls := 5, part := n, dest := d, stream := tag,
              payload := leBytes 1 op ++ leBytes 1 0 ++ leBytes 2 0 ++ leBytes 4 page ++ leBytes 4 off ++ leBytes 4 len ++ data }

/-- KV_FREE (R329). -/
def execKvFree (slot : SlotN) (n : PartN) (tag : BitVec 16) (page : Nat) (s : State) : Host.Outcome State Fault Refusal :=
  .next (
    match s.kvRemote slot n tag.toNat page with
    | some d =>
      ((s.kvSend d n tag.toNat 1 page 0 0 []).modPrt n (fun x => { x with kv := { x.kv with
        borrowed := x.kv.borrowed.erase (d * 65536 + tag.toNat, page) } })).kvShow n
    | none =>
      if !s.kvHeld slot n tag.toNat page then s.kvRefuse slot n tag.toNat page
      else
        let s := s.modPrt n (fun x => { x with kv := { x.kv with
          used := x.kv.used.filter (fun e => e.1 ≠ page), data := x.kv.data.filter (fun e => e.1 ≠ page) } })
        (s.kvShow n).kvReply slot n tag.toNat 0 [] [])

/-- OFFSET and LENGTH of a page access keep their limits (Table 11.5). -/
def State.kvRange (s : State) (n off len : Nat) : Bool :=
  off % 64 = 0 && len % 64 = 0 && len ≤ 61376 && off + len ≤ (s.prt n).kv.pageSize

/-- The bytes of a pool page; bytes that nothing has written are 0. -/
def KvSt.page (k : KvSt) (p off len : Nat) : Bytes :=
  let b := ((Sparse.get (fun _ => []) k.data p).drop off).take len
  b ++ List.replicate (len - b.length) 0

/-- A page access draws the bursts of its bytes from the partition's bucket (R340) and is served when it has them all (R339). -/
def State.kvBursts (s : State) (slot n tag page off len : Nat) : Bool :=
  s.hbmServed n (Config.kvPageAddr n page) (burstsOf off len) (kvKey slot tag page)
/-- See `State.kvBursts`. -/
def State.kvPay (s : State) (slot n tag page off len : Nat) : State :=
  s.hbmPay n (Config.kvPageAddr n page) (burstsOf off len) (kvKey slot tag page)

/-- KV_READ (R329): of another module, from this one's pool; of this module's own program, from the lender of the page. -/
def execKvRead (slot : SlotN) (n : PartN) (tag : BitVec 16) (page off len : Nat) (s : State) : Host.Outcome State Fault Refusal :=
  .next (
    match s.kvRemote slot n tag.toNat page with
    | some d => s.kvSend d n tag.toNat 2 page off len []
    | none =>
      if !s.kvHeld slot n tag.toNat page || !s.kvRange n off len then s.kvRefuse slot n tag.toNat page
      else if !s.kvBursts slot n tag.toNat page off len then s.kvPay slot n tag.toNat page off len
      else (s.kvPay slot n tag.toNat page off len).kvReply slot n tag.toNat 0 [] ((s.prt n).kv.page page off len))

/-- KV_WRITE (R329). A standby module takes pages of the module whose place it has taken (R430): they hold the page's place. -/
def execKvWrite (slot : SlotN) (n : PartN) (tag : BitVec 16) (page off : Nat) (data : Bytes) (s : State) :
    Host.Outcome State Fault Refusal :=
  .next (
    match s.kvRemote slot n tag.toNat page with
    | some d => s.kvSend d n tag.toNat 3 page off data.length data
    | none =>
    let moved := s.pwr.serves = some slot.val && (List.lookup page (s.prt n).kv.used).isNone && page < (s.prt n).kv.pages
    let s := s.when moved (fun s => s.kvTake slot n tag.toNat [page])
    if !s.kvHeld slot n tag.toNat page || !s.kvRange n off data.length then s.kvRefuse slot n tag.toNat page
    else if !s.kvBursts slot n tag.toNat page off data.length then s.kvPay slot n tag.toNat page off data.length
    else
      ((s.kvPay slot n tag.toNat page off data.length).modPrt n (fun x => { x with kv := { x.kv with
        data := Sparse.set (fun _ => []) x.kv.data page (putPiece (Sparse.get (fun _ => []) x.kv.data page) off data) } })).kvReply
        slot n tag.toNat 0 [] [])

/-- KV_PAGE_REPLY (R319, R328, R329): pages that a lender has given are the request's; when they are too few the next lender is
asked, and after the last one R319 applies. A READ's data waits at the port that leads to the lender for a prefetcher of source kind 3, on
the stream of the request's tag. -/
def execKvPageReply (slot : SlotN) (n : PartN) (tag : BitVec 16) (status : BitVec 16) (pages : List Nat) (data : Bytes) (s : State) :
    Host.Outcome State Fault Refusal :=
  .next (
    if status = 0 && pages.isEmpty && !data.isEmpty then
      s.modPort (Config.portFor slot 6) (fun x => { x with rxBuf := x.rxBuf ++ linkFlits 6 n s.slot slot tag.toNat s.win data })
    else match (s.prt n).kv.asking.find? (fun q => q.1 = tag.toNat) with
    | none => s
    | some (_, q) =>
      let got := if status = 0 then pages else []
      let left := q / 65536 - got.length
      let s := (s.modPrt n (fun x => { x with kv := { x.kv with
        borrowed := x.kv.borrowed ++ got.map (fun p => (slot.val * 65536 + tag.toNat, p))
        asking := x.kv.asking.filter (fun a => a.1 ≠ tag.toNat) } })).kvShow n
      if left = 0 then s.kvServed n tag.toNat
      else (s.kvAsk n tag.toNat left (q % 65536 + 1)).getD (s.kvShort n tag.toNat left))

end Sys2Proof.Machine
end

