-- ==== Sys2Proof/Machine/Weights.lean ====
section
/-! DEFINITION. Weights (chapter 9): manifests, shards, staging, the loader, swaps and firn image records. -/

namespace Sys2Proof.Machine

/-! ## Manifests (R261, R262) -/

/-- A layer entry (Table 9.3). -/
def manLayerOf (b : Bytes) : ManLayer where
  layer := fieldAt b 0 4
  order := fieldAt b 4 4
  kind := fieldAt b 8 1
  format := fieldAt b 9 1
  seg := fieldAt b 10 1
  sensitive := fieldAt b 11 1 % 2 = 1
  persistent := fieldAt b 11 1 / 2 % 2 = 1
  tw := BitVec.ofNat 32 (fieldAt b 12 4)
  rows := fieldAt b 16 4
  cols := fieldAt b 20 4
  firstPlace := fieldAt b 24 4
  placeCount := fieldAt b 28 4

/-- A placement entry (Table 9.4). -/
def placeOf (b : Bytes) : Place where
  slot := fieldAt b 0 2
  ltile := fieldAt b 2 1
  array := fieldAt b 3 1
  rowBlock := fieldAt b 4 2
  colBlock := fieldAt b 6 2
  shard := fieldAt b 8 4
  offset := fieldAt b 12 4
  length := fieldAt b 16 4
  dest := fieldAt b 20 4

/-- A shard entry (Table 9.5). -/
def manShardOf (b : Bytes) : ManShard where
  length := fieldAt b 4 4
  slot := fieldAt b 8 2
  digest := BitVec.ofNat 512 (fieldAt b 16 64)
  entry := b.take 16

/-- Entries of a table in a manifest. -/
def tableAt {α : Type} (b : Bytes) (off n size : Nat) (f : Bytes → α) : List α :=
  (List.range n).map (fun i => f ((b.drop (off + size * i)).take size))

/-- A manifest from its bytes. -/
def manifestOf (b : Bytes) : Manifest where
  bytes := b
  encrypted := fieldAt b 6 2 % 2 = 1
  epoch := fieldAt b 24 8
  keyId := fieldAt b 32 8
  layers := tableAt b (fieldAt b 44 4) (fieldAt b 40 4) 48 manLayerOf
  places := tableAt b (fieldAt b 52 4) (fieldAt b 48 4) 24 placeOf
  shards := tableAt b (fieldAt b 60 4) (fieldAt b 56 4) 80 manShardOf
  svc := (b.drop (fieldAt b 64 4)).take (fieldAt b 68 4)
  nonceBase := fieldAt b 72 8

/-- A table of n entries lies inside the signed bytes, at a multiple of 64. -/
def tableIn (b : Bytes) (off n size : Nat) : Bool := off % 64 = 0 && 128 ≤ off && off + size * n + 132 ≤ b.length

/-- The header's fields (Table 9.2), and every table inside the manifest. -/
def manifestHead (b : Bytes) : Bool :=
  260 ≤ b.length && fieldAt b 0 4 = 0x44564D46 && fieldAt b 4 2 = 1 && fieldAt b 6 2 ≤ 1 && fieldAt b 80 4 = b.length &&
  fieldAt b 84 44 = 0 && tableIn b (fieldAt b 44 4) (fieldAt b 40 4) 48 && tableIn b (fieldAt b 52 4) (fieldAt b 48 4) 24 &&
  tableIn b (fieldAt b 60 4) (fieldAt b 56 4) 80 && fieldAt b 64 4 % 64 = 0 && fieldAt b 64 4 + fieldAt b 68 4 + 132 ≤ b.length

/-- A layer entry's values (Table 9.3). -/
def layerOk (b : Bytes) (m : Manifest) : Bool :=
  let l := manLayerOf b
  l.kind ≤ 3 && (match l.kind with | 0 => l.format ≤ 4 | 2 => l.format ≤ 4 | 1 => l.format ≤ 1 | _ => l.format = 0) &&
  l.seg ≤ 2 && fieldAt b 11 1 ≤ 3 && fieldAt b 32 16 = 0 && l.firstPlace + l.placeCount ≤ m.places.length

/-- A placement's values for its layer's kind (Table 9.4). -/
def placeOk (m : Manifest) (i : Nat) (p : Place) : Bool :=
  let kind := ((m.layerOf i).map ManLayer.kind).getD 3
  p.slot ≤ 1023 && p.ltile ≤ 95 && p.shard < m.shards.length && p.offset % 512 = 0 &&
  (match kind with
   | 0 => p.array ≤ 127 && p.length = 133120
   | 2 => (p.array ≤ 127 || p.array = 0xFF) && p.length = 133120
   | _ => p.array = 0xFF)

/-- A shard entry's values (Table 9.5). -/
def shardOk (b : Bytes) (i : Nat) : Bool :=
  fieldAt b 0 4 = i && fieldAt b 4 4 % 512 = 0 && fieldAt b 4 4 ≤ 2 ^ 28 && fieldAt b 10 6 = 0 && fieldAt b 8 2 < 1024

/-- The layer kind of placement i. -/
def Manifest.kindOf (m : Manifest) (i : Nat) : Nat := ((m.layerOf i).map ManLayer.kind).getD 3

/-- An array is placed twice (R262): two images of array layers, or an array layer's and a streamed layer's, on one array. -/
def Manifest.twice (m : Manifest) : Bool :=
  let l := (List.range m.places.length).filterMap (fun i => (m.places[i]?).bind (fun p =>
    if p.array ≤ 127 then some (m.kindOf i, (p.slot, p.ltile, p.array)) else none))
  let own := (l.filter (fun x => x.1 = 0)).map Prod.snd
  own.eraseDups.length ≠ own.length || (l.filter (fun x => x.1 = 2)).any (fun x => own.contains x.2)

/-- Partition n owns a logical tile; partition 0 owns those that no tenant partition does (R332). -/
def State.ownsTile (s : State) (n k : Nat) : Bool :=
  if n = 0 then (List.range 16).all (fun i => !s.ownsLogical i k) else s.ownsLogical n k

/-- The checks of R262 after the signature: fields, epoch, owned tiles, arrays, shard lengths, service tables (R311). -/
def State.manifestOk (s : State) (n : Nat) (b : Bytes) : Bool :=
  let m := manifestOf b
  let sub := fun (off size i : Nat) => (b.drop (off + size * i)).take size
  manifestHead b &&
  (List.range m.layers.length).all (fun i => layerOk (sub (fieldAt b 44 4) 48 i) m) &&
  (List.range m.places.length).all (fun i => match m.places[i]? with | some p => placeOk m i p | none => true) &&
  (List.range m.shards.length).all (fun i => shardOk (sub (fieldAt b 60 4) 80 i) i) &&
  (s.prt n).wgt.epoch.toNat < m.epoch &&
  m.places.all (fun p => p.slot ≠ s.placeSlot || s.ownsTile n p.ltile) && !m.twice &&
  m.places.all (fun p => p.slot ≠ s.placeSlot || 127 < p.array || p.offset + p.length ≤ ((m.shards[p.shard]?).map ManShard.length).getD 0) &&
  (m.svc.isEmpty || (svcTables m.svc).isSome)

/-- The manifest's signature verifies under the key that KEY_ID names (R262). -/
def State.manifestSigned (s : State) (n : Nat) (b : Bytes) : Bool :=
  let id := fieldAt b 32 8
  match (s.manKeysOf n).find? (fun k => k.2.1 = id) with
  | some k => Config.verify k.2.2 (b.take (b.length - 132)) (b.drop (b.length - 132))
  | none => false

/-- The images placed on the module and their mirrors fit the partition's region (R262). -/
def State.manifestFits (s : State) (n : Nat) (m : Manifest) : Bool :=
  m.bytesOn s.placeSlot + m.bytesOn (s.slotEntry s.placeSlot).buddy ≤ s.regionBytes n

/-- The verdict on a whole manifest (R262): 0 when it stands. -/
def State.judgeManifest (s : State) (n : Nat) (b : Bytes) : Nat :=
  if !s.manifestSigned n b then stSignature
  else if !s.manifestOk n b then stBadParam
  else if !s.manifestFits n (manifestOf b) then stNoResource
  else stOK

/-- Change the weights of a partition. -/
def State.modWgt (s : State) (n : Nat) (f : WgtSt → WgtSt) : State := s.modPrt n (fun x => { x with wgt := f x.wgt })

/-- A swap or a staging is in progress (R273, R280). -/
def State.wgtBusy (s : State) (n : Nat) : Bool := s.staging n || (s.prt n).wgt.swap.isSome

/-- The shards that this module takes: its own and those of the slot that it mirrors (R263, R285). -/
def State.wantedShards (s : State) (m : Manifest) : List ShardSt :=
  (List.range m.shards.length).filterMap (fun i => (m.shards[i]?).bind (fun d =>
    if d.slot = s.placeSlot then some { num := i }
    else if d.slot = (s.slotEntry s.placeSlot).buddy then some { num := i, mirror := true }
    else none))

/-- The slot that asked for this partition's staging: shards come by way of its group's bridge (R263). -/
def State.shardSource (s : State) : Nat := s.bridgeSlot

/-- Send SHARD_REQ for a whole shard (R265). -/
def State.shardAsk (s : State) (n shard dest : Nat) (epoch : Nat) : State :=
  (s.sendMgmt dest 0x0301 (leBytes 4 shard ++ leBytes 4 0 ++ leBytes 4 0 ++ leBytes 4 epoch)).addF (F.partWgtCntRerequests n) 1

/-- A module whose restored epoch is behind its service's (R288) stages the service's epoch as soon as it has that manifest: its own
shards come from the module that mirrors it, and those it mirrors from its buddy. -/
def State.catchUp (s : State) (n : Nat) (m : Manifest) : State :=
  if (s.prt n).wgt.behind ≠ some m.epoch then s
  else
    let l := s.wantedShards m
    let s := s.modWgt n (fun w => { w with
      staging := { man := some m }, mirrorStg := { man := some m }, shards := l, staged := [], failed := [] })
    (s.setF (F.partWgtStatusStage n) 1).each l (fun s x =>
      s.shardAsk n x.num (if x.mirror then (s.slotEntry s.placeSlot).buddy else s.mirrorSlot.getD s.shardSource) m.epoch)

/-- MANIFEST_PUT (R261, R262): pieces are collected, and the last one has the manifest checked. -/
def execManifestPut (h : CmdHdr) (off total : Word) (data : Bytes) (s : State) : Host.Outcome State Fault Refusal :=
  .next (
    let n := h.part.val
    let ok := data.length ≠ 0 && off.toNat + data.length ≤ total.toNat
    s.command h true false ok (s.partState n ≠ 0 && (s.prt n).usable && !s.wgtBusy n) true 0 (fun s =>
      let w := (s.prt n).wgt
      let old := if off = 0 then [] else w.collect
      let b := putPiece old off.toNat data
      if off.toNat + data.length < total.toNat then
        (s.modWgt n (fun w => { w with collect := b })).done h false stOK 0 []
      else
        let st := s.judgeManifest n b
        let s := s.modWgt n (fun w => { w with
          collect := [], manifest := if st = stOK then some (manifestOf b) else w.manifest })
        (s.when (st = stOK) (fun s => s.catchUp n (manifestOf b))).done h false st 0 []))

/-! ## Staging (R263 to R268) -/

/-- The shards that a layer's images on a slot lie in. -/
def Manifest.shardsOf (m : Manifest) (l : ManLayer) (slot : Nat) : List Nat :=
  ((m.placesAt l slot).filterMap (fun i => (m.places[i]?).map Place.shard)).eraseDups

/-- A shard that failed is asked for again (R265): the source up to 3 times, then the mirror holder, for own shards alone. -/
def State.shardAgain (s : State) (n : Nat) (x : ShardSt) (epoch : Nat) : State :=
  if x.asked < 3 then s.shardAsk n x.num s.shardSource epoch
  else if x.mirror then s
  else match s.mirrorSlot with
    | some d => if x.asked = 3 then s.shardAsk n x.num d epoch else s
    | none => s

/-- The bytes of a shard on the way: its length with the tag. -/
def shardWire (m : Manifest) (num : Nat) : Nat :=
  ((m.shards[num]?).map ManShard.length).getD 0 + (if m.encrypted then 16 else 0)

/-- How far the segments reach without a gap. -/
def reachFrom : Nat → List (Nat × Bytes) → Nat → Nat
  | 0, _, at_ => at_
  | k + 1, l, at_ =>
    match l.find? (fun x => x.1 ≤ at_ && at_ < x.1 + x.2.length) with
    | some x => reachFrom k l (x.1 + x.2.length)
    | none => at_

/-- The plaintext of a complete shard, when length, tag and digest pass (R264, R265). -/
def State.shardOpen (s : State) (n : Nat) (m : Manifest) (x : ShardSt) : Option Bytes :=
  match m.shards[x.num]? with
  | none => none
  | some d =>
    let raw := x.segs.foldl (fun b g => putPiece b g.1 g.2) []
    if reachFrom x.segs.length x.segs 0 ≠ shardWire m x.num || raw.length ≠ shardWire m x.num then none
    else
      let key := Sparse.get (fun _ => 0) s.sec.tenantKeys n
      let plain := if m.encrypted then
          Config.gcmOpen key (leBytes 8 m.nonceBase ++ leBytes 4 x.num) d.entry raw
        else some raw
      match plain with
      | some p => if p.length = d.length ∧ Config.sha512 p = d.digest then some p else none
      | none => none

/-- The row image of a WT layer holds the refused pattern 10 (R73). -/
def wtBad (row : BitVec 1024) : Bool := (List.range 512).any (fun j => row.toNat / 4 ^ j % 4 = 2)

/-- An array image passes R73 and R74: no WT pattern 10, no scale byte 0xFF, in W4 paired two equal halves, and in W3 bit 1,023 is 0
(DEDUCED, log entry 70: R74 says that the bit is 0, and R266 has the images checked under R74). -/
def imageOkFor (mode : Nat) (b : Bytes) : Bool :=
  b.length = 133120 &&
  (List.range 1024).all (fun r =>
    let d := imageRow b r
    !(mode = 3 && wtBad d) && !(mode = 4 && d.toNat % 2 ^ 512 ≠ d.toNat / 2 ^ 512) && !(mode = 1 && d.getLsbD 1023)) &&
  !(b.drop 131072).any (fun x => x = 0xFF)

/-- A tensor scale that R81 accepts: positive, normal and finite. -/
def tensorScaleOk (w : Word) : Bool := !signOf w && 0 < expOf w && expOf w < 255

/-- A layer passes R266: its images under R73 and R74, its tensor scale under R81, its placement under R103. -/
def layerPasses (l : ManLayer) (imgs : List Bytes) : Bool :=
  tensorScaleOk l.tw && !(l.sensitive && (l.kind = 0 || l.kind = 2)) &&
  (l.kind = 1 || l.kind = 3 || imgs.all (imageOkFor l.format))

/-- A layer is settled: staged or failed. -/
def WgtSt.settled (w : WgtSt) (layer : Nat) : Bool := w.staged.contains layer || w.failed.any (fun f => f.1 = layer)

/-- A shard has passed R265. -/
def WgtSt.hasShard (w : WgtSt) (k : Nat) : Bool := w.shards.any (fun x => x.num = k && x.verified)

/-- The images of the placements of a slot that lie in a shard, put into an image slot. -/
def putImages (m : Manifest) (slot shard : Nat) (plain : Bytes) (x : ImageSlot) : ImageSlot :=
  { x with images := (List.range m.places.length).foldl (fun im i =>
      match m.places[i]? with
      | some p => if p.slot = slot && p.shard = shard then
          Sparse.set (fun _ => []) im i ((plain.drop p.offset).take p.length) else im
      | none => im) x.images }

/-- Show the low byte of a failure status. -/
def State.wgtFail (s : State) (n st : Nat) : State := s.setF (F.partWgtStatusFail n) (st % 256)

/-- The canary table's entries of array images of a slot (R117): "The canary range, segment size and mode are those the program declares
for the array's layer"; the mode and segment size are the manifest's, which R276 has the program's follow. The tile is the one that the
logical tile maps to, or `tile`. -/
def State.fillCanary (s : State) (n : Nat) (m : Manifest) (tile : Option Nat) (places : List Nat) (x : ImageSlot) : ImageSlot :=
  { x with canary := places.foldl (fun c i =>
      match m.places[i]?, m.layerOf i with
      | some p, some l =>
        if (l.kind = 0 || l.kind = 2) && p.array ≤ 127 then
          let size := segRows l.seg
          Sparse.set (fun _ => []) c i (imageCanary ((tile <|> s.phys p.ltile).getD p.ltile) p.array l.format size
            (rangeOf (s.slotOfLayer n l.layer).range size) (Sparse.get (fun _ => []) x.images i))
        else c
      | _, _ => c) x.canary }

/-- The entries of every image of the resident and staging slots, when a program declares other ranges. -/
def State.refillCanary (s : State) (n : Nat) : State :=
  let fill := fun (x : ImageSlot) => match x.man with
    | some m => s.fillCanary n m none ((x.images.map Prod.fst).filter (fun i => (List.lookup i x.canary).isSome)) x
    | none => x
  s.modWgt n (fun w => { w with resident := fill w.resident, staging := fill w.staging })

/-- The factors F and G that the loader forms for an entry, from its T_a and the matrix's T_w (R82). -/
def LayerSlot.formFactors (e : LayerSlot) (l : ManLayer) : LayerSlot := { e with g := recip32 e.ta, f := mulF false e.ta l.tw }

/-- The layer table of a program with the factors that the loader forms for the layers of a manifest (R82). -/
def Manifest.formAll (m : Manifest) (es : List LayerSlot) : List LayerSlot :=
  es.map (fun e => match m.layers.find? (fun l => l.layer = e.layer) with | some l => e.formFactors l | none => e)

/-- The loader forms the factors of partition n's loaded program for its resident matrices. -/
def State.formFactors (s : State) (n : Nat) : State :=
  match (s.prt n).wgt.resident.man with
  | some m => s.modPrt n (fun x => { x with prog := x.prog.map (fun p => { p with layers := m.formAll p.layers }) })
  | none => s

/-- The activation tensor scales that the loaded program carries for a layer pass R81. -/
def State.actScalesOk (s : State) (n layer : Nat) : Bool :=
  match (s.prt n).prog with
  | some p => (s.layerSlotsOf n layer).all (fun k => tensorScaleOk (p.layers.getD k {}).ta)
  | none => true

/-- Judge the layers whose shards have all passed (R266): a layer that passes has its canary values computed. -/
def State.judgeLayers (s : State) (n : Nat) (m : Manifest) : State :=
  s.each (m.layersOn s.placeSlot) (fun s l =>
    let w := (s.prt n).wgt
    if w.settled l.layer || !(m.shardsOf l s.placeSlot).all w.hasShard then s
    else
      let imgs := (m.placesAt l s.placeSlot).map (fun i => Sparse.get (fun _ => []) w.staging.images i)
      if layerPasses l imgs && s.actScalesOk n l.layer then
        s.modWgt n (fun w => { w with staged := w.staged ++ [l.layer], staging := s.fillCanary n m none (m.placesAt l s.placeSlot) w.staging })
      else (s.modWgt n (fun w => { w with failed := w.failed ++ [(l.layer, stBadParam)] })).wgtFail n stBadParam)

/-- The first placement of each array of a streamed layer on this module: the first two images of each pair of arrays (R281). -/
def State.firstImages (s : State) (m : Manifest) (l : ManLayer) : List Nat :=
  let key := fun i => (m.places[i]?).map (fun p => (p.ltile, p.array))
  ((m.placesAt l s.placeSlot).filter (fun i => match m.places[i]? with | some p => p.array ≤ 127 | none => false)).foldl
    (fun l i => if l.any (fun j => key j = key i) then l else l ++ [i]) []

/-- The array and DE placements of a layer on this module: what the loader writes. -/
def State.loaderPlaces (s : State) (m : Manifest) (l : ManLayer) : List Nat :=
  if l.kind = 0 ∨ l.kind = 1 then m.placesAt l s.placeSlot
  else if l.kind = 2 then s.firstImages m l
  else []

/-- At the start of a program the loader writes the first two images of each pair of arrays of the streamed layers (R281). -/
def State.startImages (s : State) (n : Nat) : State :=
  match (s.prt n).wgt.resident.man with
  | none => s
  | some m =>
    let new := ((m.layersOn s.placeSlot).filter (fun l => l.kind = 2)).flatMap (s.firstImages m)
    if new.isEmpty then s
    else s.modWgt n (fun w => { w with
      loading := w.loading ++ (new.filter (fun i => !w.loading.any (fun x => x.1 = i))).map (fun i => (i, 0)), fromResident := true })

/-- Queue every layer on this module for the loader (R272, R287). -/
def State.loadAll (s : State) (n : Nat) (m : Manifest) (fromResident : Bool) : State :=
  s.modWgt n (fun w => { w with
    loading := ((m.layersOn s.placeSlot).flatMap (s.loaderPlaces m)).map (fun i => (i, 0)), tries := []
    fromResident := fromResident })

/-- The stream area takes the images of a streamed layer (R276, R281). -/
def WgtSt.fillStream (w : WgtSt) (m : Manifest) (places : List Nat) (src : ImageSlot) : WgtSt :=
  { w with stream := places.foldl (fun st i =>
      match m.places[i]? with
      | some p => let b := Sparse.get (fun _ => []) src.images i
        Sparse.setRange (fun _ => 0) st p.dest b.length (fun j => b.getD j 0)
      | none => st) w.stream }

/-- Every streamed layer's images on this module go into the stream area. -/
def State.streamAll (s : State) (n : Nat) (m : Manifest) (src : ImageSlot) : State :=
  s.modWgt n (fun w => w.fillStream m (((m.layersOn s.placeSlot).filter (fun l => l.kind = 2)).flatMap (fun l => m.placesAt l s.placeSlot)) src)

/-- The epoch registers of a partition (Table 9.7): the current epoch, and that of every layer slot. -/
def State.setEpoch (s : State) (n : Nat) (e : Nat) : State :=
  let s := (s.modWgt n (fun w => { w with epoch := BitVec.ofNat 64 e })).setF (F.partWgtEpochLoEpoch n) e
  s.each (List.range 64) (fun s k => s.setF (F.partWgtLepochEpoch n k) e)

/-- The staging slots become the resident slots (R272, R278, R285). -/
def State.adopt (s : State) (n : Nat) (m : Manifest) : State :=
  ((s.modWgt n (fun w => { w with
      resident := w.staging, staging := {}, mirrorRes := w.mirrorStg, mirrorStg := {}, manifest := none, resShards := w.shards
      staged := [], failed := [], firstLoad := false, slotB := !w.slotB, ready := w.ready || w.behind.isSome, behind := none })).setEpoch n m.epoch).setF (F.partWgtStatusStage n) 0 |>.formFactors n

/-- The staging has been settled (R267, R268, R272): the command completes once every layer is staged or failed; the module is
staged when its mirrored shards have passed too; the first load of a partition with no current epoch then starts. -/
def State.stageCheck (s : State) (n : Nat) (m : Manifest) : State :=
  let w := (s.prt n).wgt
  let layers := (m.layersOn s.placeSlot).map ManLayer.layer
  if !s.staging n || !layers.all w.settled then s
  else
    match (w.failed.mergeSort (fun a b => a.1 ≤ b.1)).head? with
    | some f =>
      ((s.setF (F.partWgtStatusStage n) 3).wgtFail n f.2).completeAll 0x0301 (some n) f.2 f.1 []
    | none =>
      let s := s.completeAll 0x0301 (some n) stOK 0 []
      if !(w.shards.filter (fun x => x.mirror)).all (fun x => x.verified) then s
      else
        let s := s.setF (F.partWgtStatusStage n) 2
        if (w.epoch ≠ 0 ∨ w.resident.man.isSome) ∧ w.behind ≠ some m.epoch then s
        else
          let s := (s.streamAll n m w.staging).loadAll n m false
          let s := s.modWgt n (fun w => { w with firstLoad := true })
          if (s.prt n).wgt.loading.isEmpty then s.adopt n m else s

/-- STAGE (R267, R268): the deadline is 0, for 2 s, or 100 to 60,000 ms. -/
def execStage (h : CmdHdr) (deadlineMs : Word) (s : State) : Host.Outcome State Fault Refusal :=
  .next (
    let n := h.part.val
    let d := deadlineMs.toNat
    let st := s.getF (F.partWgtStatusStage n)
    s.command h true false (d = 0 || (100 ≤ d && d ≤ 60000))
      (s.partState n ≠ 0 && (s.prt n).wgt.manifest.isSome &&
        (st ≠ 2 || (s.prt n).wgt.staging.man ≠ (s.prt n).wgt.manifest) && !s.wgtBusy n) true 0 (fun s =>
      match (s.prt n).wgt.manifest with
      | none => s
      | some m =>
        let s := s.modWgt n (fun w => { w with
          staging := { man := some m }, mirrorStg := { man := some m }, shards := s.wantedShards m, staged := [], failed := [] })
        let s := (s.setF (F.partWgtStatusStage n) 1).outstand h 0x0301 d
        (s.judgeLayers n m).stageCheck n m))

/-- The arrays of a partition's resident slot on this module: the slot has passed its hash (R287). -/
def State.hashPassed (s : State) (n : Nat) (m : Manifest) : State :=
  s.each ((List.range m.places.length).filterMap (fun i => (m.places[i]?).bind (fun p =>
      if p.slot = s.placeSlot && p.array ≤ 127 then (s.phys p.ltile).map (fun t => (t, p.array)) else none))) (fun s x =>
    s.modArr x.1 x.2 (fun y => { y with hashOk := true }))

/-- A verified shard of the resident slot that was asked for again (R287). -/
def State.refill (s : State) (n : Nat) (m : Manifest) (shard : Nat) (p : Bytes) : State :=
  let s := s.modWgt n (fun w => { w with resident := putImages m s.placeSlot shard p w.resident })
  if (s.prt n).wgt.shards.all (fun x => x.verified || x.mirror) then s.hashPassed n m else s

/-- A segment of a shard lands (R263 to R266, R287). -/
def State.shardSeg (s : State) (n shard off epoch : Nat) (data : Bytes) : State :=
  let w := (s.prt n).wgt
  let stg := s.staging n
  match (if stg then w.staging.man else w.resident.man), w.shards.find? (fun x => x.num = shard) with
  | some m, some x =>
    if x.verified || epoch ≠ m.epoch % 2 ^ 32 || shardWire m shard < off + data.length then s
    else
      let x := { x with segs := x.segs ++ [(off, data)] }
      let put := fun (s : State) (y : ShardSt) =>
        s.modWgt n (fun w => { w with shards := w.shards.map (fun z => if z.num = shard then y else z) })
      if off + data.length < shardWire m shard then put s x
      else
        match s.shardOpen n m x with
        | none => (put s { x with segs := [], asked := x.asked + 1 }).shardAgain n x m.epoch
        | some p =>
          let s := put s { x with segs := [(0, x.segs.foldl (fun b g => putPiece b g.1 g.2) [])], verified := true }
          if !stg then
            if x.mirror then s.modWgt n (fun w => { w with mirrorRes := putImages m (s.slotEntry s.placeSlot).buddy shard p w.mirrorRes })
            else s.refill n m shard p
          else
            let s := s.modWgt n (fun w =>
              if x.mirror then { w with mirrorStg := putImages m (s.slotEntry s.placeSlot).buddy shard p w.mirrorStg }
              else { w with staging := putImages m s.placeSlot shard p w.staging })
            (s.judgeLayers n m).stageCheck n m
  | _, _ => s

/-- SHARD_SEG (R263 to R266). -/
def execShardSeg (n : PartN) (shard : Word) (off : Nat) (epoch : Word) (data : Bytes) (s : State) : Host.Outcome State Fault Refusal :=
  .next (s.shardSeg n shard.toNat off epoch.toNat data)

/-- The bytes of SHARD_SEG. -/
def segBytes (shard off epoch : Nat) (data : Bytes) : Bytes :=
  leBytes 4 shard ++ leBytes 4 off ++ leBytes 4 data.length ++ leBytes 4 epoch ++ data

/-- A segment to the module that uses the shard and to that module's mirror holder (R263). -/
def State.sendSeg (s : State) (n : Nat) (m : Manifest) (shard off : Nat) (data : Bytes) : State :=
  match m.shards[shard]? with
  | none => s
  | some d =>
    let mirror := ((s.firn.topo.slots).find? (fun e => e.present && e.buddy = d.slot && e.slot ≠ d.slot)).map (·.slot)
    let dests := (d.slot :: mirror.toList).eraseDups
    s.each dests (fun s x =>
      if x = s.slot then s.shardSeg n shard off (m.epoch % 2 ^ 32) data
      else s.sendMsg { cls := 7, part := n, dest := x, stream := 0x0300, payload := segBytes shard off m.epoch data })

/-- SHARD_PUT (R263): the segment leaves the bridge for the modules that need it. -/
def execShardPut (h : CmdHdr) (shard off : Word) (data : Bytes) (s : State) : Host.Outcome State Fault Refusal :=
  .next (
    let n := h.part.val
    let m := (s.prt n).wgt.staging.man
    let ok := match m with
      | some m => shard.toNat < m.shards.length && data.length ≤ 61400 && off.toNat + data.length ≤ shardWire m shard.toNat
      | none => true
    s.command h true false ok (s.staging n && m.isSome) true 0 (fun s =>
      match m with
      | some m => (s.sendSeg n m shard.toNat off.toNat data).done h false stOK 0 []
      | none => s))

/-- SHARD_REQ (R265, R285): the module that holds the verified shard, as its own or as a mirror, sends the range that is asked for
again as it came, in segments of at most 61,424 bytes. -/
def execShardReq (slot : SlotN) (n : PartN) (shard : Word) (off len : Nat) (epoch : Word) (s : State) :
    Host.Outcome State Fault Refusal :=
  .next (
    let w := (s.prt n).wgt
    let l := if w.staging.man.map (fun m => m.epoch % 2 ^ 32) = some epoch.toNat then w.shards else w.resShards ++ w.shards
    match l.find? (fun x => x.num = shard.toNat && x.verified) with
    | none => s
    | some x =>
      let raw := (x.segs.map Prod.snd).flatten
      let bs := if len = 0 then raw else (raw.drop off).take len
      let at_ := if len = 0 then 0 else off
      s.each (List.range ((bs.length + 61423) / 61424)) (fun s i =>
        s.sendMsg { cls := 7, part := n, dest := slot, stream := 0x0300
                    payload := segBytes shard.toNat (at_ + 61424 * i) epoch.toNat ((bs.drop (61424 * i)).take 61424) }))

/-- LOAD_DEADLINE (R265, R267): layers that are not settled fail. A shard that was asked for again and has not come is missing. -/
def execLoadDeadline (n : PartN) (s : State) : Host.Outcome State Fault Refusal :=
  .next (
    match (s.prt n).wgt.staging.man with
    | none => s
    | some m =>
      if !s.staging n then s
      else
        let w := (s.prt n).wgt
        let late := (m.layersOn s.placeSlot).filter (fun l => !w.settled l.layer)
        let status := fun (l : ManLayer) =>
          if (m.shardsOf l s.placeSlot).any (fun k => w.shards.any (fun x => x.num = k && !x.verified &&
              reachFrom x.segs.length x.segs 0 < shardWire m k &&
              (!x.segs.isEmpty || x.asked ≤ 3 || (x.asked = 4 && !x.mirror && s.mirrorSlot.isSome))))
          then stShardMissing else stDigest
        let s := s.modWgt n (fun w => { w with failed := w.failed ++ late.map (fun l => (l.layer, status l)) })
        if late.isEmpty then s.setF (F.partWgtStatusStage n) 3 else s.stageCheck n m)

/-! ## The loader (R269 to R272) -/

/-- The image slot that the loader writes from. -/
def WgtSt.loadFrom (w : WgtSt) : ImageSlot := if w.fromResident then w.resident else w.staging

/-- A sum over the tenant partitions, partition n aside. -/
def State.tenantSum (s : State) (but : Nat) (f : Nat → Nat) : Nat :=
  ((List.range 16).filter (fun k => k ≠ 0 && k ≠ but && s.partState k ≠ 0)).foldl (fun m k => m + f k) 0

/-- The sum of the tenant shares in force, partition n aside. -/
def State.shareSum (s : State) (but : Nat) : Nat := s.tenantSum but (fun k => s.getF (F.partQosHbmShare k))

/-- A partition's share from the next window boundary on, when overrides that wait take effect or end (R342). -/
def PartSt.shareNext (x : PartSt) : Nat :=
  match x.overrideNext with
  | some o => (o.map Override.share).getD x.share
  | none => (x.override.map Override.share).getD x.share

/-- The share of a partition in force (R334, R342). -/
def State.shareOf (s : State) (n : Nat) : Nat := if n = 0 then 256 - s.shareSum 0 else s.getF (F.partQosHbmShare n)

/-- The queued placements of the layer that the loader writes now: the layer of the first one. -/
def WgtSt.headPlaces (w : WgtSt) (m : Manifest) : List (Nat × Nat) :=
  match w.loading with
  | [] => []
  | x :: _ => w.loading.filter (fun y => (m.layerOf y.1).map ManLayer.layer = (m.layerOf x.1).map ManLayer.layer)

/-- How many arrays of layer l the loader writes at once (R271): min(240, 4 T, ⌊S / 16 GB/s⌋) for T tiles of the module that hold the
layer, where a share of 256 is 4.0 TB/s; never less than one. -/
def State.loaderWidth (s : State) (n : Nat) (m : Manifest) (l : ManLayer) : Nat :=
  let tiles := (((m.placesAt l s.placeSlot).filterMap (fun i => (m.places[i]?).map Place.ltile)).eraseDups).length
  max 1 (min 240 (min (4 * tiles) (s.shareOf n * 125 / 128)))

/-- The loader may write this placement's line now (R58, R271, R272): it is among the arrays under way of the head layer, no running
program can use the layer, and in an array the row port is free of a multiply's conversions and of accesses asked for before (R57). -/
def State.mayLoad (s : State) (n t : Nat) (m : Manifest) (l : ManLayer) (p : Place) (place line : Nat) : Bool :=
  let w := (s.prt n).wgt
  ((w.headPlaces m).take (s.loaderWidth n m l)).contains (place, line) && s.tileOn t &&
  (!s.running n || (match w.swap with | some sw => sw.rewriting.contains l.layer | none => false)) &&
  (l.kind = 1 || (!(s.arr t p.array).fwWaits && if line < 1024 then (s.arr t p.array).convDone (1024 / s.segSize t p.array) else (s.arr t p.array).mul.isNone))

/-- Lines of a placement: rows and scale lines of an array image, 128-byte rows of a DE image. -/
def placeLines (l : ManLayer) (p : Place) : Nat :=
  if l.kind = 1 then (p.length + 127) / 128 else 1024 + (4 * logCols l.format + 63) / 64

/-- The loader has written and verified a line (R269): on to the next, or the image is done. -/
def State.lineDone (s : State) (n i lines : Nat) : State :=
  s.modWgt n (fun w => { w with
    tries := w.tries.filter (fun x => x.1 ≠ i)
    loading := w.loading.filterMap (fun x =>
      if x.1 = i then (if x.2 + 1 < lines then some (i, x.2 + 1) else none) else some x) })

/-- How often the current line of a placement has read back wrong (R270). -/
def WgtSt.triesOf (w : WgtSt) (i : Nat) : Nat := (List.lookup i w.tries).getD 0

/-- A line has read back wrong once more. -/
def State.lineFailed (s : State) (n i : Nat) : State :=
  s.modWgt n (fun w => { w with tries := (i, w.triesOf i + 1) :: w.tries.filter (fun x => x.1 ≠ i) })

/-- Write an array's configuration with its weights (R51, R69, R272): the layer's mode and segment size, and the range reserve that the
program declares for the layer (1, the register's reset value, where no program does). -/
def State.loadCfg (s : State) (n t a : Nat) (l : ManLayer) (loaded : Bool) : State :=
  let reserve := match (s.prt n).prog.bind (fun p => p.layers.find? (fun e => e.layer = l.layer)) with
    | some e => e.reserve
    | none => 1
  ((((s.setFlag (F.arrCfgLoaded t a) loaded).setMode t a l.format).setF (F.arrCfgSeg t a) l.seg).setF (F.arrCfgReserve t a) reserve)

/-- The image of placement i of a slot has been written into array a of tile t (R117, R272). -/
def State.arrayDone (s : State) (n t a i : Nat) (m : Manifest) (l : ManLayer) (resident : Bool) : State :=
  let s := (s.loadCfg n t a l true).modArr t a (fun x => { x with held := some i })
  s.modWgt n (fun w => if resident then { w with resident := s.fillCanary n m (some t) [i] w.resident }
    else { w with staging := s.fillCanary n m (some t) [i] w.staging })

/-- Write one line of a placement into its array or tile store (R269). -/
def State.loadLine (s : State) (n t : Nat) (l : ManLayer) (p : Place) (img : Bytes) (line : Nat) : State :=
  if l.kind = 1 then s.modTile t (fun x => x.put (s.pbEnd t + p.dest + 128 * line) ((img.drop (128 * line)).take 128))
  else
    let a := p.array
    let s := s.when (line = 0) (fun s => s.loadCfg n t a l false)
    if line < 1024 then
      s.putRow t a line (imageRow img line)
    else s.modArr t a (fun x => x.setLine (line - 1024) (imageLine img (line - 1024)))

/-- What a line should read back as. -/
def loadWant (l : ManLayer) (img : Bytes) (line : Nat) : BitVec 1024 :=
  if l.kind = 1 then BitVec.ofNat 1024 (fieldAt img (128 * line) 128)
  else if line < 1024 then portData l.format (imageRow img line)
  else BitVec.ofNat 1024 (leNat (imageLine img (line - 1024)))

/-- All that was queued has been written: a first load makes the staging slot resident (R272); a restore from the resident slot is
complete. -/
def State.loadDone (s : State) (n : Nat) : State :=
  let w := (s.prt n).wgt
  if !w.loading.isEmpty then s
  else if w.firstLoad then match w.staging.man with | some m => s.adopt n m | none => s
  else if w.swap.isNone then s.modWgt n (fun w => { w with fromResident := false })
  else s

/-- A row of an array has been written from its image and has read back right: it is suspect no more (R62, R287). -/
def State.rowVerified (s : State) (t a row : Nat) : State :=
  (s.modArr t a (fun x => { x with suspects := x.suspects.filter (· ≠ row), rewrite := x.rewrite.filter (· ≠ row) })).showSuspects t a

/-- Where a line of an image that the loader reads begins in HBM4 (R258): images lie in the image slots, in an order that no rule gives. -/
def State.loadAddr (s : State) (n place line : Nat) : Nat :=
  let w := (s.prt n).wgt
  Config.weightBase n (if w.fromResident then 1 + bit w.slotB else 2 - bit w.slotB) + Config.imageOffset n place + 128 * line

/-- LOADER_ROW_WRITE (R269, R270): the loader reads the line's two bursts from the partition's bucket (R271, R339, R340),
writes it and reads it back as `readback`. A line that differs is written once more; one that differs again has a column fault on each
bit-column that differs; the third write comes when their repairs are complete, and a third failure fails the rewrite; while a supply warning leaves columns unrepaired, the second write is made again (R119). `attempt` is the write's number, which the loader's own count decides. -/
def execLoaderRowWrite (n : PartN) (place : Nat) (line : Nat) (attempt : Fin 3) (readback : BitVec 1024) (s : State) :
    Host.Outcome State Fault Refusal :=
  .next (
    let w := (s.prt n).wgt
    match w.loadFrom.man with
    | none => s
    | some m =>
      match m.places[place]?, m.layerOf place with
      | some p, some l =>
        match s.phys p.ltile with
        | none => s
        | some t =>
          if !s.mayLoad n t m l p place line || w.triesOf place ≠ attempt.val ||
              (attempt = 2 && l.kind ≠ 1 && !(s.arr t p.array).fills.isEmpty) || !s.linesGood (s.loadAddr n place line) 128 then s
          else if !s.hbmServed n (s.loadAddr n place line) 2 (loadKey place) then s.hbmPay n (s.loadAddr n place line) 2 (loadKey place)
          else
            let s := s.hbmPay n (s.loadAddr n place line) 2 (loadKey place)
            let img := Sparse.get (fun _ => []) w.loadFrom.images place
            let want := loadWant l img line
            let s := s.loadLine n t l p img line
            if readback = want then
              let lines := placeLines l p
              let s := (s.lineDone n place lines).when (l.kind ≠ 1 && line < 1024) (fun s => s.rowVerified t p.array line)
              let s := s.when (line + 1 = lines && l.kind ≠ 1) (fun s => s.arrayDone n t p.array place m l w.fromResident)
              s.loadDone n
            else if attempt = 0 then (s.lineFailed n place).addF (F.partWgtCntReadbackErr n) 1
            else if attempt = 1 then
              let cols := (List.range 1024).filter (fun c => readback.getLsbD c ≠ want.getLsbD c)
              let isRow := decide (l.kind ≠ 1 ∧ line < 1024)
              (s.when (!(isRow && s.supplyActive)) (fun s => s.lineFailed n place)).when isRow (fun s =>
                s.each cols (fun s c => s.repairCol t p.array (physCol c) 0x0F05))
            else s.modWgt n (fun w => { w with rewriteFail := true })
      | _, _ => s)

/-! ## Swaps (R273 to R280) -/

/-- The bytes of a SWAP_CTRL message (Table 8.11). -/
def swapBytes (op n status dtl epoch : Nat) : Bytes := leBytes 1 op ++ leBytes 1 n ++ leBytes 2 status ++ leBytes 4 dtl ++ leBytes 8 epoch

/-- Send SWAP_CTRL. -/
def State.swapCtrl (s : State) (d op n status dtl epoch : Nat) : State := s.sendMgmt d 0x0302 (swapBytes op n status dtl epoch)

/-- Change the swap of a partition. -/
def State.modSwap (s : State) (n : Nat) (f : SwapSt → SwapSt) : State := s.modWgt n (fun w => { w with swap := w.swap.map f })

/-- The epoch that a module is staged for. -/
def State.stagedFor (s : State) (n epoch : Nat) : Bool :=
  s.getF (F.partWgtStatusStage n) = 2 && (match (s.prt n).wgt.staging.man with | some m => m.epoch = epoch | none => false)

/-- The status and detail of this module's staging failure (R267, R273): WRONG_STATE where it has none. -/
def State.stageStatus (s : State) (n : Nat) : Nat × Nat :=
  match ((s.prt n).wgt.failed.mergeSort (fun a b => a.1 ≤ b.1)).head? with
  | some f => (f.2, f.1)
  | none => (stWrongState, 0)

/-- This module takes part in a swap to an epoch. -/
def State.swapBegin (s : State) (n epoch : Nat) (coord : Bool) (limit : Nat) : State :=
  let saved := ((s.prt n).prog.map Prog.layers).getD []
  (s.modWgt n (fun w => { w with swap := some { epoch := epoch, coord := coord, limit := limit, saved := saved }, rewriteFail := false })).setF
    (F.partWgtStatusLayersDone n) 0

/-- All modules of the service have reported staged: the coordinator fixes the cutover (R274). -/
def State.swapStaged (s : State) (n slot : Nat) : State :=
  match (s.prt n).wgt.swap with
  | none => s
  | some sw =>
    let reports := (slot :: sw.reports).eraseDups
    let all := (s.slot :: s.modulesOf n).all reports.contains
    let s := s.modSwap n (fun sw => { sw with reports := reports, cutover := sw.cutover || all })
    s.when all (fun s => s.setF (F.partWgtStatusSwap n) 2)

/-- SWAP (R273, R280). -/
def execSwap (h : CmdHdr) (limitMs : Word) (s : State) : Host.Outcome State Fault Refusal :=
  .next (
    let n := h.part.val
    let l := limitMs.toNat
    let front := (s.prt n).svcs.any s.isFront
    s.command h true false (l = 0 || (10 ≤ l && l ≤ 60000)) (s.running n && front && !s.wgtBusy n) true 0 (fun s =>
      match (s.prt n).wgt.staging.man with
      | none => s.done h false stWrongState 0 []
      | some m =>
        if !s.stagedFor n m.epoch then let x := s.stageStatus n; s.done h false x.1 x.2 []
        else
          let s := ((s.swapBegin n m.epoch true (if l = 0 then 1000 else l)).setF (F.partWgtStatusSwap n) 1).outstand h 0x0303 m.epoch
          (s.each (s.modulesOf n) (fun s d => s.swapCtrl d 0 n 0 0 m.epoch)).swapStaged n s.slot))

/-- The swap is over on this module. -/
def State.swapEnd (s : State) (n : Nat) : State :=
  (s.modWgt n (fun w => { w with swap := none, rewriteFail := false, fromResident := false })).setF (F.partWgtStatusSwap n) 0

/-- SWAP_CTRL_QUERY (R273): STAGED, or STAGE_FAILED with the status. -/
def execSwapCtrlQuery (slot : SlotN) (n : PartN) (epoch : BitVec 64) (s : State) : Host.Outcome State Fault Refusal :=
  .next (
    let s := s.modWgt n (fun w => { w with coordSlot := slot })
    if s.stagedFor n epoch.toNat && (s.prt n).wgt.swap.isNone then
      ((s.swapBegin n epoch.toNat false 0).setF (F.partWgtStatusSwap n) 2).swapCtrl slot 1 n 0 0 epoch.toNat
    else
      let x := s.stageStatus n
      s.swapCtrl slot 2 n x.1 x.2 epoch.toNat)

/-- SWAP_CTRL_STAGED (R273, R274). -/
def execSwapCtrlStaged (slot : SlotN) (n : PartN) (epoch : BitVec 64) (s : State) : Host.Outcome State Fault Refusal :=
  match (s.prt n).wgt.swap with
  | some sw => if sw.coord && sw.epoch = epoch.toNat then .next (s.swapStaged n slot) else .next s
  | none => .next s

/-- Layers of this module that have changed to the new epoch. -/
def SwapSt.changed (sw : SwapSt) : List Nat := sw.drained.filter (fun l => !sw.rewriting.contains l && !sw.change.contains l)

/-- Roll this module back (R279): every layer that holds the new epoch is written from the resident slot, and streamed images are
copied back. -/
def State.rollBack (s : State) (n : Nat) : State :=
  let w := (s.prt n).wgt
  match w.swap, w.resident.man with
  | some sw, some m =>
    let ls := m.layers.filter (fun l => sw.drained.contains l.layer && !(m.placesAt l s.placeSlot).isEmpty)
    let s := (s.modSwap n (fun sw => { sw with
      rolling := true, drained := [], fronts := [], change := [], rewriting := ls.map ManLayer.layer })).setF (F.partWgtStatusSwap n) 5
    s.modWgt n (fun w => { w.fillStream m ((ls.filter (fun l => l.kind = 2)).flatMap (fun l => m.placesAt l s.placeSlot)) w.resident with
      loading := ls.flatMap (fun l => (s.loaderPlaces m l).map (fun i => (i, 0))), tries := [], fromResident := true
      rewriteFail := false })
  | some _, none => s.modSwap n (fun sw => { sw with rolling := true, drained := [], rewriting := [], change := [] })
  | none, _ => s

/-- The coordinator's requests of the new epoch go back to the old one (R279): held output and KV pages are discarded, and each
restarts from its first layer. -/
def State.rollRequests (s : State) (n : Nat) : State :=
  match (s.prt n).wgt.swap with
  | none => s
  | some sw =>
    let old := (s.prt n).wgt.epoch.toNat
    let hit := fun (r : Request) => decide (r.epoch = sw.epoch) && (r.active || r.state = .finish || r.state = .restart)
    let tags := ((s.prt n).svcs.filter s.isFront).flatMap (fun v => (v.reqs.filter hit).map (·.tag))
    let s := s.mapSvcs n (fun v => if !s.isFront v then v else v.mapReqs (fun r =>
      if hit r then
        { r with
          epoch := old, state := .restart, tokens := r.tokens.take r.promptLen, outBytes := [], sentBytes := 0, outTokens := 0
          passed := 0, redo := 0, closed := false, inFlight := false, endCode := none, rolledBack := true, held := false }
      else if r.epoch = sw.epoch then { r with epoch := old } else r))
    s.each tags (fun s t => ((s.kvRelease n t).addF (F.partWgtHoldRolledBack n) 1).irq n 3)

/-- The coordinator aborts the swap with a status (R279). -/
def State.swapAbort (s : State) (n status : Nat) : State :=
  match (s.prt n).wgt.swap with
  | none => s
  | some sw =>
    if !sw.coord || sw.rolling || sw.committed then s
    else
      let s := (s.modSwap n (fun sw => { sw with cause := status, done := [] })).wgtFail n status
      let s := s.each (s.modulesOf n) (fun s d => s.swapCtrl d 5 n status 0 sw.epoch)
      ((s.rollRequests n).rollBack n).irq n 3

/-- SWAP_CTRL_STAGE_FAILED (R273, R279): before the cutover the swap command completes with the module's status and nothing changes;
after it, the report of a failed rewrite aborts the swap. -/
def execSwapCtrlStageFailed (slot : SlotN) (n : PartN) (epoch : BitVec 64) (status : BitVec 16) (dtl : Word) (s : State) :
    Host.Outcome State Fault Refusal :=
  .next (
    let _ := slot
    match (s.prt n).wgt.swap with
    | none => s
    | some sw =>
      if !sw.coord || sw.epoch ≠ epoch.toNat then s
      else if sw.cutover then s.swapAbort n status.toNat
      else
        let s := s.each (s.modulesOf n) (fun s d => s.swapCtrl d 5 n status.toNat 0 sw.epoch)
        ((s.swapEnd n).wgtFail n status.toNat).completeAll 0x0303 (some n) status.toNat dtl.toNat [])

/-- The layers of a manifest with the next larger ORDER after o. -/
def Manifest.nextOrder (m : Manifest) (o : Nat) : Option Nat :=
  (m.layers.filter (fun l => o < l.order)).foldl (fun (b : Option Nat) l =>
    some (match b with | some x => min x l.order | none => l.order)) none

/-- The slots and layers that come next in data-flow order. -/
def Manifest.feeds (m : Manifest) (o : Option Nat) : List (Nat × Nat) :=
  match o with
  | none => []
  | some o => ((m.layers.filter (fun l => l.order = o)).flatMap (fun l =>
      (List.range l.placeCount).filterMap (fun i => (m.places[l.firstPlace + i]?).map (fun p => (p.slot, l.layer))))).eraseDups

/-- The lowest ORDER of a manifest. -/
def Manifest.firstOrder (m : Manifest) : Option Nat :=
  m.layers.foldl (fun (b : Option Nat) l => some (match b with | some x => min x l.order | none => l.order)) none

/-- Send the front to the modules that data now feeds (R276). -/
def State.sendFront (s : State) (n : Nat) (to_ : List (Nat × Nat)) (win epoch : Nat) : State :=
  s.each (to_.filter (fun x => x.1 ≠ s.slot)) (fun s x =>
    s.sendMgmt x.1 0x0303 (leBytes 1 n ++ leBytes 3 0 ++ leBytes 4 x.2 ++ leBytes 8 win ++ leBytes 8 epoch))

/-- A front that has arrived: the sending slot and the layer that it reaches, as one number. -/
def frontKey (slot layer : Nat) : Nat := slot * 2 ^ 32 + layer

/-- SWAP_FRONT (R276). -/
def execSwapFront (slot : SlotN) (n : PartN) (layer : Word) (window epoch : BitVec 64) (s : State) : Host.Outcome State Fault Refusal :=
  match (s.prt n).wgt.swap with
  | some sw =>
    if sw.epoch ≠ epoch.toNat || sw.rolling then .next s
    else .next ((s.modSwap n (fun sw => { sw with
      fronts := (frontKey slot layer.toNat :: sw.fronts).eraseDups
      cutover := true
      frontWin := some (max window.toNat (sw.frontWin.getD 0)) })).setF (F.partWgtStatusSwap n) 3)
  | none => .next s

/-- The front has come from everything that feeds a layer (R276): the layers of the ORDER before it, here and elsewhere, or the
coordinator for the first layers. -/
def State.fed (s : State) (n : Nat) (m : Manifest) (sw : SwapSt) (l : ManLayer) : Bool :=
  let before := m.layers.filter (fun k => k.order < l.order)
  if before.isEmpty then
    sw.frontWin.isSome && (sw.coord || sw.fronts.contains (frontKey (s.prt n).wgt.coordSlot l.layer))
  else
    let o := before.foldl (fun b k => max b k.order) 0
    (m.feeds (some o)).all (fun x =>
      if x.1 = s.placeSlot then sw.drained.contains x.2 else sw.fronts.contains (frontKey x.1 l.layer))

/-- LAYER_DRAINED (R276): every pass whose input was sent in the tagged window or before has left the layer. The front goes on at
once, and the rewrite starts. Layers of a module drain in ascending ORDER. -/
def execLayerDrained (n : PartN) (layer : Word) (s : State) : Host.Outcome State Fault Refusal :=
  .next (
    let w := (s.prt n).wgt
    match w.swap, w.staging.man with
    | some sw, some m =>
      match (m.layersOn s.placeSlot).find? (fun l => l.layer = layer.toNat) with
      | none => s
      | some l =>
        let early := (m.layersOn s.placeSlot).any (fun k => k.order < l.order && !sw.drained.contains k.layer)
        if sw.rolling || sw.drained.contains l.layer || early || !s.fed n m sw l then s
        else
          let s := s.modSwap n (fun sw => { sw with drained := sw.drained ++ [l.layer], rewriting := sw.rewriting ++ [l.layer] })
          let s := s.sendFront n (m.feeds (m.nextOrder l.order)) (sw.frontWin.getD s.win) sw.epoch
          let places := m.placesAt l s.placeSlot
          s.modWgt n (fun w =>
            let w := if l.kind = 2 then w.fillStream m places w.staging else w
            { w with loading := w.loading ++ (if l.kind ≤ 1 then places.map (fun i => (i, 0)) else []) })
    | _, _ => s)

/-- LAYER_REWRITE_DONE (R276, R279): the rewrite of a layer is verified; the change takes effect at the next window boundary. A
rewrite that failed is reported to the coordinator, which aborts. -/
def execLayerRewriteDone (n : PartN) (layer : Word) (s : State) : Host.Outcome State Fault Refusal :=
  .next (
    let w := (s.prt n).wgt
    match w.swap, w.loadFrom.man with
    | some sw, some m =>
      if !sw.rewriting.contains layer.toNat then s
      else if w.rewriteFail then
        if sw.coord then s.swapAbort n (Config.abortStatus 1)
        else s.swapCtrl w.coordSlot 2 n (Config.abortStatus 1) layer.toNat sw.epoch
      else if w.loading.any (fun x => ((m.layerOf x.1).map ManLayer.layer) = some layer.toNat) then s
      else s.modSwap n (fun sw => { sw with rewriting := sw.rewriting.filter (· ≠ layer.toNat), change := sw.change ++ [layer.toNat] })
    | _, _ => s)

/-- The commit on this module (R278). -/
def State.commit (s : State) (n : Nat) : State :=
  match (s.prt n).wgt.staging.man with
  | some m => ((s.swapEnd n).adopt n m).irq n 3
  | none => s.swapEnd n

/-- The coordinator has a report from every module (R278): COMMIT to all, and the command completes with OK. -/
def State.layersDone (s : State) (n slot : Nat) : State :=
  match (s.prt n).wgt.swap with
  | none => s
  | some sw =>
    let done := (slot :: sw.done).eraseDups
    let s := s.modSwap n (fun sw => { sw with done := done })
    if !(s.slot :: s.modulesOf n).all done.contains || sw.rolling then s
    else
      let s := (s.modSwap n (fun sw => { sw with committed := true })).setF (F.partWgtStatusSwap n) 4
      let s := s.each (s.modulesOf n) (fun s d => s.swapCtrl d 4 n 0 0 sw.epoch)
      (s.commit n).completeAll 0x0303 (some n) stOK 0 []

/-- SWAP_CTRL_LAYERS_DONE (R278). -/
def execSwapCtrlLayersDone (slot : SlotN) (n : PartN) (epoch : BitVec 64) (s : State) : Host.Outcome State Fault Refusal :=
  match (s.prt n).wgt.swap with
  | some sw => if sw.coord && sw.epoch = epoch.toNat then .next (s.layersDone n slot) else .next s
  | none => .next s

/-- SWAP_CTRL_COMMIT (R278). -/
def execSwapCtrlCommit (n : PartN) (epoch : BitVec 64) (s : State) : Host.Outcome State Fault Refusal :=
  match (s.prt n).wgt.swap with
  | some sw => if sw.epoch = epoch.toNat && !sw.coord then .next (s.commit n) else .next s
  | none => .next s

/-- SWAP_CTRL_ROLLBACK (R279): a module that takes no part in a swap has nothing to write and answers at once. -/
def execSwapCtrlRollback (slot : SlotN) (n : PartN) (epoch : BitVec 64) (s : State) : Host.Outcome State Fault Refusal :=
  match (s.prt n).wgt.swap with
  | some sw =>
    if sw.epoch = epoch.toNat && !sw.rolling then
      .next (((s.modWgt n (fun w => { w with coordSlot := slot })).rollBack n).irq n 3)
    else .next s
  | none => .next (s.swapCtrl slot 6 n 0 0 epoch.toNat)

/-- Every module has rolled back (R279): the swap command completes with EPOCH_ROLLED_BACK and the status that caused the abort. -/
def State.rolledBack (s : State) (n slot : Nat) : State :=
  match (s.prt n).wgt.swap with
  | none => s
  | some sw =>
    let done := (slot :: sw.done).eraseDups
    let s := s.modSwap n (fun sw => { sw with done := done })
    if !(s.slot :: s.modulesOf n).all done.contains then s
    else (s.swapEnd n).completeAll 0x0303 (some n) 0x0303 sw.cause []

/-- SWAP_CTRL_ROLLED_BACK (R279). -/
def execSwapCtrlRolledBack (slot : SlotN) (n : PartN) (epoch : BitVec 64) (s : State) : Host.Outcome State Fault Refusal :=
  match (s.prt n).wgt.swap with
  | some sw => if sw.coord && sw.rolling && sw.epoch = epoch.toNat then .next (s.rolledBack n slot) else .next s
  | none => .next s

/-- SWAP_LIMIT_EXPIRY (R279): COMMIT has not gone out within LIMIT of SWAP_FRONT. -/
def execSwapLimitExpiry (n : PartN) (s : State) : Host.Outcome State Fault Refusal :=
  match (s.prt n).wgt.swap with
  | some sw => if sw.coord && sw.frontWin.isSome then .next (s.swapAbort n (Config.abortStatus 0)) else .next s
  | none => .next s

/-- The layer slot entries of a layer change (R276, R279): to the new manifest's mode, segment size and F = round32(T_a × T_W) (R82) on
the way forward, to the saved entries on the way back. -/
def State.changeLayer (s : State) (n layer epoch : Nat) (back : Bool) : State :=
  let ks := s.layerSlotsOf n layer
  let w := (s.prt n).wgt
  let l := (if back then w.resident.man else w.staging.man).bind (fun m => m.layers.find? (fun l => l.layer = layer))
  let saved := (w.swap.map SwapSt.saved).getD []
  let upd := fun (k : Nat) (e : LayerSlot) =>
    if back then saved.getD k e
    else match l with
      | some l => { e.formFactors l with mode := if l.kind = 1 then e.mode else l.format, seg := if l.kind = 1 then e.seg else l.seg }
      | none => e
  let s := s.modPrt n (fun x => { x with prog := x.prog.map (fun p => { p with
    layers := (List.range p.layers.length).map (fun k => let e := p.layers.getD k {}; if ks.contains k then upd k e else e) }) })
  s.each ks (fun s k => s.setF (F.partWgtLepochEpoch n k) epoch)

/-- The swap at a window boundary: verified layers change (R276, R279); a module whose layers are all done reports; the coordinator
starts the front when the step that starts now holds no request of the old epoch. -/
def State.swapWindow (s : State) (n : Nat) : State :=
  let w := (s.prt n).wgt
  match w.swap with
  | none => s
  | some sw =>
    let old := w.epoch.toNat
    let s := s.each sw.change (fun s l => s.changeLayer n l (if sw.rolling then old else sw.epoch) sw.rolling)
    let s := s.modSwap n (fun sw => { sw with change := [] })
    if sw.rolling then
      if !sw.rewriting.isEmpty then s
      else if sw.coord then s.rolledBack n s.slot
      else (s.swapCtrl w.coordSlot 6 n 0 0 sw.epoch).swapEnd n
    else
      let layers := ((w.staging.man.map (fun m => m.layersOn s.placeSlot)).getD []).map ManLayer.layer
      let done := layers.filter (fun l => sw.drained.contains l && !sw.rewriting.contains l)
      let s := s.setF (F.partWgtStatusLayersDone n) done.length
      let oldReqs := ((s.prt n).svcs.filter s.isFront).flatMap (fun v => v.reqs.filter (fun r =>
        decide (r.epoch = old) && (r.active || (r.state = .queued && !r.tokens.isEmpty))))
      if sw.coord && sw.cutover && sw.frontWin.isNone then
        if !oldReqs.isEmpty then s
        else
          let s := (s.modSwap n (fun sw => { sw with frontWin := some s.win })).setF (F.partWgtStatusSwap n) 3
          match w.staging.man with
          | some m => s.sendFront n (m.feeds m.firstOrder) s.win sw.epoch
          | none => s
      else if done.length = layers.length && (!sw.done.contains s.slot || !sw.coord) && (sw.frontWin.isSome || (layers.isEmpty && !sw.coord)) then
        if sw.coord then s.layersDone n s.slot
        else if sw.done.contains s.slot then s
        else (s.swapCtrl w.coordSlot 3 n 0 0 sw.epoch).modSwap n (fun sw => { sw with done := s.slot :: sw.done })
      else s

/-! ## Firn image records and restores (R286, R287) -/

/-- The layers that the firn keeps. -/
def Manifest.persistent (m : Manifest) : List ManLayer := m.layers.filter (fun l => l.persistent)

/-- FIRN_IMAGE_WRITE_DONE (R286): the inactive record, written and read back, becomes the active one. It is encrypted under the image key,
which the identity secret and the salt in force give: the record is kept with that salt, and without it cannot be read (R435, log entry 89). -/
def execFirnImageWriteDone (n : PartN) (s : State) : Host.Outcome State Fault Refusal :=
  .next (
    let w := (s.prt n).wgt
    match w.resident.man with
    | none => s
    | some m =>
      if m.persistent.isEmpty || w.swap.isSome || s.firn.images.any (fun r => r.active && r.slot.man.map Manifest.bytes = some m.bytes) then s
      else
        let keep := (m.persistent.flatMap (fun l => m.placesAt l s.placeSlot))
        let rec_ : FirnImage := {
          part := n, tenant := s.tenantOf n, active := true, salt := s.firn.imageSalt
          slot := { man := some m, images := w.resident.images.filter (fun e => keep.contains e.1) } }
        let old := (s.firn.images.filter (fun r => r.active)).map (fun r => { r with active := false })
        { s with firn := { s.firn with images := old ++ [rec_] } })

/-- Restore a partition's resident slot from the active firn image record, and queue the arrays and DE regions of the layers that the
record holds for the loader (R287). Where other modules serve the partition too, the restored epoch is compared with the service's current one, which is free
here (R288, log entry 71). -/
def State.firnRestore (s : State) (n : Nat) : State :=
  match s.firn.images.find? (fun r => r.active && r.part = n && r.tenant = s.tenantOf n) with
  | none => s
  | some r =>
    match (if s.flag F.secStatusKeysValid && r.salt = s.firn.imageSalt then r.slot.man else none) with
    | none => s
    | some m =>
      let s := (s.modWgt n (fun w => { w with resident := r.slot })).setEpoch n m.epoch
      let e := Config.serviceEpoch s.free
      let s := s.when (!(s.modulesOf n).isEmpty) (fun s => s.fresh.modWgt n (fun w => { w with
        ready := false, behind := if e = m.epoch then none else some e }))
      ((s.streamAll n m r.slot).loadAll n m true).modWgt n (fun w => { w with
        loading := w.loading.filter (fun x => r.slot.images.any (fun e => e.1 = x.1)) })

/-- Write the arrays and DE regions from the resident slot (R287, R427). -/
def State.thaw (s : State) (n : Nat) : State :=
  match (s.prt n).wgt.resident.man with
  | some m => s.loadAll n m true
  | none => s

/-- A shard in the weight area passes the hash of R287: what its slot holds now, which bit errors in HBM4 may have changed, has the digest
of the stored manifest. -/
def slotSound (n : Nat) (m : Manifest) (shard : Nat) : Bool :=
  (m.shards[shard]?).any (fun d => Config.sha512 (Config.slotBytes n shard) = d.digest)

/-- A module hashes its weight area after a reset (R287): the arrays of an image slot that passes are marked, and the shards of a slot that
fails are asked for again, of the mirror holder for its own slot and of the buddy for the mirror slot. -/
def State.hashSlots (s : State) (n : Nat) : State :=
  match (s.prt n).wgt.resident.man with
  | none => s
  | some m =>
    let bad := (s.wantedShards m).filter (fun x => !slotSound n m x.num)
    let s := s.when (bad.all (fun x => x.mirror)) (fun s => s.hashPassed n m)
    let s := s.each bad (fun s x =>
      s.shardAsk n x.num (if x.mirror then (s.slotEntry s.placeSlot).buddy else s.mirrorSlot.getD s.shardSource) m.epoch)
    s.when (!bad.isEmpty) (fun s => s.modWgt n (fun w => { w with shards := bad }))

end Sys2Proof.Machine
end

