-- ==== Sys2Proof/Machine/Partitions.lean ====
section
/-! DEFINITION. Partitions (chapter 12): creating, resetting and destroying them, HBM4 shares and bursts (R339 to R342, R356),
interrupt coalescing (R344). -/

namespace Sys2Proof.Machine

/-! ## HBM4 buckets (R339) -/

/-- Bursts of 64 bytes that a controller moves in a beat at the installed period: ⌊2.0 TB/s × P / 64⌋. -/
def State.burstsPerBeat (s : State) : Nat := 50 * s.getF F.cadCfgPeriod / 32

/-- A bucket's gain in a beat, and what it holds when full, in 1/256 burst. -/
def State.bucketGain (s : State) (n : Nat) : Nat := s.shareOf n * s.burstsPerBeat
/-- See `State.bucketGain`. -/
def State.bucketFull (s : State) (n : Nat) : Nat := 16 * s.bucketGain n

/-- Fill both buckets of a partition. -/
def State.fillBuckets (s : State) (n : Nat) : State :=
  let c := s.bucketFull n
  s.modPrt n (fun x => { x with bucketW := c, bucketE := c })

/-- The gain of one beat in every bucket. -/
def State.gainBuckets (s : State) : State :=
  s.each ((List.range 16).filter (fun n => s.partState n ≠ 0)) (fun s n =>
    let g := s.bucketGain n
    let c := s.bucketFull n
    s.modPrt n (fun x => { x with bucketW := min c (x.bucketW + g), bucketE := min c (x.bucketE + g) }))

/-- Show the share and the weight in force (PART_QOS). The installed weight of R338 is a port's own, and the register has one field,
so what it shows without an override is free. -/
def State.showQos (s : State) (n : Nat) : State :=
  let x := s.prt n
  let w := match x.override with
    | some o => o.weight
    | none => if n = 0 then 0 else Config.freeNat s.free
  ((s.fresh.setFlag (F.partQosOverride n) x.override.isSome).setF (F.partQosHbmShare n)
    (match x.override with | some o => o.share | none => x.share)).setF (F.partQosWeight n) w

/-- In locked cadence a burst of a partition on a controller takes 256/256 from its bucket, and a scheduled one a burst of the beat's
grants (R185, R339). -/
def PartSt.takeBurst (x : PartSt) (east sched : Bool) : PartSt :=
  if east then { x with bucketE := x.bucketE - 256, hbmGrantE := x.hbmGrantE - bit sched }
  else { x with bucketW := x.bucketW - 256, hbmGrantW := x.hbmGrantW - bit sched }

/-- A burst must wait in locked cadence: the bucket holds less than one, or a scheduled one finds no grant in the beat. -/
def PartSt.burstWaits (x : PartSt) (east sched : Bool) : Bool :=
  (if east then x.bucketE else x.bucketW) < 256 || (sched && (if east then x.hbmGrantE else x.hbmGrantW) = 0)

/-- Requests that hold a page in a lost line restart (R356): those of this module's own services. -/
def State.kvLineLost (s : State) (line n : Nat) : State :=
  let k := (s.prt n).kv
  let hit := k.used.filter (fun e =>
    decide (Config.kvPageAddr n e.1 < 4096 * line + 4096 ∧ 4096 * line < Config.kvPageAddr n e.1 + k.pageSize))
  let tags := (((s.prt n).svcs.filter s.isFront).flatMap (fun v => v.reqs.filter (fun r => r.active &&
    hit.any (fun e => s.ownTag r.tag e.2)))).map (·.tag)
  s.each tags (fun s t => (s.kvRelease n t).mapSvcs n (fun v => v.modReq t (fun r =>
    { r with state := .restart, inFlight := false, held := false })))

/-- The placements of an image slot with a byte in a line. -/
def ImageSlot.placesIn (x : ImageSlot) (n part line : Nat) : List Nat :=
  (x.images.filter (fun e =>
    decide (x.placeAt n part e.1 < 4096 * line + 4096 ∧ 4096 * line < x.placeAt n part e.1 + e.2.length))).map Prod.fst

/-- SHARD_REQ for the shards of an image slot that lie in a lost line, to the slot that holds them too (Table 13.2). -/
def State.slotAsk (s : State) (n part line : Nat) (dest : Option Nat) (x : ImageSlot) : State :=
  match x.man, dest with
  | some m, some d => s.each (((x.placesIn n part line).filterMap (fun i => (m.places[i]?).map Place.shard)).eraseDups) (fun s k =>
      s.shardAsk n k d m.epoch)
  | _, _ => s

/-- The sources of a lost line's images are asked (Table 13.2): an image slot's at the mirror holder, a mirror slot's at the buddy. -/
def State.lineAsk (s : State) (line n : Nat) : State :=
  let w := (s.prt n).wgt
  let buddy := some (s.slotEntry s.placeSlot).buddy
  let b := bit w.slotB
  (((s.slotAsk n (1 + b) line s.mirrorSlot w.resident).slotAsk n (2 - b) line s.mirrorSlot w.staging).slotAsk n (3 + b) line buddy
    w.mirrorRes).slotAsk n (4 - b) line buddy w.mirrorStg

/-- A 4 KiB line of HBM4 is marked bad (R356): its sources are asked for what they hold, and what no source can restore is lost with it. -/
def State.lineBad (s : State) (line : Nat) : State :=
  (({ s with hbmBad := s.hbmBad ++ [line] }.spillLost line).each (List.range 16) (fun s n => (s.kvLineLost line n).lineAsk line n))

/-- HBM_BURST (R16, R185, R339, R341, R356): a burst of 64 bytes of partition n. In locked cadence it takes one burst from
the bucket and a scheduled one a grant of the beat, or it waits. A read whose parity fails three times marks its 4 KiB line bad, and reads of a bad line wait for its restore. -/
def execHbmBurst (n : PartN) (addr : Nat) (write : Option (BitVec 512)) (b : BurstNote) (s : State) :
    Host.Outcome State Fault Refusal :=
  let a := addr / 64 * 64
  let east := decide (48000000000 ≤ a)
  if n = 0 ∧ hbmSize ≤ a then .fault .noSuchHbmAddress
  else if !s.hbmOwns n a 64 then .next (s.hbmDenied n a)
  else if s.locked && (s.prt n).burstWaits east b.sched then .next s
  else if write.isNone && s.hbmBad.contains (a / 4096) then .next s
  else
    let s := s.when s.locked (fun s => s.modPrt n (·.takeBurst east b.sched))
    match write with
    | some d => .next (s.hbmWrite a (leBytes 64 d.toNat))
    | none => .next (if b.ok then s else s.lineBad (a / 4096))

/-- HBM_LINE_RESTORED (R356): the line comes back from its source (Table 13.2): `data` is what the source gave. Images, the stream area and
the canary table keep their bytes beside HBM4's (log entry 74), so that their own line reads as before. -/
def execHbmLineRestored (line : Nat) (data : Bytes) (s : State) : Host.Outcome State Fault Refusal :=
  if !s.hbmBad.contains line then .next s
  else
    let s := s.hbmWrite (4096 * line) ((data ++ List.replicate (4096 - data.length) 0).take 4096)
    .next ({ s with hbmBad := s.hbmBad.filter (· ≠ line) }.logEv (srcHbm (if 4096 * line < 48000000000 then 0 else 1)) 0x0F02 0xFF
      (4096 * line))

/-- An HBM engine's grant (R185, R340): bursts for a partition in this beat. -/
def State.hbmGrant (s : State) (c n bursts : Nat) : State :=
  s.modPrt n (fun x => if c = 0 then { x with hbmGrantW := x.hbmGrantW + bursts } else { x with hbmGrantE := x.hbmGrantE + bursts })

/-- HBM_ENGINE_GRANT (R185). -/
def execHbmEngineGrant (c : Fin 2) (n : PartN) (bursts : BitVec 12) (s : State) : Host.Outcome State Fault Refusal :=
  .next (s.hbmGrant c n bursts.toNat)

/-! ## Creating (R334, R421) -/

/-- The logical tiles of a descriptor. -/
def descTiles (d : Bytes) : List Nat := (List.range 96).filter (fun k => (fieldAt d 4 12).testBit k)

/-- A descriptor's values (Table 12.2). -/
def State.partDescOk (s : State) (n : Nat) (d : Bytes) : Bool :=
  d.length = 64 && fieldAt d 0 1 = n && 1 ≤ n && n ≤ 15 && fieldAt d 1 1 ≤ 63 && !(descTiles d).isEmpty &&
  (descTiles d).all (fun k => (s.phys k).isSome) &&
  fieldAt d 16 4 + fieldAt d 20 4 ≤ 2861 && fieldAt d 24 4 + fieldAt d 28 4 ≤ 2861 &&
  1 ≤ fieldAt d 32 2 && fieldAt d 32 2 ≤ 256 && fieldAt d 34 2 + fieldAt d 36 2 ≤ 16384 && fieldAt d 38 2 ≤ 256 &&
  fieldAt d 40 1 + fieldAt d 38 2 ≤ 256 && fieldAt d 41 3 = 0

/-- Two ranges of whole numbers overlap. -/
def overlaps (b1 n1 b2 n2 : Nat) : Bool := n1 ≠ 0 && n2 ≠ 0 && b1 < b2 + n2 && b2 < b1 + n1

/-- The sums of the tenant shares, partition n aside, that with its own may not exceed 240 (R334, R342): as installed, in force, and from
the next window boundary on. -/
def State.shareSums (s : State) (but : Nat) : List Nat :=
  [s.tenantSum but (fun k => (s.prt k).share), s.shareSum but, s.tenantSum but (fun k => (s.prt k).shareNext)]

/-- What a descriptor asks for is free (R332, R334). An object range keeps clear of every SYNC_PART register's (R305). -/
def State.partFree (s : State) (d : Bytes) : Bool :=
  let others := (List.range 16).filter (fun k => k ≠ 0 && s.partState k ≠ 0)
  let spill := overlaps (4096 * s.getF F.logSpillBaseBase) (4096 * s.getF F.logSpillLenLen)
  let sum := fun (f : Nat → FieldRef) => others.foldl (fun m k => m + s.getF (f k)) 0
  others.all (fun k =>
    !(descTiles d).any (s.ownsLogical k) &&
    !overlaps (fieldAt d 16 4) (fieldAt d 20 4) (s.getF (F.partHbmBase k 0)) (s.getF (F.partHbmLen k 0)) &&
    !overlaps (fieldAt d 24 4) (fieldAt d 28 4) (s.getF (F.partHbmBase k 1)) (s.getF (F.partHbmLen k 1)) &&
    !overlaps (fieldAt d 40 1) (fieldAt d 38 2) (s.getF (F.netRidIdBase k)) (s.getF (F.netRidIdCount k))) &&
  (List.range 16).all (fun k => k = fieldAt d 0 1 ||
    !overlaps (fieldAt d 34 2) (fieldAt d 36 2) (s.getF (F.syncPartBase k)) (s.getF (F.syncPartCount k))) &&
  (List.range 32).all (fun c => !(fieldAt d 44 4).testBit c || s.getF (F.mbxCfgPart c) = 0) &&
  !spill (fieldAt d 16 4 * 0x1000000) (fieldAt d 20 4 * 0x1000000) &&
  !spill (48000000000 + fieldAt d 24 4 * 0x1000000) (fieldAt d 28 4 * 0x1000000) &&
  sum F.partCfgResW + fieldAt d 2 1 ≤ s.getF F.glbReserveWest && sum F.partCfgResE + fieldAt d 3 1 ≤ s.getF F.glbReserveEast &&
  (State.shareSums s 0).all (fun m => m + fieldAt d 32 2 ≤ 240) &&
  (List.range 16).all (fun p => sum (fun k => F.partLinkShareEntries k p) + fieldAt d (48 + p) 1 ≤ 255)

/-- Write zero rows and zero scale lines into every array of a tile, and clear ARR_CFG (R335). -/
def State.zeroArrays (s : State) (t : Nat) : State :=
  s.each ((s.arrays.filter (fun e => e.1 / 128 = t)).map (fun e => e.1 % 128)) (fun s a =>
    s.modArr t a (fun x => { x with rows := [], scale := [], wsum := [], suspects := [], rewrite := [], held := none })) |>.each (List.range 128)
      (fun s a => s.setR (R.arrCfg t a) 0)

/-- Write the registers of Table 12.1 from a descriptor (R334). -/
def State.partWrite (s : State) (n : Nat) (d : Bytes) : State :=
  let s := (((s.setF (F.partCfgTenant n) (fieldAt d 1 1)).setF (F.partCfgResW n) (fieldAt d 2 1)).setF (F.partCfgResE n) (fieldAt d 3 1)).setF
    (F.partCfgState n) 1
  let s := s.each (List.range 3) (fun s i => s.setR (R.partTiles n i) (BitVec.ofNat 32 (fieldAt d (4 + 4 * i) 4)))
  let s := s.each (List.range 2) (fun s i =>
    (s.setF (F.partHbmBase n i) (fieldAt d (16 + 8 * i) 4)).setF (F.partHbmLen n i) (fieldAt d (20 + 8 * i) 4))
  let s := (s.setF (F.syncPartBase n) (fieldAt d 34 2)).setF (F.syncPartCount n) (fieldAt d 36 2)
  let s := (s.setF (F.netRidIdBase n) (fieldAt d 40 1)).setF (F.netRidIdCount n) (fieldAt d 38 2)
  let s := s.each ((List.range 32).filter (fun c => (fieldAt d 44 4).testBit c)) (fun s c => s.setF (F.mbxCfgPart c) n)
  let s := s.each (List.range 16) (fun s p => s.setF (F.partLinkShareEntries n p) (fieldAt d (48 + p) 1))
  (s.modPrt n (fun x => { x with desc := d, share := fieldAt d 32 2, usable := false })).showQos n

/-- The kept descriptor of a partition (R421). -/
def State.keptDesc (s : State) (n : Nat) : Option Bytes := (s.pwr.keptDescs.find? (fun e => e.1 = n)).map Prod.snd

/-- A partition is created from a descriptor (R334, R421): it takes up a kept weight area again when its descriptor is the kept one;
otherwise that area is discarded and the arrays of its tiles are zeroed. An active firn image record of the partition and tenant
restores it. -/
def State.partMake (s : State) (n : Nat) (d : Bytes) : State :=
  let kept := s.keptDesc n
  let same := decide (kept = some d)
  let s := { s with pwr := { s.pwr with keptDescs := s.pwr.keptDescs.filter (fun e => e.1 ≠ n) } }
  let s := s.when (!same) (fun s => s.setPrt n {})
  let s := (s.partWrite n d).fillBuckets n |>.fillBuckets 0
  let s := if same then
      (match (s.prt n).wgt.resident.man with
       | some m =>
         let s := s.setEpoch n m.epoch
         (s.when (5 ≤ s.getF F.glbRstLast) (fun s => s.thaw n)).hashSlots n
       | none => s)
    else if kept.isSome then s.each (s.tilesOf n) (fun s t => s.zeroArrays t)
    else s.firnRestore n
  s.mirrorSend 0 n 0 d

/-- PART_CREATE (R334); while debug is open, for tenant 0 alone (R450). -/
def execPartCreate (h : CmdHdr) (desc : Bytes) (s : State) : Host.Outcome State Fault Refusal :=
  .next (
    let n := h.part.val
    s.command h false false (s.partDescOk n desc) (s.partState n = 0 && !(s.flag F.secDbgOpen && fieldAt desc 1 1 ≠ 0)) (s.partFree desc)
      0 (fun s =>
      (s.partMake n desc).done h false stOK 0 []))

/-! ## Partition reset (R346, R347) -/

/-- The program of a partition is discarded (R190, R346): its sequencers stop. -/
def State.progDrop (s : State) (n : Nat) : State :=
  let s := s.each (s.tilesOf n) (fun s t => (s.modTile t (fun x => { x with seq := {} })).setFlag (F.tileStatusSeqRun t) false)
  ((s.modPrt n (fun x => { x with prog := none, startWin := none, stopWin := none, progWin := 0, variantAt := none })).setF
    (F.partProgStatusState n) 0).setF (F.partProgStatusDetail n) 0

/-- A swap in progress rolls back when its partition resets (R279, R347). -/
def State.swapLost (s : State) (n : Nat) : State :=
  match (s.prt n).wgt.swap with
  | none => s
  | some sw =>
    if sw.coord then s.swapAbort n (Config.abortStatus 3)
    else s.swapCtrl (s.prt n).wgt.coordSlot 2 n (Config.abortStatus 3) 0 sw.epoch

/-- The requests of a partition that resets end with CANCELLED (R295, R320); their replies hold the payload of Table 11.4. -/
def State.cancelRequests (s : State) (n : Nat) : State :=
  s.each (s.waitingFor 0x0502 (some n)) (fun s o =>
    let r := ((s.svc n (o.arg / 2 ^ 32)).bind (fun v => v.reqs.find? (fun r => r.tag = o.arg % 2 ^ 32))).getD { tag := o.arg % 2 ^ 32 }
    s.complete o.sender o.tag (some n) stCancelled 0 ({ r with endCode := some 7, cancelled := true }.payload s.cad.beat.toNat))

/-- Start the reset of a partition (R346 steps 1 and 2); `state` is 2 resetting or 3 destroying. A tile reset
that waits for its beat on a tile of the partition is abandoned (R416). -/
def State.startPartReset (s : State) (n state but : Nat) : State :=
  let b := s.applyAhead
  let s := { s with rime := s.rime.filter (fun e => e.2.type ≠ 0x0A || s.ownerOf e.2.dest ≠ n) }
  let s := (((s.swapLost n).cancelRequests n).cancelPart n but).setF (F.partCfgState n) state
  (s.modPrt n (fun x => { x with endAt := none, resetting := true })).broadcastAt 0x08 n 0xFF b

/-- The apply beat of PART_BEGIN (R346 steps 3 and 4): with the chunks of the tiles' queues the DE's input queue and its RUN go (R139). -/
def State.partBeginApply (s : State) (n : Nat) : State :=
  let s := ((s.progDrop n).fabricDrop n).linksDrop n
  let s := s.each (s.tilesOf n) (fun s t => (s.pfDrop t).modTile t (fun x => { x.pcClear with deRun := none, deIn := [] }))
  (s.syncDrop n).modPrt n (fun x => { x with hbmPaid := [], irq := [], irqOff := true, discard := true })

/-- The registers that a partition reset of n returns to reset (letter X): those of its block, of its tiles and their counters, and
of its mailboxes. A reduction context is reset where n owns the context (R212). -/
def State.partScope (s : State) (n : Nat) (r : Reg) : Bool :=
  match r.kind.geom.block with
  | .part => r.i = n
  | .tile =>
    if r.kind = .netRctx || r.kind = .netRctxNext then bitsOf (s.getR r) 25 22 = n else s.ownerOf r.i = n
  | .ctrTile => s.ownerOf r.i = n
  | .glb =>
    if (RegKind.mbxSendData :: [.mbxSendCtrl, .mbxRecvData, .mbxRecvCtrl]).contains r.kind then s.getF (F.mbxCfgPart r.j) = n else false
  | .bar =>
    if (RegKind.mbxHostSendData :: [.mbxHostSendCtrl, .mbxHostRecvData, .mbxHostRecvCtrl]).contains r.kind then
      s.getF (F.mbxCfgPart r.j) = n
    else false
  | _ => false

/-- Tenant and session material of a partition is erased: the tenant key, the manifest keys and key messages under way. -/
def State.eraseTenant (s : State) (n : Nat) : State :=
  { s with sec := { s.sec with
      tenantKeys := s.sec.tenantKeys.filter (fun e => e.1 ≠ n)
      manKeys := s.sec.manKeys.filter (fun k => k.1 ≠ n)
      keyMsgs := s.sec.keyMsgs.filter (fun m => s.chanPart m.chan ≠ n) } }

/-- The services of a partition end (R347): the front module completes every request with CANCELLED and closes the service on every
module; another module tells the front module. -/
def State.endServices (s : State) (n : Nat) : State :=
  s.each (s.prt n).svcs (fun s v => (
    if s.isFront v then
      (s.each (s.modulesOf n) (fun s d => s.fwCommand d 0x0501 n (svcTag n v.id) (leBytes 4 v.id))).cancelRequests n
    else s.fwCommand v.front 0x0501 n (svcTag n v.id) (leBytes 4 v.id)).mirrorSend 2 n v.id []) |>.modPrt n (fun x => { x with svcs := [], kv := {} })

/-- Step 5 of R346: the tile stores are zero; KV pages, services, keys, counters, mailboxes and synchronisation objects go. -/
def State.partClear (s : State) (n : Nat) : State :=
  let tiles := s.tilesOf n
  let s := (s.endServices n).eraseTenant n
  let s := s.each tiles (fun s t => s.modTile t (fun x => { x with store := [], writers := [], restoring := [], scrubLine := 0 }))
  let s := s.clearCtr (regAtIs (fun r => r.kind.geom.block = .ctrTile && tiles.contains r.i))
  (s.syncClear n).clearBy .x (s.partScope n)

/-- PART_RESET (R346): of a tenant partition that exists; while a higher reset runs it is discarded (R416). -/
def execPartReset (h : CmdHdr) (s : State) : Host.Outcome State Fault Refusal :=
  .next (
    let n := h.part.val
    s.command h true false (n ≠ 0) (s.partState n ≠ 0) true 0 (fun s =>
      if s.pwr.running.isSome then s.done h false stCancelled 0 []
      else (s.startPartReset n 2 0x0102).outstand h 0x0102 0))

/-- PART_RESET_ZERO_DONE (R346 steps 5 and 6): the stores have been zeroed; PART_END is broadcast. -/
def execPartResetZeroDone (n : PartN) (s : State) : Host.Outcome State Fault Refusal :=
  .next (
    let x := s.prt n
    if !x.resetting || !x.discard || x.endAt.isSome then s
    else
      let b := s.applyAhead
      ((s.partClear n).modPrt n (fun x => { x with endAt := some b })).broadcastAt 0x09 n 0xFF b)

/-- The apply beat of PART_END (R346 steps 6 and 7). -/
def State.partEndApply (s : State) (n : Nat) : State :=
  let s := (s.modPrt n (fun x => { x with irqOff := false, discard := false, resetting := false, endAt := none })).fillBuckets n
  let s := s.when (s.partState n = 2) (fun s => s.setF (F.partCfgState n) 1)
  (s.irq n 4).completeAll 0x0102 (some n) stOK 0 []

/-- PART_BEGIN (R212, R214): the message waits for its apply beat. -/
def execPartBegin (n : PartN) (b : BitVec 64) (s : State) : Host.Outcome State Fault Refusal :=
  .next (s.rimeWait b ⟨0x08, 0xFF, 0x72, n, []⟩)

/-- PART_END (R212, R214). -/
def execPartEnd (n : PartN) (b : BitVec 64) (s : State) : Host.Outcome State Fault Refusal :=
  .next (s.rimeWait b ⟨0x09, 0xFF, 0x72, n, []⟩)

/-! ## Destroying (R335) -/

/-- PART_DESTROY (R335): with no program loaded. -/
def execPartDestroy (h : CmdHdr) (s : State) : Host.Outcome State Fault Refusal :=
  .next (
    let n := h.part.val
    s.command h false false (n ≠ 0) (s.partState n ≠ 0 && s.progState n = 0) true 0 (fun s =>
      if s.pwr.running.isSome then s.done h false stCancelled 0 []
      else (s.startPartReset n 3 0x0101).outstand h 0x0101 0))

/-- Every owned resource goes back to the free pool (R335): the registers of the partition's block take their reset values, those of
its mailboxes, objects and reduction IDs no owner. -/
def State.partRelease (s : State) (n : Nat) : State :=
  let s := s.each (s.tilesOf n) (fun s t => s.zeroArrays t)
  let s := s.each (s.hbmRegions n) (fun s r => s.hbmZero r.1 r.2)
  let s := s.each ((List.range 32).filter (fun c => s.getF (F.mbxCfgPart c) = n)) (fun s c => s.setF (F.mbxCfgPart c) 0)
  let s := ((s.setR (R.syncPart n) 0).setR (R.netRid n) 0).clearBy .d (fun r => r.kind.geom.block = .part && r.i = n)
  ((s.eraseTenant n).setPrt n {}).mirrorSend 0 n 0 []

/-- PART_DESTROY_ZERO_DONE (R335): arrays and regions are zero and the partition is gone. -/
def execPartDestroyZeroDone (n : PartN) (s : State) : Host.Outcome State Fault Refusal :=
  .next (
    if s.partState n ≠ 3 || (s.prt n).resetting then s
    else ((s.partRelease n).fillBuckets 0).completeAll 0x0101 (some n) stOK 0 [])

/-! ## Shares and interrupts (R342, R344) -/

/-- PART_QOS (R342). A share below the largest grants of the running program, or one that brings the tenant sum above 240 at the window
boundary where it takes effect, fails; a clear brings the installed share back. -/
def execPartQos (h : CmdHdr) (ovr : Bytes) (s : State) : Host.Outcome State Fault Refusal :=
  .next (
    let n := h.part.val
    let clear := fieldAt ovr 0 1 % 2 = 1
    let share := fieldAt ovr 2 2
    let weight := fieldAt ovr 4 2
    let peak := ((s.prt n).prog.map Prog.hbmPeak).getD 0
    let sum := s.tenantSum n (fun k => (s.prt k).shareNext)
    let ok := ovr.length = 16 && fieldAt ovr 0 1 ≤ 1 && fieldAt ovr 1 1 = 0 && fieldAt ovr 6 10 = 0 && n ≠ 0 &&
      (if clear then sum + (s.prt n).share ≤ 240 else 1 ≤ share && share ≤ 256 && 1 ≤ weight && weight ≤ 255 && sum + share ≤ 240 &&
        (!s.locked || !s.running n || peak ≤ share * s.burstsPerBeat * s.winLen / 256))
    s.command h false false ok (s.partState n ≠ 0) true 0 (fun s =>
      (s.modPrt n (fun x => { x with overrideNext := some (if clear then none else some ⟨share, weight⟩) })).done h false stOK 0 []))

/-- An override takes effect or ends at the window boundary (R342). -/
def State.qosWindow (s : State) (n : Nat) : State :=
  match (s.prt n).overrideNext with
  | none => s
  | some o => ((s.modPrt n (fun x => { x with override := o, overrideNext := none })).showQos n).fillBuckets n |>.fillBuckets 0

/-- PART_IRQ (R344): a COUNT of 0 is treated as 1. -/
def execPartIrq (h : CmdHdr) (vector : Byte) (count : BitVec 16) (timeUs : Word) (s : State) : Host.Outcome State Fault Refusal :=
  .next (
    let n := h.part.val
    let ok := vector.toNat ≤ 15 && count.toNat ≤ 4095 && timeUs.toNat ≤ 1000000 && !(timeUs = 0 && 1 < count.toNat)
    s.command h true false ok (s.partState n ≠ 0) true 0 (fun s =>
      (((s.setF (F.partIrqCfgCount n vector.toNat) (max 1 count.toNat)).setF (F.partIrqCfgTimeUs n vector.toNat) timeUs.toNat)).done h false stOK 0 []))

/-- IRQ_COALESCE_TIMEOUT (R344): the vector's timer has reached TIME_US. -/
def execIrqCoalesceTimeout (n : PartN) (v : Fin 16) (s : State) : Host.Outcome State Fault Refusal :=
  let q := Sparse.get (fun _ => {}) (s.prt n).irq v.val
  if q.timer && q.count ≠ 0 then .next (s.irqSend n v q.classes) else .next s

end Sys2Proof.Machine
end

