-- ==== Sys2Proof/Machine/Bridge.lean ====
section
/-! DEFINITION. The bridge and the simplest commands: COMMAND_FETCH, RELAY_REPLY, interrupts to the host, function level resets
(R249 to R254, R297 to R299, R345), PING, QUERY, SYNC_OP (Table 10.4). -/

namespace Sys2Proof.Machine

/-! ## Undefined opcodes -/

/-- COMMAND_BAD_OPCODE (R293): the first check fails. -/
def execCommandBadOpcode (h : CmdHdr) (_opcode : BitVec 16) (s : State) : Host.Outcome State Fault Refusal :=
  .next (
    if !s.intake then s
    else if s.tooMany h then s.turnAway h true stNoResource 256
    else if s.tagUsed h then s.turnAway h true stBadParam 0
    else s.done h true stBadOpcode 0 [])

/-! ## Simple commands -/

/-- PING (Table 10.4). -/
def execPing (h : CmdHdr) (s : State) : Host.Outcome State Fault Refusal :=
  .next (s.command h true true true true true 8 (fun s =>
    s.done h true stOK (s.cad.beat.toNat % 2 ^ 32)
      (leBytes 2 s.slot ++ leBytes 1 s.firn.cfg.grade ++ leBytes 1 s.firn.cfg.reserve ++ leBytes 4 Config.fwVersion.toNat)))

/-- The words of registers as a payload. -/
def State.wordsOf (s : State) (l : List Reg) : Bytes := l.flatMap (fun r => leBytes 4 (s.readWord r).toNat)

/-- The payload of QUERY by item (Table 10.4): the registers of items 2 to 4 in ascending address, the counts of item 5 in ascending
code; the table names what items 0 and 1 hold and not the bytes. -/
def State.queryPayload (s : State) (n item : Nat) : Bytes :=
  match item with
  | 2 => s.wordsOf [R.partProgBaseLo n, R.partProgBaseHi n, R.partProgCtrl n, R.partProgStatus n, R.partProgStart n]
  | 3 => s.wordsOf ([R.partWgtEpochLo n, R.partWgtEpochHi n, R.partWgtStatus n, R.partWgtCnt n, R.partWgtHold n] ++
      (List.range 64).map (R.partWgtLepoch n))
  | 4 => s.wordsOf [R.cadCfg, R.cadStretch, R.cadAvs, R.cadBeatLo, R.cadBeatHi, R.cadAlign, R.cadMaster, R.cadMarks, R.cadExt]
  | 5 => (List.range 17).flatMap (fun k => leBytes 4 (Sparse.get (fun _ => 0) s.log.counts (0x0F01 + k)))
  | _ => Config.queryLayout (2 * s.free + item)

/-- QUERY (Table 10.4): items 2 and 3 are registers of the partition that the command names, the other items the module's. -/
def execQuery (h : CmdHdr) (item : Word) (s : State) : Host.Outcome State Fault Refusal :=
  .next (
    let p := s.queryPayload h.part item.toNat
    let whole := item.toNat ≠ 2 && item.toNat ≠ 3
    s.command h true whole (item.toNat ≤ 5) true true p.length (fun s => s.fresh.done h whole stOK 0 p))

/-- SYNC_OP (Tables 10.4, 10.7): OP 0, 2, 4 and 5 operate and OP 8 reads; DETAIL is the object after it. For an object outside the
partition's range the operation, a read too, is a no-op (R307), and DETAIL is 0 (DESIGN CHOICE, log entry 88). -/
def execSyncOp (h : CmdHdr) (obj : BitVec 16) (op : Byte) (value : Word) (s : State) : Host.Outcome State Fault Refusal :=
  .next (
    let o := obj.toNat
    let k := op.toNat
    let ok := o < 16384 && (k = 0 || k = 2 || k = 4 || k = 5 || k = 8) && value.toNat ≤ 16383
    s.command h true false ok true true 0 (fun s =>
      let s := if k = 8 then (if s.objOwned h.part o then s else s.opRefused h.part o) else s.syncDo h.part k o value.toNat
      s.done h false stOK (if s.objOwned h.part o then (s.getR (R.syncObj o)).toNat else 0) []))

/-! ## The command rings (R297 to R299) -/

/-- The bridge can fetch the next command of function f (R294, R297): its endpoint is enabled, the ring has an entry, fewer than 256
are outstanding, and a reply entry can be reserved. -/
def State.canFetch (s : State) (f : Nat) : Bool :=
  let size := ringSize (s.getF (F.ringRplSizeLog2 f))
  let csize := ringSize (s.getF (F.ringCmdSizeLog2 f))
  let used := (s.getF (F.ringRplTailTail f) % size + size - s.getF (F.ringRplHeadHead f) % size) % size
  s.flag F.glbBridgeEnabled && s.flag (F.ringStatusEnable f) &&
  s.getF (F.ringCmdHeadHead f) % csize ≠ s.getF (F.ringCmdTailTail f) % csize &&
  s.ringOut f < 256 && used + s.ringOut f + 1 < size

/-- A slot that serves as a command's target: present in the topology, or one whose role a standby has taken (R299). -/
def State.slotServed (s : State) (d : Nat) : Bool := (s.slotEntry (s.redirect d)).present && !s.cad.failedSlots.contains (s.redirect d)

/-- A command of function f with this tag is outstanding here or at another slot (R294). -/
def State.tagTaken (s : State) (f : Nat) (tag : BitVec 32) : Bool :=
  (s.outOf (.host f)).any (fun o => o.tag = tag) || s.bridge.relays.any (fun r => r.fn = f && r.tag = tag && !r.dropped)

/-- COMMAND_FETCH (R293, R297 to R299): `entry` is the 128 bytes of the command entry, and with INDIRECT the parameters that the
bridge reads after it. A command for this module becomes outstanding and is executed by its own command; one for another slot is
relayed; one whose entry is out of form ends here. With fewer bytes than an entry's 128 the DMA has failed: ERR, and the entry stays
(DESIGN CHOICE, log entry 77). -/
def execCommandFetch (f : Fin 64) (entry : Bytes) (s : State) : Host.Outcome State Fault Refusal :=
  .next (
    let s := { s with bridge := { s.bridge with linkUp := s.bridge.linkUp || s.flag F.glbBridgeEnabled } }
    if !s.canFetch f then s
    else if entry.length < 128 then s.setFlag (F.ringStatusErr f) true
    else
      let s := s.setF (F.ringCmdHeadHead f) ((s.getF (F.ringCmdHeadHead f) + 1) % ringSize (s.getF (F.ringCmdSizeLog2 f)))
      let opcode := fieldAt entry 0 2
      let flags := fieldAt entry 2 2
      let tag := BitVec.ofNat 32 (fieldAt entry 8 4)
      let target := fieldAt entry 12 2
      let len := fieldAt entry 28 4
      let rbuf := fieldAt entry 32 8
      let indirect := flags / 2 % 2 = 1
      let part : PartN := Fin.ofNat 16 (fieldAt entry 5 1)
      let tenant : Fin 64 := Fin.ofNat 64 (fieldAt entry 4 1)
      let params := if indirect then (entry.drop 128).take len else (entry.drop 48).take len
      let h : CmdHdr := ⟨.host f, tenant, part, tag, BitVec.ofNat 16 flags, fieldAt entry 40 4⟩
      let here := target = 0xFFFF || target = s.slot
      let noPart := 15 < fieldAt entry 5 1
      let end_ := fun (s : State) (whole : Bool) (st : Nat) =>
        ((s.reply (.host f) tag st 0 []).ringReply f rbuf tag st s.slot 0 []).completeIrq (if whole || noPart then none else some part.val)
      match opcodes.find? (fun o => o.1 = opcode) with
      | none => end_ s true stBadOpcode
      | some (_, any, w) =>
        let whole := wholeCmd opcode w params
        if 63 < fieldAt entry 4 1 || tenant.val ≠ f.val || here && (!s.permitted h whole any || tenant.val ≠ 0 && !whole && noPart) then
          end_ s whole stNotPermitted
        else if 4 ≤ flags || fieldAt entry 6 2 ≠ 0 || fieldAt entry 14 14 ≠ 0 || !whole && noPart || 61408 < len ||
            (80 < len && !indirect) || fieldAt entry 44 4 ≠ 0 || (1023 < target && target ≠ 0xFFFF) || here && !paramsOk opcode len params ||
            s.tagTaken f tag then end_ s whole stBadParam
        else if here then
          { s with bridge := { s.bridge with outst := s.bridge.outst ++
              [⟨.host f, tag, part, tenant, opcode, rbuf, false, 0, false⟩] } }
        else if !s.slotServed target then end_ s whole stNoResource
        else s.relayCmd f tag target part rbuf (entry.take 32 ++ params))

/-- RELAY_REPLY (R299): the reply to a relayed command reaches the host with its own tag; one to a function that has been reset since
is dropped (R253); one to this module's firmware is its own (R310). -/
def execRelayReply (rtag : BitVec 16) (status : BitVec 16) (source : SlotN) (dtl : Word) (payload : Bytes) (s : State) :
    Host.Outcome State Fault Refusal :=
  .next (
    match s.bridge.relays.find? (fun r => r.rtag = rtag.toNat) with
    | none => s
    | some r =>
      let s := { s with bridge := { s.bridge with relays := s.bridge.relays.erase r } }
      if r.fn = 64 then s.svcAnswer (r.tag.toNat / 65536) (r.tag.toNat % 65536) status.toNat
      else if r.dropped then s.addF F.glbBridgeCntDropped 1
      else
        { s with replies := s.replies ++ [Reply.mk (Sender.host r.fn) r.tag status.toNat source dtl.toNat payload] }.ringReply
          r.fn r.rbuf r.tag status.toNat source dtl.toNat payload)

/-- The relayed commands of a slot that resets before it replies end with CANCELLED (R299). -/
def State.relaysLost (s : State) (slot : Nat) : State :=
  s.each (s.bridge.relays.filter (fun r => r.slot = slot)) (fun s r =>
    let s := { s with bridge := { s.bridge with relays := s.bridge.relays.erase r } }
    if r.fn = 64 then s.svcAnswer (r.tag.toNat / 65536) (r.tag.toNat % 65536) stCancelled
    else if r.dropped then s.addF F.glbBridgeCntDropped 1
    else { s with replies := s.replies ++ [Reply.mk (Sender.host r.fn) r.tag stCancelled slot 0 []] }.ringReply r.fn r.rbuf r.tag stCancelled slot 0 [])

/-! ## Interrupts to the host (R252, R345) -/

/-- Function f is enabled on the bridge (R250, R336). -/
def State.fnEnabled (s : State) (f : Nat) : Bool := s.flag F.glbBridgeEnabled && (f = 0 || f ≤ s.getF F.glbBridgeNumVf)

/-- Deliver MSI-X vector v of function f, or hold it pending while the host has it masked (R252). -/
def State.msixRaise (s : State) (f v : Nat) : State :=
  if s.bridge.msixMask.contains (f, v) && s.bridge.linkUp then { s with msix := s.msix ++ [(f, v)] }
  else { s with bridge := { s.bridge with msixPend := (s.bridge.msixPend ++ [(f, v)]).eraseDups } }

/-- IRQ_RAISE (R336, R345): cause bits, slot and MSI-X vector of the tenant's function; for a function that is not enabled the
interrupt is discarded and logged once a window for its tenant. -/
def execIrqRaise (slot : SlotN) (tenant : Fin 64) (n : PartN) (v : Fin 16) (classes : BitVec 6) (s : State) :
    Host.Outcome State Fault Refusal :=
  .next (
    let f := tenant.val
    if !s.fnEnabled f then
      if s.bridge.irqLogged.contains f then s
      else { s with bridge := { s.bridge with irqLogged := f :: s.bridge.irqLogged } }.logEv srcBridge (code14 13) n f
    else
      let r := R.funcIrqCause f v
      let old := s.getR r
      let multi := bitsOf old 5 0 ≠ 0 && bitsOf old 25 16 ≠ slot.val
      let s := s.setR r (withBits (old ||| BitVec.ofNat 32 classes.toNat) 25 16 slot.val)
      (s.when multi (fun s => s.setFlag (F.funcIrqCauseMulti f v) true)).msixRaise f v)

/-- The host unmasks a vector: a pending one is delivered (R252). -/
def State.msixUnmask (s : State) (f v : Nat) : State :=
  let s := { s with bridge := { s.bridge with msixMask := (s.bridge.msixMask ++ [(f, v)]).eraseDups } }
  if s.bridge.msixPend.contains (f, v) && s.bridge.linkUp then
    { s with bridge := { s.bridge with msixPend := s.bridge.msixPend.erase (f, v) }, msix := s.msix ++ [(f, v)] }
  else s

/-- MSIX_UNMASK (R252). -/
def execMsixUnmask (f : Fin 64) (v : Fin 64) (s : State) : Host.Outcome State Fault Refusal := .next (s.msixUnmask f v)

/-- The vectors of a function's MSI-X table (R251). -/
def msixVectors (f : Nat) : Nat := if f = 0 then 64 else 16

/-- A write in a function's BAR2 (R251, R252): its MSI-X table begins at offset 0, 16 bytes a vector: address, data, and vector control,
whose bit 0 masks (PRESUMED, PCI Express). The pending bits, after the table, are read-only. -/
def State.bar2Write (s : State) (f addr : Nat) (w : Word) : State :=
  let k := addr / 4
  let v := k / 4
  if !s.fnEnabled f || addr % 4 ≠ 0 || msixVectors f ≤ v then s
  else
    let s := { s with bridge := { s.bridge with msixTable := Sparse.set (fun _ => 0) s.bridge.msixTable (256 * f + k) w } }
    if k % 4 ≠ 3 then s
    else if w.getLsbD 0 then { s with bridge := { s.bridge with msixMask := s.bridge.msixMask.filter (fun x => x ≠ (f, v)) } }
    else s.msixUnmask f v

/-- The word at an offset of a function's BAR2 (R251, R252): its MSI-X table, and after it the pending-bit array, a bit a vector. -/
def State.bar2Word (s : State) (f addr : Nat) : Word :=
  let k := addr / 4
  let n := msixVectors f
  if !s.fnEnabled f then 0
  else if k < 4 * n then
    let w := Sparse.get (fun _ => 0) s.bridge.msixTable (256 * f + k)
    if k % 4 = 3 then withBits w 0 0 (bit (!s.bridge.msixMask.contains (f, k / 4))) else w
  else if k < 4 * n + (n + 31) / 32 then
    BitVec.ofNat 32 ((List.range 32).foldl (fun m i => m + bit (s.bridge.msixPend.contains (f, 32 * (k - 4 * n) + i)) * 2 ^ i) 0)
  else 0

/-- The word at an offset of a function's configuration space (R249, R251): the BARs are 64-bit and non-prefetchable, BAR0 of 1 MiB for
the physical function and of 64 KiB for a virtual one (their places are PRESUMED, PCI Express: words 4 to 7, and 9 to 12 of SR-IOV). -/
def State.configWord (s : State) (f addr : Nat) : Word :=
  let k := addr / 4
  let w := Sparse.get (fun _ => 0) s.bridge.config (1024 * f + k)
  let v := Config.sriovWord + 9
  if !s.fnEnabled f || 4096 ≤ addr then 0
  else if f ≠ 0 then w
  else if k = 4 then withBits (withBits w 19 0 0) 2 2 1
  else if k = v then withBits (withBits w 15 0 0) 2 2 1
  else if k = 6 ∨ k = v + 2 then withBits (withBits w 3 0 0) 2 2 1
  else w

/-- A word of configuration space after a write (R249, PRESUMED PCI Express, log entry 82): the two status words of AER clear where 1 is
written; Device Control keeps Max Payload to 512 bytes and Max Read Request to 4,096; other words hold what is written. -/
def configAfter (k : Nat) (old w : Word) : Word :=
  if k = Config.aerWord + 1 ∨ k = Config.aerWord + 4 then old &&& ~~~w
  else if k = Config.pcieWord + 2 then
    withBits (withBits (withBits w 7 5 (min 2 (bitsOf w 7 5))) 14 12 (min 5 (bitsOf w 14 12))) 31 16 (bitsOf (old &&& ~~~w) 31 16)
  else w

/-- A write in a function's configuration space (R249, R250). In the SR-IOV capability of the physical function, word 2 bit 0 enables
virtual functions and word 4 bits 15 to 0 are their number (PRESUMED, PCI Express). -/
def State.configWrite (s : State) (f addr : Nat) (w : Word) : State :=
  if !s.fnEnabled f || addr % 4 ≠ 0 || 4096 ≤ addr then s
  else
    let i := 1024 * f + addr / 4
    let c := Sparse.set (fun _ => 0) s.bridge.config i (configAfter (addr / 4) (Sparse.get (fun _ => 0) s.bridge.config i) w)
    let s := { s with bridge := { s.bridge with config := c } }
    let k := Config.sriovWord
    if f ≠ 0 then s
    else s.setF F.glbBridgeNumVf (if (Sparse.get (fun _ => 0) c (k + 2)).getLsbD 0 then
      min 63 (bitsOf (Sparse.get (fun _ => 0) c (k + 4)) 15 0) else 0)

/-! ## Function level reset and the PCIe link (R253, R254) -/

/-- What a function level reset takes from one function. -/
def State.fnReset (s : State) (f : Nat) : State :=
  let kinds : List RegKind := [.ringCmdBaseLo, .ringCmdBaseHi, .ringCmdSize, .ringCmdTail, .ringCmdHead, .ringRplBaseLo,
    .ringRplBaseHi, .ringRplSize, .ringRplHead, .ringRplTail, .ringStatus, .funcIrqCause]
  { s with
    regs := Sparse.mapAll regDefault s.regs (fun a w =>
      match Reg.ofAddr a with
      | some r => if kinds.contains r.kind && r.i = f then r.resetWord else w
      | none => w)
    bridge := { s.bridge with
      msixPend := s.bridge.msixPend.filter (fun p => p.1 ≠ f)
      outst := (s.bridge.outst.filter (fun o => !(decide (o.sender = .host f) && !o.started))).map (fun o =>
        if o.sender = .host f then { o with dropped := true } else o)
      relays := s.bridge.relays.map (fun r => if r.fn = f then { r with dropped := true } else r) } }

/-- FUNCTION_LEVEL_RESET (R253): of the physical function, it does the same for every virtual function, and it ends the secure
session (R439). -/
def execFunctionLevelReset (f : Fin 64) (s : State) : Host.Outcome State Fault Refusal :=
  .next (((s.each (if f = 0 then List.range 64 else [f.val]) (fun s k => s.fnReset k)).when (f = 0) State.endSession).addF F.glbBridgeCntFlr 1)

/-- PCIE_LINK_DOWN (R253): the bridge keeps its role and its relays; interrupts and records wait. -/
def execPcieLinkDown (s : State) : Host.Outcome State Fault Refusal :=
  .next { s with bridge := { s.bridge with linkUp := false } }

end Sys2Proof.Machine
end

