-- ==== Sys2Proof/Machine/ProgImage.lean ====
section
/-! DEFINITION. Program images (R170 to R185): slot words, records and slices, the load checks of Table 6.10, and the commands PROG_PUT
and PROG_LOAD. -/

namespace Sys2Proof.Machine

/-! ## Slot words -/

/-- The words of one slot (Table 6.3). Units: 0 ARR, 1 DE, 2 VU, 3 to 6 the tile cores, 7 MOV, 8 NET, 9 SYN, 10 CHK, 11 a link engine,
12 an HBM engine. -/
structure Slot where
  unit : Nat
  w0 : Word := 0
  w1 : Word := 0
  w2 : Word := 0
  deriving DecidableEq, Repr

/-- How many words a unit's slot has. -/
def slotWords (u : Nat) : Nat :=
  match u with
  | 0 | 1 | 7 | 8 => 2
  | 2 => 3
  | _ => 1

/-- The slot of unit u from its words. -/
def slotOf (u : Nat) (ws : List Word) : Slot := ⟨u, ws.getD 0 0, ws.getD 1 0, ws.getD 2 0⟩

/-- A tile core slot. -/
def Slot.isTc (x : Slot) : Bool := 3 ≤ x.unit && x.unit ≤ 6

/-- The operation code. -/
def Slot.op (x : Slot) : Nat :=
  if x.isTc then bitsOf x.w0 31 26
  else if x.unit = 2 then bitsOf x.w0 7 0
  else if 11 ≤ x.unit then 0
  else bitsOf x.w0 3 0

/-- The bits hi to lo of a word. -/
def span (hi lo : Nat) : Nat := 2 ^ (hi + 1) - 2 ^ lo

/-- The format of a tile core operation (Table 6.7): 0 no operands, 1 R, 2 I; none for a refused one. -/
def tcFormat (op : Nat) : Option Nat :=
  if op = 0 ∨ op = 0x26 then some 0
  else if op ≤ 0x0C ∨ op = 0x1C ∨ op = 0x25 then some 1
  else if (0x10 ≤ op ∧ op ≤ 0x13) ∨ (0x18 ≤ op ∧ op ≤ 0x1B) ∨ op = 0x1D ∨ (0x20 ≤ op ∧ op ≤ 0x24) then some 2
  else none

/-- A VU operation of Table 6.6. -/
def vuKnown (op : Nat) : Bool :=
  op ≤ 0x05 || (0x10 ≤ op && op ≤ 0x1B) || (0x20 ≤ op && op ≤ 0x25) || (0x30 ≤ op && op ≤ 0x37) || (0x40 ≤ op && op ≤ 0x46) ||
  (0x50 ≤ op && op ≤ 0x52)

/-- The bits of a slot's words that its operation gives a meaning; none when the operation is refused (R176 to R185). CQ and ADDR are
used whatever QSRC says, and the store offset of word 1 only by the row operations (DESIGN CHOICE, log entry 86: R176 and R181 do not say
of which values of the other fields they are used). -/
def Slot.used (x : Slot) : Option (Nat × Nat × Nat) :=
  let op := x.op
  let mn := span 5 0 + span 29 16
  match x.unit with
  | 0 => if op ≤ 1 then some (span 19 0, 0, 0) else if op ≤ 4 then some (span 31 0, span 15 0, 0) else none
  | 1 => if op ≤ 3 then some (span 29 0, if op = 2 then span 19 0 else span 13 0, 0) else none
  | 2 => if vuKnown op then
      some (span 28 0, span 31 0, span 31 22 + (if op = 0x24 ∨ op = 0x25 then span 21 0 else 0))
    else none
  | 7 => match op with
    | 0 => some (mn + span 9 6, span 7 0, 0)
    | 1 => some (mn + span 15 6, span 6 0, 0)
    | 2 => some (mn + span 15 6, span 13 0, 0)
    | 3 => some (mn + span 15 6, span 31 0, 0)
    | 4 => some (mn + span 8 6, 0, 0)
    | _ => none
  | 8 => if op ≤ 1 then some (mn + span 15 6, span 22 0, 0) else if op ≤ 3 then some (mn + span 15 6, span 19 0, 0) else none
  | 9 => if op ≤ 6 then some (span 31 0, 0, 0) else none
  | 10 => match op with
    | 0 => some (span 11 0, 0, 0)
    | 1 => some (span 24 0, 0, 0)
    | 2 => some (span 16 0, 0, 0)
    | 3 => some (span 19 0, 0, 0)
    | _ => none
  | 11 => some (span 27 0, 0, 0)
  | 12 => some (span 15 0, 0, 0)
  | _ => (tcFormat op).map (fun f => (if f = 0 then span 31 26 else if f = 1 then span 31 11 else span 31 0, 0, 0))

/-- A word has a bit outside a mask. -/
def strays (w : Word) (mask : Nat) : Bool := w &&& ~~~ (BitVec.ofNat 32 mask) ≠ 0

/-- Code 3 of Table 6.10: a refused operation or a reserved bit. -/
def Slot.refused (x : Slot) : Bool :=
  match x.used with
  | none => true
  | some (a, b, c) => strays x.w0 a || strays x.w1 b || strays x.w2 c

/-- The slot names a layer slot, and which. -/
def Slot.lslot (x : Slot) : Option Nat :=
  match x.unit with
  | 0 => if x.op ≤ 1 then some (bitsOf x.w0 11 6) else none
  | 1 => some (bitsOf x.w0 12 7)
  | 2 => if x.op = 0x24 ∨ x.op = 0x25 then some (bitsOf x.w2 19 14) else none
  | _ => none

/-- The slot names an entry of the mask table, and which. -/
def Slot.maskIdx (x : Slot) : Option Nat :=
  match x.unit with
  | 0 => if x.op ≤ 1 then some (bitsOf x.w0 19 12) else none
  | 7 => if x.op = 0 then some (bitsOf x.w1 7 0) else none
  | 10 => if x.op = 0 then some (bitsOf x.w0 11 4) else none
  | _ => none

/-- The credit queue that the slot's action consumes (R177, R181, R182). -/
def Slot.consumes (x : Slot) : Option Nat :=
  match x.unit with
  | 1 => if x.op = 1 then some (bitsOf x.w0 29 25) else none
  | 7 => if x.op ≠ 1 ∧ x.op ≤ 3 ∧ x.w0.getLsbD 4 then some (bitsOf x.w0 9 5) else none
  | 8 => if x.w0.getLsbD 4 ∧ !(x.op ≤ 1 ∧ x.w1.getLsbD 15) then some (bitsOf x.w0 9 5) else none
  | _ => none

/-- The fields of a row operation: array, first row or line, count. -/
def Slot.rows (x : Slot) : Nat × Nat × Nat := (bitsOf x.w0 10 4, bitsOf x.w0 20 11, bitsOf x.w0 31 21)

/-- Code 1 of Table 6.10 for one slot, of an image with `layers` layer slots in a slice with `masks` mask entries. -/
def Slot.badField (x : Slot) (layers masks : Nat) : Bool :=
  (match x.lslot with | some k => layers ≤ k | none => false) ||
  (match x.maskIdx with | some k => masks ≤ k | none => false) ||
  (match x.unit with
   | 0 => 2 ≤ x.op && !rowRange x.rows.2.1 x.rows.2.2 (if x.op = 3 then 32 else 1024)
   | 2 =>
     (x.op = 0x24 && !(1 ≤ bitsOf x.w2 7 0 && bitsOf x.w2 7 0 ≤ 0xFE && bitsOf x.w2 12 8 ≤ 16 && bitsOf x.w2 21 20 ≤ 2 &&
       bitsOf x.w1 8 0 = 0)) ||
     (x.op = 0x25 && !(bitsOf x.w2 13 0 = 0 && bitsOf x.w2 21 20 = 0)) ||
     ((x.op = 0x25 || 0x50 ≤ x.op) && bitsOf x.w1 5 0 ≠ 0)
   | 7 => (x.op = 1 && bitsOf x.w0 15 4 ≠ 0) || (x.op = 4 && x.w0.getLsbD 4)
   | _ => false)

/-! ## Declared times (Tables 6.4 to 6.9) -/

/-- The latency of a VU operation. -/
def vuLatency (op : Nat) (bf : Bool) (lanes : Nat) : Nat :=
  if op ≤ 0x05 then (if bf then 4 else 6)
  else if op ≤ 0x1A then 2
  else if op = 0x1B then 4
  else if op ≤ 0x23 then 3
  else if op ≤ 0x25 then 8
  else if op ≤ 0x42 then 12
  else if op = 0x43 then 20
  else if op = 0x44 then 6
  else if op = 0x45 then 60
  else if op = 0x46 then 4
  else if op = 0x52 then 2
  else (lanes * elemBytes bf + 511) / 512 + 1

/-- The latency of a tile core operation (Table 6.7). -/
def tcLatency (op : Nat) : Nat :=
  if op = 0x0B ∨ op = 0x0C then 3
  else if op = 0x18 ∨ op = 0x1D then 2
  else if op = 0x1A ∨ op = 0x1B then 4
  else 1

/-- The declared latency of a slot's action; `arrs` are the mode and the segment rows of each array it names whose configuration the
latency depends on (R166), `seg` those of its layer slot. -/
def Slot.latency (x : Slot) (seg : Nat) (arrs : List (Nat × Nat)) : Nat :=
  let worst := fun (f : Nat × Nat → Nat) => arrs.foldl (fun m a => max m (f a)) 0
  let mul := fun (rows : Nat) => 4 * (1024 / max 1 rows) + 6
  match x.unit with
  | 0 => if x.op = 0 then mul seg else if x.op = 1 then 2 else 2 * x.rows.2.2 + 1
  | 1 =>
    let cls := bitsOf x.w0 5 4
    (match x.op with
     | 0 => deLoadBeats cls
     | 1 => bitsOf x.w0 24 19 + 1 + 3
     | 2 => ((bitsOf x.w1 19 14 + 1) * deCols cls + 127) / 128 + 1
     | _ => 1)
  | 2 => vuLatency x.op (x.w0.getLsbD 28) (bitsOf x.w2 31 22 + 1)
  | 7 =>
    let lines := bitsOf x.w0 15 10 + 1
    (match x.op with
     | 0 => 6
     | 1 => worst (fun a => aresLines a.1) + 1
     | 2 => lines + 1
     | 3 => lines + 2
     | _ => 2)
  | 8 => if x.op ≤ 1 ∧ x.w1.getLsbD 15 then worst (fun a => (logCols a.1 + 31) / 32) + 1 else 4 * (bitsOf x.w0 15 10 + 1) + 1
  | 10 => if x.op = 0 then worst (fun a => mul a.2) else 1
  | u => if 3 ≤ u ∧ u ≤ 6 then tcLatency x.op else 1

/-- The arrays whose configuration a slot's latency depends on (R166). -/
def Slot.depends (x : Slot) (masks : List (BitVec 128)) : List Nat :=
  match x.unit with
  | 7 => if x.op = 1 then [bitsOf x.w1 6 0] else []
  | 8 => if x.op ≤ 1 ∧ x.w1.getLsbD 15 then [bitsOf x.w1 22 16] else []
  | 10 => if x.op = 0 then maskArrays (masks.getD (bitsOf x.w0 11 4) 0) else []
  | _ => []

/-- The tile store bytes that a slot names in its own words (R130): offset and length; `mode` is that of an array. -/
def Slot.touches (x : Slot) (mode : Nat → Nat) : List (Nat × Nat) :=
  let bytes := (bitsOf x.w2 31 22 + 1) * elemBytes (x.w0.getLsbD 28)
  let addr := 512 * bitsOf x.w0 29 16
  let lines := 512 * (bitsOf x.w0 15 10 + 1)
  match x.unit with
  | 0 => if 2 ≤ x.op then [(128 * bitsOf x.w1 15 0, (if x.op = 3 then 64 else 128) * x.rows.2.2)] else []
  | 1 =>
    let cls := bitsOf x.w0 5 4
    if x.op = 0 then [(512 * bitsOf x.w1 13 0, deRecord cls)]
    else if x.op = 2 then [(512 * bitsOf x.w1 13 0, 4 * (bitsOf x.w1 19 14 + 1) * deCols cls)]
    else []
  | 2 =>
    (match x.op with
     | 0x24 => [(x.w1.toNat, 2560)]
     | 0x25 => [(x.w1.toNat, 2048)]
     | 0x50 => [(x.w1.toNat, bytes)]
     | 0x51 => [(x.w1.toNat, bytes)]
     | 0x52 => [(x.w1.toNat, elemBytes (x.w0.getLsbD 28))]
     | _ => [])
  | 7 =>
    let q := x.w0.getLsbD 4
    (match x.op with
     | 0 => if q then [] else [(addr, 2560)]
     | 1 => [(addr, 512 * aresLines (mode (bitsOf x.w1 6 0)))]
     | 2 => (if q then [] else [(addr, lines)]) ++ [(512 * bitsOf x.w1 13 0, lines)]
     | 3 => if q then [] else [(addr, lines)]
     | _ => [(addr, 28)])
  | 8 =>
    if x.op ≤ 1 then (if x.w1.getLsbD 15 || x.w0.getLsbD 4 then [] else [(addr, lines)])
    else if x.w0.getLsbD 4 then [] else [(addr, lines)]
  | 10 => if x.op = 1 then [(8 * bitsOf x.w0 24 4, 8)] else []
  | _ =>
    let imm := ((BitVec.ofNat 16 (bitsOf x.w0 15 0)).signExtend 32 : Word).toNat
    if x.isTc && bitsOf x.w0 20 16 = 0 then
      if x.op = 0x18 ∨ x.op = 0x19 then [(imm, 4)] else if x.op = 0x1D then [(0, 28)] else []
    else []

/-! ## Records (R174) -/

/-- Where a reduction that the slot sends lands: the destination's logical tile, offset and length (R182, R205). -/
def Slot.lands (x : Slot) : Option (Nat × Nat × Nat) :=
  if x.unit = 8 ∧ x.op ≤ 1 then
    some (bitsOf x.w1 6 0, 512 * bitsOf x.w0 29 16, if x.w1.getLsbD 15 then 2048 else 512 * (bitsOf x.w0 15 10 + 1))
  else none

/-- A slot in its window, at its beat position. -/
structure Issue where
  win : Nat
  pos : Nat
  slot : Slot
  deriving DecidableEq, Repr

/-- What the records of a slice hold: where each window begins, the actions, and the codes of Table 6.10 that the records break. -/
structure Scan where
  beats : Nat := 0
  slack : Nat := 0
  ended : Bool := false
  wins : List Nat := []
  issues : List Issue := []
  codes : List Nat := []
  deriving DecidableEq, Repr

/-- Add a code when a condition holds. -/
def Scan.when (a : Scan) (b : Bool) (code : Nat) : Scan := if b then { a with codes := code :: a.codes } else a

/-- The window under way ends: its beats sum to L and hold SLACK_MIN slack beats. -/
def Scan.close (a : Scan) (l slackMin : Nat) : Scan :=
  if a.wins.isEmpty then a else (a.when (a.beats ≠ l) 2).when (a.slack < slackMin) 9

/-- The units of a beat word's slots: of an engine's record, its one unit. -/
def slotUnits (kind mask : Nat) : List Nat := if kind = 0 then (List.range 11).filter (fun u => mask.testBit u) else [10 + kind]

/-- A kind-0 header lies outside Table 6.3: bits 29 to 11 are not 0, or an engine's mask is not bit 0 alone. -/
def headerStrays (kind : Nat) (w : Word) : Bool := bitsOf w 29 11 ≠ 0 || (kind ≠ 0 && bitsOf w 10 0 ≠ 1)

/-- Take the slots of units from the words that follow a header; none when the words run out. -/
def takeSlots : List Nat → List Word → Option (List Slot × List Word)
  | [], ws => some ([], ws)
  | u :: us, ws =>
    let n := slotWords u
    if ws.length < n then none
    else (takeSlots us (ws.drop n)).map (fun p => (slotOf u (ws.take n) :: p.1, p.2))

/-- Read the records of a slice of a kind (0 tile, 1 link engine, 2 HBM engine) from slice byte `off` on. -/
def scanRecords (kind l slackMin : Nat) : Nat → List Word → Nat → Scan → Scan
  | 0, _, _, a => a
  | _, [], _, a => if a.ended then a else (a.close l slackMin).when true 2
  | n + 1, w :: ws, off, a =>
    let a := a.when a.ended 2
    match bitsOf w 31 30 with
    | 3 =>
      if bitsOf w 29 24 = 0 then
        let a := (a.close l slackMin).when (bitsOf w 23 0 ≠ a.wins.length % 2 ^ 24) 2
        scanRecords kind l slackMin n ws (off + 4) { a with beats := 0, slack := 0, wins := a.wins ++ [off] }
      else if bitsOf w 29 24 = 1 then
        let a := (a.close l slackMin).when (bitsOf w 23 0 ≠ 0) 3
        scanRecords kind l slackMin n ws (off + 4) { a with ended := true }
      else scanRecords kind l slackMin n ws (off + 4) (a.when true 1)
    | 0 =>
      let a := (a.when a.wins.isEmpty 2).when (headerStrays kind w) 1
      match takeSlots (slotUnits kind (bitsOf w 10 0)) ws with
      | none => a.when true 1
      | some (sl, rest) =>
        scanRecords kind l slackMin n rest (off + 4 * (1 + ws.length - rest.length)) { a with
          beats := a.beats + 1
          issues := a.issues ++ sl.map (fun x => Issue.mk (a.wins.length - 1) a.beats x) }
    | k =>
      let a := (a.when a.wins.isEmpty 2).when (bitsOf w 29 16 ≠ 0) 3
      let len := bitsOf w 15 0 + 1
      scanRecords kind l slackMin n ws (off + 4) { a with
        beats := a.beats + len
        slack := if k = 2 then a.slack + len else a.slack }

/-- The little-endian words of bytes; bytes left over give none. -/
def wordsOfBytes : Bytes → List Word
  | a :: b :: c :: d :: rest => BitVec.ofNat 32 (leNat [a, b, c, d]) :: wordsOfBytes rest
  | _ => []

/-! ## Images (R171 to R173) -/

/-- A slice with what its records hold. -/
structure ImgSlice where
  slice : Slice
  nmasks : Nat
  ok : Bool
  scan : Scan
  deriving DecidableEq, Repr

/-- The layer slot entry in 32 bytes (Table 6.2). -/
def layerSlotOf (b : Bytes) : LayerSlot where
  mode := fieldAt b 0 1
  seg := fieldAt b 1 1
  range := fieldAt b 2 1
  reserve := fieldAt b 3 1
  k := fieldAt b 4 1
  rr := fieldAt b 5 1
  l := fieldAt b 6 1
  flags := fieldAt b 7 1
  g := BitVec.ofNat 32 (fieldAt b 8 4)
  f := BitVec.ofNat 32 (fieldAt b 12 4)
  layer := fieldAt b 16 4
  ta := let g := BitVec.ofNat 32 (fieldAt b 8 4); tensorScaleOf g (Config.actScale g)

/-- A layer slot entry keeps the values of Table 6.2. -/
def layerSlotOk (b : Bytes) : Bool :=
  let x := layerSlotOf b
  x.mode ≤ 4 && x.seg ≤ 2 && x.range ≤ 3 && x.reserve ≤ 7 && x.k ≤ 16 && x.rr ≤ 1 && 1 ≤ x.l && x.l ≤ 0xFE && x.flags ≤ 3 &&
  fieldAt b 20 12 = 0

/-- The slice that entry i of the slice table names, in the image's bytes. An engine's slice with masks, a VARIANT that the header's
VARIANTS does not count and a LENGTH that is no multiple of 4 are not the table's values (DESIGN CHOICE, log entry 86: R172 does not name
them). -/
def imgSlice (b : Bytes) (l slackMin variants i : Nat) : ImgSlice :=
  let e := (b.drop (fieldAt b 28 4 + 16 * i)).take 16
  let target := fieldAt e 0 2
  let kind := target / 4096
  let nm := fieldAt e 4 2
  let off := fieldAt e 8 4
  let len := fieldAt e 12 4
  let bytes := (b.drop off).take len
  let recs := bytes.drop (16 * nm)
  let sc := scanRecords (min kind 2) l slackMin (recs.length + 1) (wordsOfBytes recs) (16 * nm) {}
  { slice := {
      kind := kind, num := target % 128, variant := fieldAt e 2 1, off := off, len := len
      masks := (List.range nm).map (fun k => BitVec.ofNat 128 (fieldAt bytes (16 * k) 16))
      wins := sc.wins }
    nmasks := nm
    ok := kind ≤ 2 && target / 128 % 32 = 0 && target % 128 < (if kind = 0 then 96 else if kind = 1 then 16 else 2) &&
      fieldAt e 2 1 < variants && fieldAt e 3 1 = 0 && nm ≤ 256 && (kind = 0 || nm = 0) && fieldAt e 6 2 = 0 && off % 64 = 0 &&
      16 * nm ≤ len && len % 4 = 0 && off + len ≤ b.length
    scan := sc }

/-- The size of an image: up to the last byte of its header, its tables and its slices; `head` holds the header and the tables. -/
def imageSize (head : Bytes) : Nat :=
  let st := fieldAt head 28 4
  let n := fieldAt head 24 4
  (List.range n).foldl (fun m i => max m (fieldAt head (st + 16 * i + 8) 4 + fieldAt head (st + 16 * i + 12) 4))
    (max 128 (max (st + 16 * n) (fieldAt head 32 4 + 32 * fieldAt head 36 2)))

/-- The digest of an image, its own field taken as zeros (R171). -/
def imageDigest (b : Bytes) : BitVec 512 := Config.sha512 (b.take 48 ++ List.replicate 64 0 ++ b.drop 112)

/-- The header keeps the values of Table 6.1 for partition n and window length l. -/
def headerOk (b : Bytes) (n l : Nat) : Bool :=
  fieldAt b 0 4 = 0x44565032 && fieldAt b 4 2 = 2 && fieldAt b 6 2 ≤ 1 && fieldAt b 8 4 = l && 1 ≤ fieldAt b 12 4 &&
  fieldAt b 12 4 ≤ 16777215 && (fieldAt b 16 4 < fieldAt b 12 4 || fieldAt b 16 4 = 0xFFFFFFFF) && 1 ≤ fieldAt b 22 1 &&
  fieldAt b 22 1 ≤ 4 && fieldAt b 23 1 = n && fieldAt b 28 4 % 64 = 0 && fieldAt b 32 4 % 64 = 0 && 1 ≤ fieldAt b 36 2 &&
  fieldAt b 36 2 ≤ 64 && fieldAt b 38 2 = 0 && fieldAt b 112 16 = 0

/-- The slices of an image. -/
def imgSlices (b : Bytes) (l : Nat) : List ImgSlice :=
  (List.range (fieldAt b 24 4)).map (imgSlice b l (fieldAt b 20 2) (fieldAt b 22 1))

/-- The layer slots of an image. -/
def imgLayers (b : Bytes) : List LayerSlot :=
  (List.range (fieldAt b 36 2)).map (fun i => layerSlotOf ((b.drop (fieldAt b 32 4 + 32 * i)).take 32))

/-- Each (TARGET, VARIANT) stands once, and every variant names the same targets (R172). -/
def variantsOk (sl : List ImgSlice) (variants : Nat) : Bool :=
  let key := fun (x : ImgSlice) => (x.slice.kind, x.slice.num)
  decide ((sl.map (fun x => (key x, x.slice.variant))).Nodup) &&
  (List.range variants).all (fun v => sl.all (fun x => sl.any (fun y => y.slice.variant = v && key y = key x)))

/-- The reductions of a tile slice: window, reduction ID, destination tile, landing offset, int32, flits; `mode` is that of an
array. -/
def ImgSlice.sends (x : ImgSlice) (mode : Nat → Nat) : List (Nat × Nat × Nat × Nat × Bool × Nat) :=
  if x.slice.kind ≠ 0 then []
  else x.scan.issues.filterMap (fun i =>
    let w := i.slot
    if w.unit = 8 ∧ w.op ≤ 1 then
      some (i.win, bitsOf w.w1 14 7, bitsOf w.w1 6 0, bitsOf w.w0 29 16, w.op = 1,
        if w.w1.getLsbD 15 then (logCols (mode (bitsOf w.w1 22 16)) + 31) / 32 else 4 * (bitsOf w.w0 15 10 + 1))
    else none)

/-- A sending action of an image: the variant, the sending tile, the window, and the reduction: ID, destination, landing offset, int32,
flits. -/
structure RedSend where
  variant : Nat
  tile : Nat
  win : Nat
  rid : Nat
  dest : Nat
  addr : Nat
  int : Bool
  flits : Nat
  deriving DecidableEq, Repr

/-- The reductions of an image keep the rules of R205: one destination, landing offset, type and flit count to an ID, the same number
of actions from every sender in each window of each variant, and no sender that is the destination. -/
def reductionsOk (l : List RedSend) : Bool :=
  let cnt := fun (t : Nat) (c : RedSend) =>
    (l.filter (fun a => a.tile = t && a.rid = c.rid && a.variant = c.variant && a.win = c.win)).length
  l.all (fun a => a.tile ≠ a.dest && l.all (fun b =>
    a.rid ≠ b.rid || ({ a with variant := 0, tile := 0, win := 0 } = { b with variant := 0, tile := 0, win := 0 } &&
      l.all (fun c => c.rid ≠ a.rid || cnt a.tile c = cnt b.tile c))))

/-- The bursts that an engine slice grants in window w. -/
def ImgSlice.grants (x : ImgSlice) (w : Nat) : Nat :=
  (x.scan.issues.filter (fun i => i.win = w)).foldl (fun m i => m + bitsOf i.slot.w0 15 4) 0

/-- The largest HBM4 grants of a window on either controller (R340). -/
def hbmPeakOf (sl : List ImgSlice) : Nat :=
  (sl.filter (fun x => x.slice.kind = 2)).foldl (fun m x => x.slice.wins.length |> fun k =>
    (List.range k).foldl (fun m w => max m (x.grants w)) m) 0

/-! ## The load checks (Table 6.10) -/

/-- A MUL's layer slot disagrees with array a of tile t (R47). -/
def State.mulDiffers (s : State) (t a : Nat) (l : LayerSlot) : Bool :=
  let cfg := s.getR (R.arrCfg t a)
  l.mode ≠ modeOf cfg || l.seg ≠ (if bitsOf cfg 9 8 = 3 then 0 else bitsOf cfg 9 8) || l.reserve ≠ bitsOf cfg 14 12

/-- The arrays that the MUL actions of the tile slices name, with the layer slot (logical tile, array, layer slot). -/
def namedArrays (sl : List ImgSlice) : List (Nat × Nat × Nat) :=
  let ofIssue := fun (x : ImgSlice) (i : Issue) =>
    if i.slot.unit = 0 ∧ i.slot.op = 0 then
      (maskArrays (x.slice.masks.getD (bitsOf i.slot.w0 19 12) 0)).map (fun a => (x.slice.num, a, bitsOf i.slot.w0 11 6))
    else []
  let l := (sl.filter (fun x => x.slice.kind = 0)).flatMap (fun x => x.scan.issues.flatMap (ofIssue x))
  l.eraseDups

/-- Mode and segment rows of array a of logical tile k for R166: those of the layer slot under which the image names it, else those of
its configuration; none where the tile has no valid map entry either. -/
def State.declaredOf (s : State) (named : List (Nat × Nat × Nat)) (layers : List LayerSlot) (k : Nat) (t : Option Nat) (a : Nat) :
    Option (Nat × Nat) :=
  match named.find? (fun e => e.1 = k && e.2.1 = a) with
  | some e =>
    let l := layers.getD e.2.2 {}
    some (l.mode, qaSeg l.seg)
  | none => t.map (fun t => (s.mode t a, s.segSize t a))

/-- The prefetchers of a tile whose descriptors feed credit queue q (R137): those queued now, and those that the slice's PFQ actions
queue, as their descriptors stand in the tile store at load (DEDUCED, log entry 41). -/
def State.feeders (s : State) (t : Nat) (is : List Issue) (q : Nat) : List Nat :=
  (List.range 16).filter (fun p => ((s.tile t).pfSt p).queue.any (fun d => d.cq = q) ||
    is.any (fun i => i.slot.unit = 7 && i.slot.op = 4 && bitsOf i.slot.w0 8 5 = p &&
      (let d := pfDescOf ((s.tile t).bytes (512 * bitsOf i.slot.w0 29 16) 28); s.pfReason t d = 0 && d.cq = q)))

/-- The prefetchers that free mode has (R149). -/
def State.freePfs (s : State) (t : Nat) : List Nat := (List.range 16).filter (fun p => (s.getF (F.tileTcModeFreePf t)).testBit p)

/-- A slot consumes a queue, or waits on an object, that free-mode cores produce through their prefetchers (R149, Table 6.10, code 7). -/
def State.fromFree (s : State) (t : Nat) (is : List Issue) (w : Slot) : Bool :=
  (match w.consumes with | some q => (s.feeders t is q).any (s.freePfs t).contains | none => false) ||
  (w.unit = 9 && opWaits w.op && (s.freePfs t).any (fun p => ((s.tile t).pfSt p).queue.any (fun d => d.doneObj = some (bitsOf w.w0 17 4))))

/-- A range of tile t's store reaches into the program buffer or the page cache (R130). -/
def State.strayRange (s : State) (t : Nat) (r : Nat × Nat) : Bool :=
  0 < r.2 && (r.1 < s.pbEnd t || (s.scratchEnd t < r.1 + r.2 && r.1 < storeSize))

/-- The codes that a slot of logical tile k of partition n breaks, code 1 aside; an RSEND to 96 to 127, which no map entry can name, breaks
code 10 (DESIGN CHOICE, log entry 86); `t` is the physical tile of its valid map entry, if it
has one. -/
def State.slotCodes (s : State) (n k : Nat) (t : Option Nat) (named : List (Nat × Nat × Nat)) (layers : List LayerSlot) (x : ImgSlice)
    (i : Issue) : List Nat :=
  let w := i.slot
  let seg := match w.lslot with | some j => qaSeg (layers.getD j {}).seg | none => 256
  let lat := w.latency seg ((w.depends x.slice.masks).filterMap (s.declaredOf named layers k t))
  let man := (s.prt n).wgt.anyMan
  let code := fun (b : Bool) (c : Nat) => if b then [c] else []
  code w.refused 3 ++
  code (s.winLen < i.pos + lat) 4 ++
  (if w.unit = 0 ∧ w.op = 0 then
    let j := bitsOf w.w0 11 6
    let l := layers.getD j {}
    let as := maskArrays (x.slice.masks.getD (bitsOf w.w0 19 12) 0)
    code (as.any (fun a => t.any (fun t => s.mulDiffers t a l) || named.any (fun e => e.1 = k && e.2.1 = a && e.2.2 ≠ j))) 5 ++
    code (l.flags % 2 = 1 || (match man with
      | some m => m.layers.any (fun y => y.layer = l.layer && y.sensitive && y.kind ≠ 1)
      | none => false)) 13
  else []) ++
  (match w.consumes with
   | some q => code (x.scan.issues.any (fun j => j.slot.consumes = some q && j.slot.unit ≠ w.unit) ||
       t.any (fun t => decide (1 < (s.feeders t x.scan.issues q).length))) 6
   | none => []) ++
  code (t.any (fun t => s.fromFree t x.scan.issues w)) 7 ++
  code (t.any (fun t => (w.touches (s.mode t)).any (s.strayRange t)) || w.lands.any (fun r => (s.phys r.1).any (fun d => s.strayRange d r.2))) 8 ++
  code ((w.unit = 9 && !s.objOwned n (bitsOf w.w0 17 4)) ||
    (w.unit = 7 && w.op = 3 && !s.hbmOwns n (64 * w.w1.toNat) (512 * (bitsOf w.w0 15 10 + 1))) ||
    (w.unit = 8 && w.op ≤ 1 && (!s.ownsLogical n (bitsOf w.w1 6 0) ||
      !(s.getF (F.netRidIdBase n) ≤ bitsOf w.w1 14 7 && bitsOf w.w1 14 7 < s.getF (F.netRidIdBase n) + s.getF (F.netRidIdCount n)))) ||
    (w.unit = 8 && 2 ≤ w.op && s.getF (F.partLinkShareEntries n (bitsOf w.w1 3 0)) = 0)) 10 ++
  code (w.isTc && 0x20 ≤ w.op && w.op ≤ 0x26) 11 ++
  code ((w.isTc && w.op = 0x1D && bitsOf w.w0 3 0 = 15) || (w.unit = 7 && w.op = 4 && bitsOf w.w0 8 5 = 15)) 12 ++
  code (w.unit = 8 && w.op ≤ 1 && (s.phys (bitsOf w.w1 6 0)).isNone) 14

/-- The codes that a slice of partition n breaks. -/
def State.sliceCodes (s : State) (n : Nat) (b : Bytes) (named : List (Nat × Nat × Nat)) (layers : List LayerSlot) (x : ImgSlice) :
    List Nat :=
  let code := fun (b : Bool) (c : Nat) => if b then [c] else []
  code (!x.ok || x.scan.issues.any (fun i => i.slot.badField layers.length x.nmasks)) 1 ++ x.scan.codes ++
  code (x.slice.wins.length ≠ fieldAt b 12 4) 2 ++
  (match x.slice.kind with
   | 0 =>
     code (!s.ownsLogical n x.slice.num) 10 ++
     code (s.phys x.slice.num).isNone 14 ++
     x.scan.issues.flatMap (s.slotCodes n x.slice.num (s.phys x.slice.num) named layers x)
   | 1 =>
     code (x.scan.issues.any (fun i => i.slot.refused)) 3 ++
     code (s.getF (F.partLinkShareEntries n x.slice.num) = 0 || x.scan.issues.any (fun i => bitsOf i.slot.w0 27 24 ≠ n ||
       (s.locked && s.portOwner x.slice.num i.pos ≠ n))) 10
   | _ =>
     code (x.scan.issues.any (fun i => i.slot.refused)) 3 ++
     code (x.scan.issues.any (fun i => bitsOf i.slot.w0 3 0 ≠ n) ||
       (s.locked && (List.range x.slice.wins.length).any (fun w => s.shareOf n * s.burstsPerBeat * s.winLen / 256 < x.grants w))) 10)

/-- Every code of Table 6.10 that an image of partition n breaks. -/
def State.loadCodes (s : State) (n : Nat) (b : Bytes) : List Nat :=
  let sl := imgSlices b s.winLen
  let layers := imgLayers b
  let named := namedArrays sl
  let vs := fieldAt b 22 1
  let mode := fun (k a : Nat) => ((s.declaredOf named layers k (s.phys k) a).map Prod.fst).getD 0
  let lt := fieldAt b 32 4
  (if headerOk b n s.winLen && variantsOk sl vs &&
      (List.range layers.length).all (fun i => layerSlotOk ((b.drop (lt + 32 * i)).take 32)) &&
      layers.all (fun e => tensorScaleOk e.ta || !(s.prt n).wgt.anyMan.any (fun m => m.layers.any (fun l => l.layer = e.layer))) then []
    else [1]) ++
  sl.flatMap (s.sliceCodes n b named layers) ++
  (if reductionsOk (sl.flatMap (fun x => (x.sends (mode x.slice.num)).map (fun e =>
      RedSend.mk x.slice.variant x.slice.num e.1 e.2.1 e.2.2.1 e.2.2.2.1 e.2.2.2.2.1 e.2.2.2.2.2))) then [] else [3])

/-- The lowest of some codes. -/
def lowest : List Nat → Option Nat
  | [] => none
  | c :: cs => some (cs.foldl min c)

/-- The credit queue that a tile slice leaves to its program loads: the highest-numbered one that no action of the slice consumes. -/
def ImgSlice.loadQueue (x : ImgSlice) : Nat :=
  ((List.range 32).reverse.find? (fun q => !x.scan.issues.any (fun i => i.slot.consumes = some q))).getD 31

/-- The program that an accepted image gives. -/
def progOf (b : Bytes) (base l : Nat) : Prog :=
  let sl := imgSlices b l
  { base := base
    size := b.length
    windows := fieldAt b 12 4
    loopTo := if fieldAt b 16 4 = 0xFFFFFFFF then none else some (fieldAt b 16 4)
    slackMin := fieldAt b 20 2
    variants := fieldAt b 22 1
    epoch := fieldAt b 40 8
    compat := fieldAt b 6 2 % 2 = 1
    layers := imgLayers b
    slices := sl.map (fun x => { x.slice with cq := x.loadQueue })
    sends := sl.flatMap (fun x => ((x.sends (fun _ => 0)).map (fun e => (x.slice.variant, e.2.1, x.slice.num, e.2.2.1))).eraseDups)
    hbmPeak := hbmPeakOf sl }

/-- The bytes of the image at HBM4 offset `base`, when it lies inside the partition. -/
def State.imageAt (s : State) (n base : Nat) : Option Bytes :=
  if !s.hbmOwns n base 128 then none
  else
    let h := s.hbmRead base 128
    let tabs := max 128 (max (fieldAt h 28 4 + 16 * fieldAt h 24 4) (fieldAt h 32 4 + 32 * fieldAt h 36 2))
    if !s.hbmOwns n base tabs then none
    else
      let size := imageSize (s.hbmRead base tabs)
      if !s.hbmOwns n base size then none else some (s.hbmRead base size)

/-- Load the image at an HBM4 offset into partition n (R188): the status and DETAIL of the reply, and the state after. A refused image
replaces nothing. -/
def State.progLoadAt (s : State) (n base : Nat) : (Nat × Nat) × State :=
  let refuse := fun (st c : Nat) => ((st, c), s.setF (F.partProgStatusDetail n) c)
  match s.imageAt n base with
  | none => refuse stBadParam 10
  | some b =>
    if imageDigest b ≠ BitVec.ofNat 512 (fieldAt b 48 64) then refuse stDigest 0
    else match lowest (s.loadCodes n b) with
      | some c => refuse stBadParam c
      | none =>
        let s := (s.setR (R.partProgBaseLo n) (BitVec.ofNat 32 base)).setR (R.partProgBaseHi n) (BitVec.ofNat 32 (base / 2 ^ 32))
        ((stOK, 0), (((s.modPrt n (fun x => { x with prog := some (progOf b base s.winLen), progWin := 0 })).setF
          (F.partProgStatusState n) 1).setF (F.partProgStatusDetail n) 0).refillCanary n |>.formFactors n)

/-! ## Commands (Table 10.4) -/

/-- PROG_PUT (R300, R372): bytes of an image for the partition's HBM4; the mirror holder gets them too. -/
def execProgPut (h : CmdHdr) (off : BitVec 64) (data : Bytes) (s : State) : Host.Outcome State Fault Refusal :=
  .next (
    let n := h.part.val
    let clear := match (s.prt n).prog with
      | some p => !s.running n || off.toNat + data.length ≤ p.base || p.base + p.size ≤ off.toNat
      | none => true
    s.command h true false (if n = 0 then off.toNat + data.length ≤ hbmSize else s.hbmOwns n off.toNat data.length) (s.partState n ≠ 0 && clear) true 0 (fun s =>
      ((s.hbmWrite off.toNat data).mirrorSend 1 n off.toNat data).done h false stOK 0 []))

/-- PROG_LOAD (R188). -/
def execProgLoad (h : CmdHdr) (off : BitVec 64) (s : State) : Host.Outcome State Fault Refusal :=
  .next (
    let n := h.part.val
    s.command h true false (off.toNat % 64 = 0 && n ≠ 0) (s.partState n = 1 && (s.prt n).usable && !s.running n) true 0 (fun s =>
      let r := s.progLoadAt n off.toNat
      r.2.done h false r.1.1 r.1.2 []))

end Sys2Proof.Machine
end

