-- ==== Sys2Proof/Machine/Failover.lean ====
section
/-! DEFINITION. Module failover (R368, R370 to R373): a failed slot, holds and their ends, the redirect to the standby module, and the
mirror record. -/

namespace Sys2Proof.Machine

/-! ## Failed slots (R370, R371) -/

/-- The partitions that a slot holds (R371): of those that this module holds the manifest says so; of the others nothing here says it, and it
is free (log entry 80). -/
def State.partsWith (s : State) (f : Nat) : List Nat :=
  (List.range 16).filter (fun n => if s.partState n ≠ 0 then s.holdsLayers n f else n ≠ 0 && Config.slotHolds f n)

/-- A module of the partition is failed over (R279): its swap aborts. -/
def State.swapOver (s : State) (n : Nat) : State :=
  match (s.prt n).wgt.swap with
  | some sw => if sw.coord then s.swapAbort n (Config.abortStatus 2) else s
  | none => s

/-- The master declares slot f failed (R370, R371): it logs the failure and holds every partition that f holds; the redirect to the
group's standby module is installed in the stop window. -/
def State.failSlot (s : State) (f cause : Nat) : State :=
  if s.cad.failedSlots.contains f then s
  else
    let t := s.standbyFor f
    let s := { s with cad := { s.cad with failedSlots := f :: s.cad.failedSlots } }.logEv srcCtl 0x1202 0xFF (detail 0x1202 [f, cause])
    let s := (s.each (s.partsWith f) (fun s n => (s.swapOver n).beginHold n 2 f (t.getD 0xFFFF))).mbxPeerLost f
    match t with
    | some d => s.addRedirect (s.win + 2) f d
    | none => s.relaysLost f

/-- This module acts as a master of its domain now. -/
def State.actsAsMaster (s : State) : Bool := s.cad.masterNow && s.locked

/-- FAILED (R370): a module reports itself failed. -/
def execFailed (slot : SlotN) (cause : BitVec 16) (_beat : BitVec 64) (s : State) : Host.Outcome State Fault Refusal :=
  if s.actsAsMaster then .next (s.failSlot slot cause.toNat) else .next s

/-- SILENT_SLOT (R370): no class-4 flit for 16 mark intervals. -/
def execSilentSlot (slot : SlotN) (s : State) : Host.Outcome State Fault Refusal :=
  if s.actsAsMaster && s.cad.running && s.others.contains slot.val && !s.cad.leftOut.contains slot.val &&
      !s.cad.vacated.contains slot.val then
    .next (s.failSlot slot (Config.failCause 12).toNat)
  else .next s

/-- DOMAIN_JOIN_TIMEOUT (R247): the slot is left out. -/
def execDomainJoinTimeout (slot : SlotN) (s : State) : Host.Outcome State Fault Refusal :=
  if !s.actsAsMaster || s.cad.running || s.cad.joined.contains slot.val || !s.others.contains slot.val then .next s
  else .next ({ s with cad := { s.cad with leftOut := (slot.val :: s.cad.leftOut).eraseDups } }.checkRun)

/-- CADENCE_LATE (R365, R366, R368): a LATE at the master announces an extension or raises the one announced; after the fourth hold
window of an episode the slot has failed. -/
def execCadenceLate (slot : SlotN) (window : BitVec 64) (lag : Word) (_supply : Bool) (s : State) : Host.Outcome State Fault Refusal :=
  .next (
    if !s.actsAsMaster then s
    else
      let l := lag.toNat
      let e := s.extCount l
      match s.cad.ext with
      | some x =>
        if x.x ≤ s.win || window.toNat ≥ x.x || l ≤ x.lag then s
        else { s with cad := { s.cad with ext := some ⟨x.x, e, l⟩ } }
      | none =>
        if 4 ≤ s.cad.episode then
          (s.logEv srcCtl 0x1102 0xFF (detail 0x1102 [window.toNat])).failSlot slot (Config.failCause 11).toNat
        else { s with cad := { s.cad with ext := some ⟨s.extWindow, e, l⟩ } })

/-! ## The mirror record (R372) -/

/-- Send pieces of a slot's mirror record to a slot. -/
def State.sendRecs (s : State) (d : Nat) (l : List MirrorRec) : State :=
  s.each l (fun s r => s.sendMgmt d 0x0907 (leBytes 1 r.kind ++ leBytes 1 r.part ++ leBytes 2 0 ++ leBytes 4 r.data.length ++
    leBytes 8 r.window ++ leBytes 8 r.off ++ r.data))

/-- The pieces of a slot's mirror record of some kinds, in order of the kinds. -/
def State.recsOf (s : State) (f : Nat) (kinds : List Nat) : List MirrorRec :=
  kinds.flatMap (fun k => s.cad.mirrors.filter (fun r => r.slot = f && r.kind = k))

/-- A verified shard that this module mirrors, as it came, in segments (R263, R371). -/
def State.sendShard (s : State) (d n epoch : Nat) (x : ShardSt) : State :=
  let raw := (x.segs.map Prod.snd).flatten
  s.each (List.range ((raw.length + 61423) / 61424)) (fun s i =>
    s.sendMsg { cls := 7, part := n, dest := d, stream := 0x0300
                payload := segBytes x.num (61424 * i) epoch ((raw.drop (61424 * i)).take 61424) })

/-- The mirror holder of a failed slot sends its standby module the slot's mirror record, each partition descriptor with the manifest
in force, and then the slot's images (R371). -/
def State.sendMirror (s : State) (f d : Nat) : State :=
  let man := fun (n : Nat) => (s.prt n).wgt.resident.man
  let s := s.sendRecs d ((s.recsOf f [0]).map (fun r =>
    { r with data := r.data ++ (match man r.part with | some m => m.bytes | none => []) }))
  let s := s.sendRecs d (s.recsOf f [2, 1, 3])
  s.each ((s.recsOf f [0]).map MirrorRec.part) (fun s n =>
    match man n with
    | none => s
    | some m => s.each ((s.prt n).wgt.resShards.filter (fun x => x.mirror && x.verified)) (fun s x => s.sendShard d n m.epoch x))

/-- Keep a piece of another module's mirror record: an empty descriptor ends what it describes. -/
def State.keepRec (s : State) (r : MirrorRec) : State :=
  let same := fun (x : MirrorRec) => x.slot = r.slot && x.part = r.part &&
    (if r.data.isEmpty && r.kind = 0 then true
     else if r.data.isEmpty && r.kind = 2 then (x.kind = 2 || x.kind = 3) && x.off = r.off
     else x.kind = r.kind && x.off = r.off)
  let l := s.cad.mirrors.filter (fun x => !same x)
  { s with cad := { s.cad with mirrors := if r.data.isEmpty then l else l ++ [r] } }

/-- Create a partition of the failed slot from its descriptor and manifest (R371): it stays held, and its images are staged as they
arrive. -/
def State.takeDesc (s : State) (n : Nat) (b : Bytes) : State :=
  if s.partState n ≠ 0 then s
  else
    let h := (s.prt n).hold
    let s := (s.partMake n (b.take 64)).modPrt n (fun x => { x with hold := h })
    let s := s.setR R.glbHold (s.getR R.glbHold ||| BitVec.ofNat 32 (2 ^ (16 + n)))
    if b.length ≤ 64 then s
    else
      let m := manifestOf (b.drop 64)
      let s := s.modWgt n (fun w => { w with
        manifest := some m, staging := { man := some m }, shards := (s.wantedShards m).filter (fun x => !x.mirror), staged := [], failed := [] })
      ((s.setF (F.partWgtStatusStage n) 1).judgeLayers n m).stageCheck n m

/-- Program bytes of the record; the image that opens with its magic is the one to load (Table 6.1). -/
def State.takeProg (s : State) (n off : Nat) (b : Bytes) : State :=
  let s := s.when (s.hbmOwns n off b.length) (·.hbmWrite off b)
  if fieldAt b 0 4 = 0x44565032 then
    (s.setR (R.partProgBaseLo n) (BitVec.ofNat 32 off)).setR (R.partProgBaseHi n) (BitVec.ofNat 32 (off / 2 ^ 32))
  else s

/-- Open a service from the record. -/
def State.takeSvc (s : State) (n : Nat) (b : Bytes) : State :=
  if (s.svc n (fieldAt b 0 4)).isSome || b.length ≠ 64 then s else s.svcAdd n { s.svcOf n b with opening := false }

/-- A standby module that takes the front role of a failed coordinator sends ROLLBACK in its place (R279). Requests of an epoch above the
manifest's say that a swap was on its way to it; without one the epoch is the next, "from epoch n to n + 1" (R273). -/
def State.swapHeir (s : State) (n : Nat) (reqs : List Request) : State :=
  let old := ((s.prt n).wgt.anyMan.map Manifest.epoch).getD 0
  let new := reqs.foldl (fun e r => max e r.epoch) 0
  if old < new then
    let w := (s.prt n).wgt
    let s := (s.swapBegin n new true 0).modWgt n (fun w => { w with epoch := BitVec.ofNat 64 old })
    (s.swapAbort n (Config.abortStatus 2)).modWgt n (fun x => { x with epoch := w.epoch })
  else s.each (s.modulesOf n) (fun s d => s.swapCtrl d 5 n (Config.abortStatus 2) 0 (old + 1))

/-- Take over a request table (R321, R372): active requests whose pages are gone restart, one whose FINAL record may not have been
written writes it, and each request's command is outstanding
here from now on. -/
def State.takeTable (s : State) (n : Nat) (b : Bytes) : State :=
  match s.svc n (fieldAt b 0 4) with
  | none => s
  | some v =>
    let keep := (s.prt n).hold = some 4
    let reqs := (requestsOf b.length (b.drop 4)).map (fun r =>
      if r.active && !keep then { r with state := .restart, held := false }
      else if r.state = .done then { r with state := .finish, closed := false } else r)
    let s := s.setSvc n { v with reqs := reqs }
    let s := s.each reqs (fun s r =>
      let x : Sender := if r.sender < 64 then .host r.sender else .slot (r.sender - 64)
      if s.bridge.outst.any (fun o => decide (o.sender = x) && o.tag = r.cmdTag) then s
      else { s with bridge := { s.bridge with outst := s.bridge.outst ++
        [⟨x, r.cmdTag, n, s.tenantOf n, 0x0502, 0, true, v.id * 2 ^ 32 + r.tag, false⟩] } })
    (s.when (!keep && s.isFront v) (fun s => s.swapHeir n reqs)).svcShow n

/-- A piece of the record of the module whose place this one takes, from the mirror holder. -/
def State.takeRec (s : State) (kind n off : Nat) (b : Bytes) : State :=
  match kind with
  | 0 => s.takeDesc n b
  | 1 => s.takeProg n off b
  | 2 => s.takeSvc n b
  | _ => s.takeTable n b

/-- MIRROR_REC (R371, R372): an acknowledgement lets the window's stream records go; the record of the module that this one mirrors is
kept; the record of the module whose place this one takes is taken. -/
def execMirrorRec (slot : SlotN) (kind : Fin 5) (n : PartN) (window : BitVec 64) (off : Nat) (data : Bytes) (s : State) :
    Host.Outcome State Fault Refusal :=
  .next (
    if kind = 4 then
      if window.toNat = s.win then s.mapSvcs n (fun v =>
        if v.id = off then { v with outReady := v.outReady ++ v.outQ, outQ := [] } else v) else s
    else if s.mirrorSlot = some slot.val && s.pwr.serves.isSome then s.takeRec kind.val n off data
    else if s.pwr.serves = some slot.val then s.takeRec kind.val n off data
    else if s.me.buddy = slot.val then
      let s := s.keepRec ⟨slot, kind.val, n, window.toNat, off, data⟩
      if kind = 3 then
        s.sendMgmt slot 0x0907 (leBytes 1 4 ++ leBytes 1 n ++ leBytes 2 0 ++ leBytes 4 0 ++ leBytes 8 window.toNat ++ leBytes 8 off)
      else s
    else s)

/-! ## Holds and redirects (R363, R371) -/

/-- The KV pages of a module that resets warm are lost (Table 15.4): requests with pages there restart. -/
def State.kvWarm (s : State) (n f : Nat) : State :=
  (s.kvRestart n f (fun _ => true)).modPrt n (fun x => { x with kv := { x.kv with
    borrowed := x.kv.borrowed.filter (fun b => b.1 / 65536 ≠ f) } })

/-- HOLD (R363, R371, R418). Requests with KV pages on a module that resets warm restart. A failover of a module under eject-prepare
takes the pages that it had not copied, which no message says and which are free (R432). -/
def execHold (n : PartN) (cause : BitVec 16) (y : BitVec 64) (from_ : SlotN) (to_ : BitVec 16) (s : State) :
    Host.Outcome State Fault Refusal :=
  .next (
    let s := s.when (to_.toNat ≠ 0xFFFF) (fun s => s.addRedirect y.toNat from_ to_.toNat)
    let s := s.when (cause = 4 && s.actsAsMaster && !s.cad.vacated.contains from_.val) (fun s =>
      { s with cad := { s.cad with vacated := from_.val :: s.cad.vacated } }.logEv srcCtl (0x1500 + (Config.code14 17).toNat) 0xFF from_)
    let s := s.when (cause = 2) (fun s => (s.swapOver n).mbxPeerLost from_)
    let s :=
      if s.partState n ≠ 0 && (s.prt n).hold.isSome then
        s.when (cause = 2 && (s.prt n).hold = some 4) (fun s =>
          (s.kvRestart n from_ (fun r => (Config.freeNat s.free).testBit (r.tag % 65536))).fresh)
      else s.heldHere n cause.toNat y.toNat to_.toNat
    s.when (cause = 3 && s.partState n ≠ 0) (fun s => s.kvWarm n from_))

/-- What a failed module's KV pages take with them (R371): requests with pages there restart, and the pages that it had borrowed here
are free. -/
def State.kvLost (s : State) (n f : Nat) : State :=
  let k := (s.prt n).kv
  let gone := (k.used.filter (fun e => e.2 / 65536 = f)).map Prod.fst
  ((s.kvRestart n f (fun _ => true)).modPrt n (fun x => { x with kv := { x.kv with
    used := x.kv.used.filter (fun e => !gone.contains e.1)
    data := x.kv.data.filter (fun e => !gone.contains e.1)
    borrowed := x.kv.borrowed.filter (fun b => b.1 / 65536 ≠ f) } })).kvShow n

/-- A module under eject-prepare sends its request tables and every KV page in use to the standby module (R431). -/
def State.ejectSend (s : State) (d : Nat) : State :=
  s.each ((List.range 16).filter (fun n => (s.prt n).hold = some 4)) (fun s n =>
    let s := s.each ((s.prt n).svcs.filter s.isFront) (fun s v =>
      let b := v.table
      s.sendMgmt d 0x0907 (leBytes 1 3 ++ leBytes 1 n ++ leBytes 2 0 ++ leBytes 4 b.length ++ leBytes 8 s.win ++ leBytes 8 v.id ++ b))
    let k := (s.prt n).kv
    s.each k.used (fun s e => s.each (List.range ((k.pageSize + 61375) / 61376)) (fun s i =>
      let b := k.page e.1 (61376 * i) (min 61376 (k.pageSize - 61376 * i))
      s.sendMsg { cls := 5, part := n, dest := d, stream := e.2 % 65536
                  payload := leBytes 1 3 ++ leBytes 1 0 ++ leBytes 2 0 ++ leBytes 4 e.1 ++ leBytes 4 (61376 * i) ++ leBytes 4 b.length ++ b })))

/-- The redirect of slot f to d is in force (R371). -/
def State.redirectIn (s : State) (f d : Nat) : State :=
  let k := ((List.range 8).find? (fun k => s.flag (F.glbRedirectValid k) && s.getF (F.glbRedirectFrom k) = f)).or
    ((List.range 8).find? (fun k => !s.flag (F.glbRedirectValid k)))
  let s := match k with
    | some k => ((s.setFlag (F.glbRedirectValid k) true).setF (F.glbRedirectFrom k) f).setF (F.glbRedirectTo k) d
    | none => s
  let s := s.mbxPeerLost f
  let s := s.each ((List.range 16).filter (fun n => s.partState n ≠ 0 && (s.prt n).hold ≠ some 4 && f ≠ s.slot)) (fun s n => s.kvLost n f)
  if f = s.slot then (if s.pwr.ejecting then s.ejectSend d else s)
  else if d = s.slot then
    if s.pwr.serves.isSome then s
    else
      let s := { s with pwr := { s.pwr with serves := some f } }
      s.when (s.me.bridge && !s.domOn 71) (fun s => (s.domainForce 71 2).bridgeOn)
  else if s.me.buddy = f then s.sendMirror f d
  else s

/-- Install the redirects whose window has come. -/
def State.redirectWindow (s : State) : State :=
  let now := s.cad.redirects.filter (fun r => r.1 ≤ s.win)
  let s := { s with cad := { s.cad with redirects := s.cad.redirects.filter (fun r => s.win < r.1) } }
  s.each now (fun s r => s.redirectIn r.2.1 r.2.2)

/-- A module that has taken a failed one's place rebuilds its mirror of its new buddy from the buddy's own slots (R373). -/
def State.rebuildMirror (s : State) (n : Nat) : State :=
  match (s.prt n).wgt.resident.man with
  | none => s
  | some m =>
    let l := (s.wantedShards m).filter (fun x => x.mirror)
    let s := s.modWgt n (fun w => { w with shards := w.shards.filter (fun x => !x.mirror) ++ l, mirrorRes := { man := some m } })
    s.each l (fun s x => s.shardAsk n x.num s.me.buddy m.epoch)

/-- A standby module loads the failed module's programs once its arrays and tile stores are written, and has the streamed layers' first
images written (R371, R281). -/
def State.standbyLoad (s : State) : State :=
  s.each ((List.range 16).filter (fun n => s.pwr.serves.isSome && (s.prt n).hold.isSome && s.partState n ≠ 0 && (s.prt n).prog.isNone &&
      (s.prt n).wgt.resident.man.isSome && (s.prt n).wgt.loading.isEmpty)) (fun s n =>
    let base := (s.getR (R.partProgBaseLo n)).toNat + (s.getR (R.partProgBaseHi n)).toNat * 2 ^ 32
    s.when (base ≠ 0) (fun s => let r := s.progLoadAt n base; r.2.startImages n))

/-- RESUME (R363, R371): a standby module loads the failed module's program, where it has not yet. -/
def execResume (n : PartN) (z : BitVec 64) (s : State) : Host.Outcome State Fault Refusal :=
  .next (
    if (s.prt n).hold.isNone then s
    else
      let base := (s.getR (R.partProgBaseLo n)).toNat + (s.getR (R.partProgBaseHi n)).toNat * 2 ^ 32
      let fresh := s.pwr.serves.isSome && (s.prt n).prog.isNone && s.partState n ≠ 0
      let s := s.when (fresh && base ≠ 0) (fun s => (s.progLoadAt n base).2)
      (s.takeResume n z.toNat).when fresh (fun s => s.rebuildMirror n))

/-- STANDBY_READY (R371, R431): the coordinator ends the hold; one under eject-prepare does not go on itself. -/
def execStandbyReady (slot : SlotN) (n : PartN) (s : State) : Host.Outcome State Fault Refusal :=
  .next (
    if !(s.prt n).coordHold || (s.prt n).hold = some 1 then s
    else
      let f := ((List.range 8).find? (fun k => s.flag (F.glbRedirectValid k) && s.getF (F.glbRedirectTo k) = slot.val)).map (fun k =>
        s.getF (F.glbRedirectFrom k))
      let s := s.logEv srcCtl 0x0F0B n (detail 0x0F0B [f.getD slot, slot.val])
      if s.pwr.ejecting then (s.sendResume n (s.win + 2)).modPrt n (fun x => { x with coordHold := false }) else s.endHold n)

end Sys2Proof.Machine
end

