-- ==== Sys2Proof/Machine/Thermal.lean ====
section
/-! DEFINITION. Thermal control: SENSOR_SAMPLE and THM_CFG_WRITE (R388 to R396, R412). Temperatures are in 0.25 °C. -/

namespace Sys2Proof.Machine

/-- The tiles one mesh hop from tile t in its half (Table 14.2). -/
def meshNeighbours (t : Nat) : List Nat :=
  let h := t / 48 * 48
  let c := (t - h) / 6
  let r := (t - h) % 6
  (if 0 < c then [h + (c - 1) * 6 + r] else []) ++ (if c < 7 then [h + (c + 1) * 6 + r] else []) ++
  (if 0 < r then [t - 1] else []) ++ (if r < 5 then [t + 1] else [])

/-- The neighbours of a sensor (Table 14.2). -/
def sensorNeighbours (k : Nat) : List Nat :=
  if k < 96 then meshNeighbours k
  else if k < 102 then [42 + (k - 96), 48 + (k - 96)]
  else if k < 105 then [2 * (k - 102), 2 * (k - 102) + 1]
  else if k < 108 then [90 + 2 * (k - 105), 90 + 2 * (k - 105) + 1]
  else if k < 110 then (List.range 4).map (fun i => (4 * (k - 108) + i) * 6)
  else (List.range 4).map (fun i => 48 + (4 * (k - 110) + i) * 6)

/-- The temperature that a sensor stands for (R391). -/
def State.temp (s : State) (k : Nat) : Nat := s.getF (F.thmSensTemp k)

/-- What the thermal controller keeps of a sensor beyond its register. -/
def State.sens (s : State) (k : Nat) : SensSt := Sparse.get (fun _ => {}) s.thm.sens k
/-- Replace it. -/
def State.setSens (s : State) (k : Nat) (x : SensSt) : State :=
  { s with thm := { s.thm with sens := Sparse.set (fun _ => {}) s.thm.sens k x } }

/-- The working neighbours of a sensor: sampled and not broken. -/
def State.working (s : State) (k : Nat) : List Nat :=
  (sensorNeighbours k).filter (fun j => !s.flag (F.thmSensBroken j) && (s.sens j).seen)

/-- Insertion into an ascending list. -/
def insertAsc (x : Nat) : List Nat → List Nat
  | [] => [x]
  | y :: ys => if x ≤ y then x :: y :: ys else y :: insertAsc x ys

/-- The median of the neighbours' temperatures, the lower middle value of an even count (R390). -/
def medianLow (l : List Nat) : Nat := (l.foldr insertAsc []).getD ((l.length - 1) / 2) 0

/-- A temperature as the 12 bits that hold it. -/
def clampTemp (x : Int) : Nat := if x < 0 then 0 else min x.toNat 4095

/-- RATE for a last temperature (R389): the boundaries are 5 °C below the throttle and shutdown levels in force. -/
def State.rateFor (s : State) (temp : Nat) : Nat :=
  if temp < s.getF F.thmCfgTh - 20 then 0 else if temp < s.getF F.thmCfgShut - 20 then 1 else 2

/-- The hottest of the 112 sensors, the lowest number on a tie, and T_max (R391). -/
def State.hottest (s : State) : Nat × Nat :=
  (List.range 112).foldl (fun b k => if b.2 < s.temp k then (k, s.temp k) else b) (0, s.temp 0)

/-- Set or clear the warning and the throttle level, each with its log entry (R392). -/
def State.levels (s : State) (k tmax : Nat) : State :=
  let warn := s.getF F.thmCfgWarn
  let th := s.getF F.thmCfgTh
  let s :=
    if !s.flag F.thmStatusWarn && warn ≤ tmax then (s.setFlag F.thmStatusWarn true).logEv srcHk 0x1301 0xFF (detail 0x1301 [k, tmax])
    else if s.flag F.thmStatusWarn && tmax < warn - 20 then
      (s.setFlag F.thmStatusWarn false).logEv srcHk 0x1302 0xFF (detail 0x1302 [k, tmax])
    else s
  if !s.flag F.thmStatusThrottle && th ≤ tmax then
    (s.setFlag F.thmStatusThrottle true).logEv srcHk 0x1303 0xFF (detail 0x1303 [k, tmax, s.getF F.thmStatusReq])
  else if s.flag F.thmStatusThrottle && tmax < th - 20 then
    (s.setFlag F.thmStatusThrottle false).logEv srcHk 0x1304 0xFF (detail 0x1304 [k, tmax, s.getF F.thmStatusReq])
  else s

/-- The thermal request that T_max calls for (R393): min(50, max(1, ⌈4 × (T_max − TH)⌉)) percent while the throttle level is set. -/
def State.thermalWant (s : State) (tmax : Nat) : Nat :=
  if s.flag F.thmStatusThrottle then min 50 (max 1 (tmax - s.getF F.thmCfgTh)) else 0

/-- Recompute the thermal request at time `us` (R393): a higher value takes effect at once, a lower one only when every value
of the last millisecond has been lower than the request in force, and then the highest of them. -/
def State.thermalReq (s : State) (tmax us : Nat) : State :=
  let v := s.thermalWant tmax
  let hist := (us, v) :: s.thm.hist.filter (fun e => us < e.1 + 1000)
  let s := { s with thm := { s.thm with hist := hist } }
  let now := s.getF F.thmStatusReq
  if now < v then s.setF F.thmStatusReq v
  else if hist.all (fun e => e.2 < now) then s.setF F.thmStatusReq (hist.foldl (fun m e => max m e.2) 0)
  else s

/-- Thermal shutdown by sensor k (R395): the NV record, the units, self-refresh, the domains, the rails, in this order; the
shutdown latch; the module is failed. -/
def State.thermalShutdown (s : State) (k temp : Nat) : State :=
  let s := (s.nvRecord 1 temp k).stopUnits
  let s := (s.logEv srcHk 0x1305 0xFF (detail 0x1305 [k, temp])).failModule 1
  let s := { s with pwr := { s.pwr with hbmRefresh := true, running := if s.pwr.recovering then s.pwr.running else none } }
  let s := s.allDomainsOff.railsOff
  ((s.setFlag F.thmStatusShutdown true).setF F.pwrModeState 5).indicate 0 1 false

/-- Take one reading: the cross-check against the neighbours, the estimate of a broken sensor, the sensor's own rate (R389 to
R391). Answers the state and whether the reading deviates without the sensor being broken. -/
def State.takeReading (s : State) (k raw : Nat) : State × Bool :=
  let last := s.temp k
  let ns := s.working k
  let m : Int := medianLow (ns.map s.temp)
  let d := Config.thermalDelta k s.free
  let x := s.sens k
  let s := s.fresh
  let s := s.setF (F.thmSensRate k) (if x.seen then s.rateFor last else 0)
  let s := s.setF (F.thmSensRaw k) raw
  let est := if ns = [] then last else clampTemp (m + d)
  if s.flag (F.thmSensBroken k) then ((s.setF (F.thmSensTemp k) est).setSens k { x with seen := true }, false)
  else if 2 ≤ ns.length ∧ 32 < ((raw : Int) - m - d).natAbs then
    if 8 ≤ x.deviant + 1 then
      let s := (s.setFlag (F.thmSensBroken k) true).setF (F.thmSensTemp k) est
      let s := (s.setSens k { x with seen := true, deviant := x.deviant + 1 }).logEv srcHk 0x0F0E 0xFF k
      (if 8 < ((List.range 112).filter (fun j => s.flag (F.thmSensBroken j))).length then s.failModule 2 else s, false)
    else
      ((s.setF (F.thmSensTemp k) raw).setSens k { x with seen := true, deviant := x.deviant + 1 }, true)
  else ((s.setF (F.thmSensTemp k) raw).setSens k { x with seen := true, deviant := 0 }, false)

/-- SENSOR_SAMPLE (R389): the reading, T_max and the levels, the request when this sensor holds T_max, and shutdown at the second
of two consecutive samples at or above SHUT that do not deviate (R395). -/
def execSensorSample (k : Fin 112) (reading : BitVec 12) (timeUs : Nat) (s : State) : Host.Outcome State Fault Refusal :=
  .next (
    let p := s.takeReading k reading.toNat
    let s := p.1
    let h := s.hottest
    let s := ((s.setF F.thmStatusHottest h.1).setF F.thmStatusTmax h.2).levels h.1 h.2
    let s := if h.1 = k.val then s.thermalReq h.2 timeUs else s
    let s := s.refreshReq
    if p.2 then s
    else
      let x := s.sens k
      if s.getF F.thmCfgShut ≤ s.temp k then
        let s := s.setSens k { x with overShut := x.overShut + 1 }
        if 2 ≤ x.overShut + 1 && !s.flag F.thmStatusShutdown then s.thermalShutdown k (s.temp k) else s
      else s.setSens k { x with overShut := 0 })

/-- THM_CFG accepts a write (R412). -/
def thmCfgOk (w : Word) : Bool :=
  let shut := bitsOf w 29 20
  let th := bitsOf w 19 10
  let warn := bitsOf w 9 0
  warn < th && th + 32 ≤ shut && 400 ≤ shut && shut ≤ 472 && 340 ≤ th

/-- A write of THM_CFG: one that breaks the rules is ignored and sets CFG_ERR (R412). -/
def State.thmCfgWrite (s : State) (w : Word) : State :=
  if thmCfgOk w then s.setR R.thmCfg (withBits w 31 30 0) else s.setFlag F.thmStatusCfgErr true

/-- THM_CFG_WRITE (R412). -/
def execThmCfgWrite (w : Word) (s : State) : Host.Outcome State Fault Refusal := .next (s.thmCfgWrite w)

end Sys2Proof.Machine
end

