-- ==== Sys2Proof/Machine/Power.lean ====
section
/-! DEFINITION. Power domains by command, supply monitoring, and installed housekeeping values (R384 to R387, R397 to R402, R411,
R412). -/

namespace Sys2Proof.Machine

/-! ## Power domains (R386, R387) -/

/-- A write of PWR_DOMk.REQ: by anyone but control-core firmware it is ignored and logged (R387). -/
def State.domWrite (s : State) (k req : Nat) (core : Bool) : State :=
  if core then s.domainReq k req else s.logEv srcHk (code14 1) 0xFF k

/-- PWR_DOM_REQ_WRITE (R386, R387). -/
def execPwrDomReqWrite (k : Fin 72) (req : Fin 4) (core : Bool) (s : State) : Host.Outcome State Fault Refusal :=
  .next (s.domWrite k req core)

/-- DOMAIN_SWITCH_DONE (R385, R386): the domain's mode is the one it switched to; a bridge's endpoint that comes on is enabled (R15,
R254). -/
def execDomainSwitchDone (k : Fin 72) (s : State) : Host.Outcome State Fault Refusal :=
  match s.pwr.domRamp.find? (fun x => x.1 = k.val) with
  | none => .next s
  | some x =>
    let s := { s with pwr := { s.pwr with domRamp := s.pwr.domRamp.erase x } }.domainSet k x.2
    .next ((s.when (k = 71 && x.2 = 2 && s.me.bridge) (fun s => s.bridgeOn)).rampNext)

/-! ## Supply comparators (R397 to R400) -/

/-- SUP_CFG accepts a write (R412). -/
def supCfgOk (w : Word) : Bool :=
  let warn := bitsOf w 7 0
  let reset := bitsOf w 15 8
  let stretch := bitsOf w 23 16
  90 ≤ warn && warn ≤ 97 && 85 ≤ reset && reset + 3 ≤ warn && 10 ≤ stretch && stretch ≤ 50

/-- A write of SUP_CFG: one that breaks the rules is ignored and sets CFG_ERR (R412). -/
def State.supCfgWrite (s : State) (w : Word) : State :=
  if supCfgOk w then s.setR R.supCfg (withBits w 31 24 0) else s.setFlag F.supStatusCfgErr true

/-- SUP_CFG_WRITE (R412). -/
def execSupCfgWrite (w : Word) (s : State) : Host.Outcome State Fault Refusal := .next (s.supCfgWrite w)

/-- SUPPLY_WARNING (R398): the warning comparator of a rail fires at a voltage in mV. -/
def execSupplyWarning (rail : Fin 3) (mv : BitVec 12) (s : State) : Host.Outcome State Fault Refusal :=
  .next (
    if !s.pwr.railsOn then s
    else
      let k := rail.val
      let s := { s with pwr := { s.pwr with warned := insertAsc k (s.pwr.warned.filter (· ≠ k)) } }
      let s := (((s.setFlag (F.supRailWarn k) true).setF (F.supRailMin k) mv.toNat).addF (F.supRailWarnings k) 1)
      let s := ((s.setFlag F.supStatusWarn true).setFlag F.supStatusHold false).setF F.supStatusReq (s.getF F.supCfgStretch)
      (s.report srcHk 0x1306 0xFF 2 0 (detail 0x1306 [k, s.setPoint k / 4])).refreshReq)

/-- SUPPLY_WARNING_RELEASE (R399): every warned rail has risen again, with the minimum that each reached; the hold begins. -/
def execSupplyWarningRelease (minCore minArr minSram : BitVec 12) (s : State) : Host.Outcome State Fault Refusal :=
  .next (
    if !s.flag F.supStatusWarn then s
    else
      let m := fun (k : Nat) => if k = 0 then minCore.toNat else if k = 1 then minArr.toNat else minSram.toNat
      let s := s.each s.pwr.warned (fun s k => (s.setFlag (F.supRailWarn k) false).setF (F.supRailMin k) (min (s.getF (F.supRailMin k)) (m k)))
      (s.setFlag F.supStatusWarn false).setFlag F.supStatusHold true)

/-- Forced calibrations that waited for the end of a supply warning and its hold start (R359). -/
def State.dueCals (s : State) : State :=
  s.each ((s.arrays.filter (fun e => e.2.calDue)).map Prod.fst) (fun s k => s.forceCal (k / 128) (k % 128) 0)

/-- SUPPLY_HOLD_END (R399). -/
def execSupplyHoldEnd (s : State) : Host.Outcome State Fault Refusal :=
  .next (
    if !s.flag F.supStatusHold then s
    else
      let s := s.each s.pwr.warned (fun s k => s.report srcHk 0x0F0F 0xFF 2 0 (detail 0x0F0F [k, s.getF (F.supRailMin k)]))
      let s := { s with pwr := { s.pwr with warned := [] } }
      (((s.setFlag F.supStatusHold false).setF F.supStatusReq 0).refreshReq).dueCals)

/-- The module goes into supply-reset recovery (R400, R420): reset commands under way end, and it is failed. -/
def State.enterRecovery (s : State) : State :=
  { s with pwr := { s.pwr with recovering := true, running := some .supply, heldAt2 := false } }.failModule 3

/-- The module stays with its rails off (R420, R430). -/
def State.holdOff (s : State) : State :=
  ({ s with pwr := { s.pwr with heldOff := true } }.setF F.pwrModeState 6).indicate 0 1 false

/-- SUPPLY_RESET (R400, R420): a reset comparator fires; the third time within 10 s the module is held off. -/
def execSupplyReset (rail : Fin 3) (minMv : BitVec 12) (timeUs : Nat) (s : State) : Host.Outcome State Fault Refusal :=
  .next (
    if !s.pwr.railsOn then s
    else
      let s := (s.setF (F.supRailMin rail) minMv.toNat).stopUnits
      let s := ((s.nvRecord 2 minMv.toNat rail).railsOff).report srcHk 0x1307 0xFF 2 0 (detail 0x1307 [rail.val, minMv.toNat])
      let s := s.enterRecovery
      let times := timeUs :: s.pwr.supplyTimes.filter (fun t => timeUs - t ≤ 10000000)
      let s := { s with pwr := { s.pwr with supplyTimes := times } }.setF F.glbRstSupplyRun times.length
      if 3 ≤ times.length then s.holdOff else s)

/-- SET_POINT_HOLD_END (R397): the comparators use the new set point alone. -/
def execSetPointHoldEnd (s : State) : Host.Outcome State Fault Refusal :=
  .next { s with pwr := { s.pwr with oldSet := none } }

/-! ## Installed values (R411) -/

/-- The registers whose reset values the firn's settings block holds (Table 14.6). -/
def installedRegs : List Reg :=
  [R.thmCfg, R.supCfg, R.hkTimer, R.hkMask 0, R.hkMask 1] ++ (List.range 16).map R.hkPwm ++ (List.range 16).map R.hkCmpBnd ++
  (List.range 16).map R.hkCmpCfg

/-- The installed word of a register; a comparator's STATE starts at inside. -/
def State.installedWord (s : State) (r : Reg) : Word := Sparse.get regDefault s.firn.settings r.addr

/-- Put installed values in force. -/
def State.loadSettings (s : State) (l : List Reg) : State := s.each l (fun s r => s.setR r (s.installedWord r))

/-- The fields in force become the installed values (R411). -/
def State.installSave (s : State) : State :=
  { s with firn := { s.firn with settings := installedRegs.foldl (fun m r =>
    Sparse.set regDefault m r.addr (if r.kind = .hkCmpCfg then withBits (s.getR r) 29 28 0 else s.getR r)) s.firn.settings } }

/-- PWR_INSTALL_SAVE (R411). -/
def execPwrInstallSave (s : State) : Host.Outcome State Fault Refusal := .next s.installSave

end Sys2Proof.Machine
end

