-- ==== Sys2Proof/Machine/Resets.lean ====
section
/-! DEFINITION. Power-on, module reset, supply-reset recovery, warm reset and tile reset (R415 to R421, R427, R428), and the pins and
contacts that start them (R401, R429, R466). -/

namespace Sys2Proof.Machine

/-! ## What a start takes from its records (R3, R4, R240, R362, R385) -/

/-- The reserve tiles of a half (R362). -/
def State.recordReserve (s : State) (h : Nat) : Nat := if h = 0 then (s.firn.cfg.reserve + 1) / 2 else s.firn.cfg.reserve / 2

/-- The tile map's entry of logical tile k from the configuration record: the good tiles of a half in ascending order, less its
reserve tiles (R362). -/
def State.recordMap (s : State) (k : Nat) : Nat :=
  let h := k / 48
  let good := ((List.range 48).map (fun i => 48 * h + i)).filter (fun t => !s.firn.cfg.bad.contains t)
  match (good.take (good.length - s.recordReserve h))[k % 48]? with
  | some t => 128 + t
  | none => 0

/-- The spare assignments come from the repair map of the configuration record (R67, R153, R204): spare bit-columns with the counts of
free ones, spares of the DE, the VU and the reduction adders, and spare wires. -/
def State.loadRepair (s : State) : State :=
  let whole : List RegKind := [.arrSpareMap, .deSpare, .vuSpareMap]
  let map := (s.firn.cfg.repair.filterMap (fun e => (Reg.ofAddr e.1).map (fun r => (r, e.2)))).filter (fun e =>
    e.1.kind = .netRstat || whole.contains e.1.kind)
  let s := { s with regs := s.regs.filter (fun e => match Reg.ofAddr e.1 with | some r => !whole.contains r.kind | none => true) }
  let s := s.each (s.regs.filterMap (fun e => Reg.ofAddr e.1)) (fun s r =>
    s.when (r.kind = .arrStatus) (fun s => s.setF (F.arrStatusSparesFree r.i r.j) 64))
  let s := s.each map (fun s e => s.setR e.1 (if whole.contains e.1.kind then e.2 else withBits (s.getR e.1) 6 0 (bitsOf e.2 6 0)))
  let cols := map.filter (fun e => decide (e.1.kind = RegKind.arrSpareMap) && e.2.getLsbD 31)
  let s := s.each ((cols.map (fun e => (e.1.i, e.1.j))).eraseDups) (fun s x =>
    s.setF (F.arrStatusSparesFree x.1 x.2) (64 - (cols.filter (fun e => e.1.i = x.1 && e.1.j = x.2)).length))
  let used := fun (k : Nat) => Sparse.get (fun _ => 0) s.firn.cfg.wires k
  let s := s.each (s.firn.cfg.wires) (fun s e => s.modRouter (e.1 / 128) (fun x => { x with
    wires := Sparse.set (fun _ => 8) x.wires (e.1 % 128) (8 - e.2) }))
  s.each (List.range 6) (fun s r => s.setF (F.netSeamSparesFree r) (16 - used (128 * (42 + r) + 2) - used (128 * (48 + r) + 4)))

/-- The module takes its tile map, reserve, slot, roles and ports from the configuration record and the topology table. -/
def State.loadRecord (s : State) : State :=
  let s := s.loadRepair.each (List.range 96) (fun s t => s.setFlag (F.tileIdPresent t) (!s.firn.cfg.bad.contains t))
  let s := s.each (List.range 96) (fun s k => s.setR (R.glbTmapCur k) (BitVec.ofNat 32 (s.recordMap k)))
  let s := ((s.setF F.glbReserveWest (s.recordReserve 0)).setF F.glbReserveEast (s.recordReserve 1)).setF F.pwrSlotSlot s.firn.slotPins
  let s := s.useTopo (s.firn.topoNext.getD s.firn.topo)
  { s with firn := { s.firn with topoNext := none, topoCollect := [], fwCollect := [] } }.lockDomains

/-- Domains that are not LOCKED turn on, and the others go off; the PCIe endpoint is on for a bridge alone (R15, R385). -/
def State.domainsOn (s : State) : State :=
  s.each (List.range 72) (fun s k =>
    if !s.flag (F.pwrDomLocked k) && (k ≠ 71 || s.me.bridge) then s.domainForce k 2 else s.domainForce k 0)

/-- The arrays of the present tiles. -/
def State.allArrays (s : State) : List (Nat × Nat) :=
  ((List.range 96).filter (fun t => !s.absent t)).flatMap (fun t => (List.range 128).map (fun a => (t, a)))

/-- The arrays start again (R61, R63, R287): their cells are kept or lost, their reference columns are written, and their coefficients and
queues are lost; `unver` is what UNVERIFIED becomes, which M and S set (Table 2.9). The initialiser writes the
reference columns themselves; a live spare that stands in for one keeps its cells, and holds zeros when the cells are lost (DESIGN
CHOICE, log entry 84: R63 says nothing of such a spare). -/
def State.arraysRestart (s : State) (lost : Bool) (unver : Option Bool) : State :=
  s.each s.allArrays (fun s x =>
    (s.modArr x.1 x.2 (fun y => {
      rows := if lost then [] else Sparse.mapAll rowDefault y.rows (fun i r => { r with refs := (rowDefault i).refs })
      scale := if lost then [] else y.scale
      wsum := if lost then [] else y.wsum
      held := if lost then none else y.held
      liveSeq := y.liveSeq })).when unver.isSome (·.setFlag (F.arrStatusUnverified x.1 x.2) (unver.getD false)))

/-- The weights of a partition that a reset leaves in HBM4 (R421, R427). -/
def WgtSt.survivor (w : WgtSt) : WgtSt :=
  { epoch := w.epoch, resident := w.resident, mirrorRes := w.mirrorRes, resShards := w.resShards, stream := w.stream,
    slotB := w.slotB }

/-- The descriptors that the housekeeping island keeps over a reset (R421). -/
def State.descsToKeep (s : State) : List (Nat × Bytes) :=
  let now := ((List.range 16).filter (fun n => n ≠ 0 && s.partState n ≠ 0)).map (fun n => (n, (s.prt n).desc))
  now ++ s.pwr.keptDescs.filter (fun e => !now.any (fun x => x.1 = e.1))

/-- The control cores boot, the domains turn on, and the module comes up towards its domain (R417 steps 3 to 5, R428). An erase that
was cut short is completed first (R449); while debug is open the module joins no domain (R450). -/
def State.comeUp (s : State) (lost : Bool) (unver : Option Bool) : State :=
  let s := s.when s.firn.erasePending State.firnErase
  let s := ((s.loadRecord.domainsOn).arraysRestart lost unver).fillBuckets 0
  let s := ((s.secShow.newDbgNonce).newSessNonce).indicate 2 (bit (s.flag F.secDbgOpen)) false
  let s := s.deriveKeys.secureBoot
  let s := s.when (s.me.bridge && s.domOn 71) State.bridgeOn
  if !s.pwr.booted then s else if s.flag F.secDbgOpen && s.topoOk then s.trainPorts else s.bringUp

/-- What leaves the module with every module-wide reset: engines, routers, ports, waiting messages, the bridge and the domain. Mirror
records of other modules stay. -/
def State.unitsLost (s : State) : State :=
  { s with
    tiles := [], routers := [], rime := [], syncWaits := [], ports := [], seamBytes := [], bridge := {}, thm := {}, hk := {}
    cad := { mirrors := s.cad.mirrors }
    sec := { s.sec with tenantKeys := [], manKeys := [], keyMsgs := [], resp := [], answers := [], refused := [], erasing := none, activating := 0,
                        handover := false } }

/-- The power state of a module that starts again. -/
def PwrSt.restart (p : PwrSt) : PwrSt :=
  { inputGood := true, railsOn := true, hotSwap := true, presA := true, presB := true, island := true, cores := true, holdUp := true,
    resetPin := p.resetPin, supplyTimes := p.supplyTimes, keptDescs := p.keptDescs }

/-! ## Power-on (R428) -/

/-- The first power-on creates the image salt (R435). -/
def State.saltOn (s : State) : State :=
  if s.firn.imageSalt.isSome then s
  else { s with firn := { s.firn with imageSalt := some (BitVec.ofNat 256 (Config.freeNat s.free)) }, free := s.free + 1 }

/-- Power-on: every field with letter O returns to its reset value; arrays, stores and HBM4 hold zeros; debug closes (R450). -/
def State.powerOn (s : State) : State :=
  let wasOpen := s.flag F.secDbgOpen
  let s := s.unitsLost.clearBy .o (fun _ => true)
  let s := { s with
    ctr := [], arrays := [], parts := [], log := {}, hbm := [], hbmBad := []
    cad := {}
    sec := { fuses := s.sec.fuses }
    pwr := { s.pwr.restart with supplyTimes := [], keptDescs := [] } }
  let s := ((s.setF F.glbRstLast 1).loadSettings installedRegs).when wasOpen (fun s => s.logSec 0x160C 1)
  s.saltOn.comeUp true (some false)

/-- The module is running, or on its way: its island has power. -/
def State.isOn (s : State) : Bool := s.pwr.island && s.pwr.inputGood

/-- POWER_ON (R428): input power first stays above 42 V, with the module mated. -/
def execPowerOn (s : State) : Host.Outcome State Fault Refusal := if s.isOn then .next s else .next s.powerOn

/-! ## Module reset and supply-reset recovery (R417, R420, R421) -/

/-- Reset commands under way end (R416). -/
def State.cancelResets (s : State) : State := (s.completeAll 0x0101 none stCancelled 0 []).completeAll 0x0102 none stCancelled 0 []

/-- Steps 2 to 5 of R417, of a module reset or (`supply`) a supply-reset recovery; `last` is GLB_RST.LAST. -/
def State.moduleReset (s : State) (supply : Bool) (last : Nat) : State :=
  let wasOpen := s.flag F.secDbgOpen
  let lost := supply || !s.pwr.railsOn
  let descs := s.descsToKeep
  let arrs := s.arrays
  let s := s.unitsLost.clearBy (if supply then .s else .m) (fun _ => true)
  let s := { s with
    ctr := [], arrays := if lost then [] else arrs
    parts := s.parts.map (fun e : Nat × PartSt => (e.1, { wgt := e.2.wgt.survivor }))
    pwr := { s.pwr.restart with keptDescs := descs, supplyTimes := if supply then s.pwr.supplyTimes else [] }
    sec := { s.sec with dbgFails := if supply then s.sec.dbgFails else [] } }
  let s := ((s.setF F.glbRstLast last).addF F.glbRstModule 1).loadSettings installedRegs
  let s := s.when (wasOpen && !supply) (fun s => s.logSec 0x160C last)
  let s := s.comeUp lost (some true)
  if s.flag F.thmStatusShutdown then (s.allDomainsOff.railsOff.setF F.pwrModeState 5).indicate 0 1 false else s

/-- A module reset is discarded while one of the same or a higher rank runs (R416). -/
def State.resetBlocked (s : State) : Bool := s.pwr.running = some .supply || s.pwr.running = some .module

/-- An opening or an activation that a reset waits for (R444, R449). -/
def State.resetWaits (s : State) : Bool := s.sec.activating ≠ 0 || s.sec.erasing.isSome

/-- Steps 1 and 2 of R417: FAILED when the module serves its domain; a swap in progress aborts (R279); every unit stops. Commands of
other slots end with CANCELLED (R299); those of a module that serves its domain are answered by its standby module, or by the bridge where
it has none (`State.failSlot`). -/
def State.resetBegin (s : State) : State :=
  let s := s.when s.servesDomain (fun s => s.failModule 4)
  let s := s.each (List.range 16) (fun s n => s.swapLost n)
  let s := s.when (!s.servesDomain) (fun s => s.cancelRelayed 0x10000)
  { s.cancelResets.stopUnits with pwr := { s.pwr with stopped := true, running := some .module, heldAt2 := true } }

/-- RESET_N (R417): held low, the pin starts a module reset and holds it at step 2. It also starts a module that R420 holds off. In
Deep the thaw comes first, which the reset's own steps contain (R426). -/
def execResetN (s : State) : Host.Outcome State Fault Refusal :=
  .next (
    if !s.isOn then s
    else
      let s := { s with pwr := { s.pwr with resetPin := true } }
      if s.resetWaits then { s with pwr := { s.pwr with deferred := [2] } }
      else if s.resetBlocked && !s.pwr.heldOff then s
      else s.resetBegin)

/-- The module reset that the pin began goes on (R417 steps 3 to 5). -/
def State.pinReset (s : State) : State := s.moduleReset false 2

/-- RESET_N_RELEASE (R417). -/
def execResetNRelease (s : State) : Host.Outcome State Fault Refusal :=
  .next (
    let s := { s with pwr := { s.pwr with resetPin := false } }
    if s.pwr.heldAt2 then s.pinReset else s)

/-- A reset by the pin that waited for an opening or an activation (R444, R449). -/
def State.runDeferred (s : State) : State :=
  if s.pwr.deferred.isEmpty then s
  else
    let s := { s with pwr := { s.pwr with deferred := [] } }.resetBegin
    if s.pwr.resetPin then s else s.pinReset

/-- A RESET command's checks; while one of the same or a higher rank runs it is discarded (R416), and while an opening or an activation
runs it waits. -/
def State.resetCommand (s : State) (h : CmdHdr) (state : Bool) (blocked : State → Bool) (run : State → State) : State :=
  if s.resetWaits then s
  else s.command h false true true state true 0 (fun s =>
    if blocked s then s.done h true stCancelled 0 [] else run (s.done h true stOK 0 []))

/-- RESET_MODULE (R417): replies, then resets. -/
def execResetModule (h : CmdHdr) (s : State) : Host.Outcome State Fault Refusal :=
  .next (s.resetCommand h true State.resetBlocked (fun s => s.resetBegin.moduleReset false 3))

/-- THERMAL_CLEAR (R396): the latch clears, and a module reset and the thaw follow. -/
def execThermalClear (h : CmdHdr) (s : State) : Host.Outcome State Fault Refusal :=
  .next (s.resetCommand h ((List.range 112).all (fun k => s.temp k < s.getF F.thmCfgTh)) State.resetBlocked (fun s =>
    (s.setFlag F.thmStatusShutdown false).resetBegin.moduleReset false 6))

/-- SUPPLY_RESET_RECOVERY (R420). -/
def execSupplyResetRecovery (s : State) : Host.Outcome State Fault Refusal :=
  .next (if s.pwr.recovering && s.pwr.inputGood && !s.pwr.heldOff then s.moduleReset true 5 else s)

/-! ## Input power and presence (R401, R429, R466) -/

/-- Input loss (R401): the units stop, the rails turn off, and an NV record of KIND 3 is written. VALUE has no meaning given for this
kind, so it is free. -/
def State.inputLost (s : State) (code : Nat) : State :=
  let s := s.stopUnits.railsOff
  let s := (s.nvRecord 3 (Config.freeNat s.free) 0).fresh
  let s := s.logEv srcHk 0x1309 0xFF code
  { s with pwr := { s.pwr with inputGood := false, heldAt2 := false } }

/-- INPUT_LOSS (R401). -/
def execInputLoss (code : BitVec 12) (s : State) : Host.Outcome State Fault Refusal :=
  .next (if s.isOn then s.inputLost code.toNat else s)

/-- INPUT_RECOVERY (R401): the module enters supply-reset recovery, and so is failed (R370). -/
def execInputRecovery (s : State) : Host.Outcome State Fault Refusal :=
  .next (
    if s.pwr.island && s.pwr.holdUp && s.pwr.hotSwap && !s.pwr.inputGood then
      { s with pwr := { s.pwr with inputGood := true } }.enterRecovery
    else s)

/-- The module is Off: only the firn, the fuses and what it has sent remain. -/
def State.off (s : State) : State :=
  { State.reset with
    pending := s.pending, firn := s.firn, free := s.free, replies := s.replies, linkOut := s.linkOut, rimeOut := s.rimeOut
    hostOut := s.hostOut, msix := s.msix, smbOut := s.smbOut
    sec := { fuses := s.sec.fuses }
    pwr := { hotSwap := s.pwr.hotSwap, presA := s.pwr.presA, presB := s.pwr.presB, presCount := s.pwr.presCount } }

/-- HOLD_UP_EXHAUSTED (R401): the island stops; the next start is a power-on. -/
def execHoldUpExhausted (s : State) : Host.Outcome State Fault Refusal :=
  .next (if s.pwr.island && !s.pwr.inputGood then s.off else s)

/-- PRESENCE_CONTACT_EDGE (R466): the presence count runs while both contacts are made. -/
def execPresenceContactEdge (b made : Bool) (s : State) : Host.Outcome State Fault Refusal :=
  .next (
    if s.pwr.hotSwap then s
    else
      let p := if b then { s.pwr with presB := made } else { s.pwr with presA := made }
      { s with pwr := { p with presCount := p.presA && p.presB } })

/-- PRESENCE_MADE (R429, R466): the hot-swap switch closes and the power-on starts. -/
def execPresenceMade (s : State) : Host.Outcome State Fault Refusal :=
  .next (if s.pwr.presCount && !s.pwr.hotSwap then s.powerOn else s)

/-- PRESENCE_BREAK (R429, R432, R466): the switch opens and the module acts as on input loss; unless it was made ready for removal, or
is in Deep, it is failed. -/
def execPresenceBreak (s : State) : Host.Outcome State Fault Refusal :=
  .next (
    if !s.pwr.hotSwap then s
    else
      let quiet := s.pwr.ejected || s.getF F.pwrModeState = 3
      let s := s.when (!quiet) (fun s => s.failModule 13)
      let s := s.when s.isOn (fun s => (s.fresh).inputLost (Config.freeNat s.free % 4096))
      { s with pwr := { s.pwr with hotSwap := false, presA := false, presB := false, presCount := false } })

/-! ## Retain (R424) -/

/-- The domains that are off in Retain: HBM4 controllers, seams and spines. -/
def retainOff : List Nat := [64, 65, 66, 67, 68, 69]

/-- The tile pairs that are powered. -/
def State.tilePairs (s : State) : List Nat := (List.range 48).filter (fun k => !s.flag (F.pwrDomLocked k) && s.getF (F.pwrDomState k) ≠ 0)

/-- The module enters Retain. -/
def State.retainEnter (s : State) : State :=
  let s := s.each s.tilePairs (fun s k => s.domainForce k 1)
  let s := s.each retainOff (fun s k => s.domainForce k 0)
  { s with pwr := { s.pwr with hbmRefresh := true, railArr := 500, railSram := 500 } }.setF F.pwrModeState 2

/-- The module leaves Retain: domains, tile pairs, HBM4, in this order; calibration coefficients are lost and the initial calibration
follows (R114, R427). -/
def State.retainExit (s : State) : State :=
  let s := s.each retainOff (fun s k => s.domainForce k 2)
  let s := s.each s.tilePairs (fun s k => s.domainForce k 2)
  let s := { s with pwr := { s.pwr with hbmRefresh := false, railArr := 900, railSram := 750 } }.setF F.pwrModeState 0
  s.each s.allArrays (fun s x =>
    ((s.modArr x.1 x.2 (fun y => { y with coefs := [], cal := none })).setFlag (F.arrStatusCalValid x.1 x.2) false).setF
      (F.arrCalStatusSetsDone x.1 x.2) 0)

/-! ## Warm reset (R418) -/

/-- What a warm reset leaves of a tile: its store is zeroed, and its sequencer, prefetchers, queues, cache and cores start again. -/
def TileSt.restart (x : TileSt) : TileSt :=
  { vregs := x.vregs, vpar := x.vpar, deSum := x.deSum, deCnt := x.deCnt, deBuf0 := x.deBuf0, deBuf1 := x.deBuf1, deWide := x.deWide, failed := x.failed, heir := x.heir
    covers := x.covers
    tc := x.tc.map (fun e => (e.1, { e.2 with run := false, free := false, pc := 0 })) }

/-- An active request over the warm reset of its front module (R418): it restarts where KV pages of it lay on this module, whose pool the
reset clears, and waits for the resume otherwise. -/
def State.warmReq (s : State) (n : Nat) (r : Request) : Request :=
  if r.active && (s.prt n).kv.used.any (fun e => s.ownTag r.tag e.2) then { r with state := .restart, inFlight := false, held := false }
  else if (s.prt n).hold = some 3 then r.park
  else r

/-- Services over a warm reset: a partition's descriptors and request tables come back from the mirror holder's record. A request that
restarts gives back what it holds in other pools. Records that wait for the bridge stay. -/
def State.warmServices (s : State) (n : Nat) : State :=
  if s.mirrorSlot.isNone then s.endServices n
  else
    let s := s.mapSvcs n (fun v => v.mapReqs (s.warmReq n))
    let gone := (s.prt n).svcs.flatMap (fun v => (v.reqs.filter (fun r => r.state = .restart)).map (·.tag))
    let s := s.each gone (fun s t => s.kvRelease n t)
    ((s.modPrt n (fun x => { x with kv := { x.kv with used := [], data := [], asking := [] } })).kvShow n).svcShow n

/-- A partition over a warm reset: overrides end, a staging is lost, and its program is loaded again from PART_PROG_BASE. -/
def State.warmPart (s : State) (n : Nat) : State :=
  let had := (s.prt n).prog.isSome
  let base := (s.getR (R.partProgBaseLo n)).toNat + (s.getR (R.partProgBaseHi n)).toNat * 2 ^ 32
  let s := (s.swapLost n).modPrt n (fun x => { x with
    override := none, overrideNext := none, prog := none, startWin := none, stopWin := none, progWin := 0, variantAt := none
    wgt := { x.wgt with
      staging := {}, mirrorStg := {}, manifest := none, shards := [], staged := [], failed := [], loading := [], swap := none
      collect := [], firstLoad := false } })
  let s := ((s.showQos n).fillBuckets n).warmServices n
  s.when had (fun s => (s.progLoadAt n base).2)

/-- Steps 3 to 6 of R418, once the programs have stopped. -/
def State.warmFinish (s : State) : State :=
  let ps := (List.range 16).filter (fun n => n ≠ 0 && s.partState n ≠ 0)
  let s := (s.syncFlitsDrop.clearBy .w (fun _ => true)).loadSettings [R.thmCfg, R.supCfg]
  let s := { s with
    ctr := [], tiles := s.tiles.map (fun e : Nat × TileSt => (e.1, e.2.restart)), rime := [], syncWaits := []
    pwr := { s.pwr with running := none, booted := true }
    sec := { s.sec with keyMsgs := [], answers := [] }
    hk := { s.hk with shown := [0, 0, 0], urgent := [] } }
  let s := ((s.setF F.glbRstLast 4).addF F.glbRstWarm 1).fillBuckets 0
  s.each ps (fun s n =>
    let s := s.warmPart n
    if (s.prt n).hold ≠ some 3 then s
    else if s.locked then
      (s.setR R.glbHold (s.getR R.glbHold ||| BitVec.ofNat 32 (2 ^ (16 + n)))).endHold n
    else s.takeResume n 0)

/-- Once every program has stopped a warm reset goes on. -/
def State.warmStep (s : State) : State :=
  if s.pwr.running = some .warm && !s.anyRunning then s.warmFinish else s

/-- A warm reset abandons the partition and tile resets under way (R416): a partition that was resetting goes on as it is. -/
def State.abandonResets (s : State) : State :=
  let s := { s.cancelResets with rime := s.rime.filter (fun e => e.2.type ≠ 0x08 && e.2.type ≠ 0x09 && e.2.type ≠ 0x0A) }
  s.each ((List.range 16).filter (fun n => (s.prt n).resetting || 2 ≤ s.partState n)) (fun s n =>
    (s.modPrt n (fun x => { x with resetting := false, discard := false, irqOff := false, endAt := none })).setF (F.partCfgState n) 1)

/-- Steps 1 and 2 of R418: running programs are held, or in free cadence stop at the end of the window. A module in Retain leaves that
state first (R426). Commands of other slots end with CANCELLED (R299), but a REQ_SUBMIT's request outlives the reset and answers when it
completes (R418, R312). -/
def State.warmBegin (s : State) : State :=
  let s := (s.when (s.getF F.pwrModeState = 2) State.retainExit).abandonResets
  let s := { s.cancelRelayed 0x0502 with pwr := { s.pwr with running := some .warm } }
  let s := s.each ((List.range 16).filter (fun n => s.running n && (s.prt n).hold.isNone)) (fun s n =>
    if s.locked then s.beginHold n 3 s.slot 0xFFFF else (s.modPrt n (fun x => { x with hold := some 3 })).stopAt n s.win)
  s.warmStep

/-- RESET_WARM (R418). -/
def execResetWarm (h : CmdHdr) (s : State) : Host.Outcome State Fault Refusal :=
  .next (s.resetCommand h true (fun s => s.pwr.running.isSome) State.warmBegin)

/-! ## Tile reset (R419) -/

/-- The apply beat of TILE_RESET: sequencer, prefetchers, page cache, cores and counters return to reset, and the store is zero;
arrays, scale files, spare maps and calibration banks are kept. -/
def State.tileResetApply (s : State) (t : Nat) : State :=
  let inTile := fun (r : Reg) => (r.kind.geom.block = Block.tile || r.kind.geom.block = Block.ctrTile) && r.i = t
  let s := (s.pfDrop t).modTile t TileSt.restart
  ((s.clearBy .t inTile).clearCtr (regAtIs (fun r => r.kind.geom.block = Block.ctrTile && r.i = t))).setFlag (F.tileStatusSeqRun t) false

/-- TILE_RESET (R214, R419): the message waits for its apply beat; while a module reset, or a reset of the partition that owns the tile,
runs it is discarded (R416). -/
def execTileReset (t : TileN) (b : BitVec 64) (s : State) : Host.Outcome State Fault Refusal :=
  .next (if s.pwr.running.isSome || (s.prt (s.ownerOf t)).resetting then s else s.rimeWait b ⟨0x0A, t, 0x72, 0, []⟩)

end Sys2Proof.Machine
end

