-- ==== Sys2Proof/Machine/States.lean ====
section
/-! DEFINITION. Power states (R422 to R426) and eject-prepare (R431). -/

namespace Sys2Proof.Machine

/-- The module's power state (PWR_MODE.STATE): 0 Run, 1 Idle, 2 Retain, 3 Deep, 4 safe to remove, 5 shut down, 6 held off. -/
def State.pwrMode (s : State) : Nat := s.getF F.pwrModeState

/-! ## Idle (R423) -/

/-- The core rail's set point changes: the comparators keep to the lower of the old and the new one for a while (R397). -/
def State.setRail (s : State) (rail : Nat) : State :=
  let old := s.getF F.cadAvsRail
  if rail = old then s else { s with pwr := { s.pwr with oldSet := some old } }.setF F.cadAvsRail rail

/-- The module enters Idle: adaptive voltage holds the core rail at 0.600 V, and the command completes. -/
def State.idleEnter (s : State) : State :=
  let s := { s with
    cad := { s.cad with idleRail := s.getF F.cadAvsRail }
    pwr := { s.pwr with idleWanted := false } }
  ((s.setRail 0).setF F.pwrModeState 1).completeAll 0x0900 none stOK 0 []

/-- Idle ends at this window boundary: the rail returns to what it was. -/
def State.idleExit (s : State) : State :=
  if s.pwrMode = 1 && s.flag F.pwrModeChanging then
    (((s.setRail s.cad.idleRail).setF F.pwrModeState 0).setFlag F.pwrModeChanging false).completeAll 0x0900 none stOK 0 []
  else s

/-- IDLE_ENTRY (R423). -/
def execIdleEntry (s : State) : Host.Outcome State Fault Refusal :=
  .next (if s.pwr.idleWanted && !s.anyRunning then s.idleEnter else s)

/-! ## Deep (R425) -/

/-- The roles that a leaving module hands over: a master stops its marks, and the standby master takes over (R246, R254). -/
def State.handOver (s : State) : State := { s with cad := { s.cad with masterNow := false } }

/-- The module leaves its domain without being failed. -/
def State.departDomain (s : State) : State :=
  ({ s with cad := { s.cad with running := false, joining := false, alignedRun := 0 } }.setFlag F.cadCfgLocked false).setFlag
    F.cadAlignAligned false

/-- The module enters Deep: only the housekeeping island and HBM4 in self-refresh stay powered. -/
def State.deepEnter (s : State) : State :=
  let s := s.handOver.departDomain.endSession
  let s := { s with pwr := { s.pwr with hbmRefresh := true, booted := false, cores := false, idleWanted := false } }
  ((s.allDomainsOff.railsOff).setF F.pwrModeState 3).indicate 1 0 true

/-- The registers that hold a partition's definition, shares and interrupt settings, which the island saves over Deep (R425). -/
def savedKinds : List RegKind :=
  [.partCfg, .partTiles, .partHbm, .partQos, .partLinkShare, .partIrqCfg, .partIrqRoute, .syncPart, .netRid, .mbxCfg, .partWgtEpochLo,
   .partWgtEpochHi, .partWgtLepoch]

/-- A register keeps its word over Deep: the island's own, the saved ones, and the tile map in force. -/
def keptOverDeep (r : Reg) : Bool := r.kind.geom.block = .hk || savedKinds.contains r.kind || r.kind = .glbTmapCur

/-- The thaw (Table 15.3): the module starts again, with the partitions that it held, and writes their arrays from the resident slots.
Temporary overrides are lost, and of a mailbox channel only its partition, which the definition gives, stays (Table 15.4). -/
def State.thawAll (s : State) : State :=
  let map := (List.range 96).map (fun k => (k, s.getR (R.glbTmapCur k)))
  let parts := s.parts.map (fun e : Nat × PartSt => (e.1, ({
    desc := e.2.desc, share := e.2.share, wgt := e.2.wgt.survivor } : PartSt)))
  let ns := (List.range 16).filter (fun n => n ≠ 0 && s.partState n ≠ 0)
  let hk := s.hk
  let thm := s.thm
  let s := s.unitsLost.clearBy .m (fun r => !keptOverDeep r)
  let s := { s with hk := hk, thm := thm, ctr := [], arrays := [], parts := parts, pwr := { s.pwr.restart with thawing := true } }.setF F.pwrModeState 0
  let s := s.comeUp true none
  let s := s.each map (fun s e => s.setR (R.glbTmapCur e.1) e.2)
  let s := s.each (List.range 32) (fun s c => s.setF (F.mbxCfgPeer c) 0x3FF)
  s.each ns (fun s n => ((s.showQos n).fillBuckets n |>.thaw n).hashSlots n)

/-- A wake ends Deep, and is ignored in other states (R425). -/
def State.wake (s : State) : State := if s.pwrMode = 3 then s.thawAll else s

/-- PWR_WAKE_GO (R425). -/
def execPwrWakeGo (s : State) : Host.Outcome State Fault Refusal := .next s.wake

/-- WAKE_N (R425). -/
def execWakeN (s : State) : Host.Outcome State Fault Refusal := .next s.wake

/-! ## PWR_STATE (R422) -/

/-- PWR_STATE Run: Idle ends at the next window boundary, with the reply; a request for Idle that waits is withdrawn. -/
def execPwrStateRun (h : CmdHdr) (s : State) : Host.Outcome State Fault Refusal :=
  .next (s.command h false true true (s.pwrMode ≤ 2) true 0 (fun s =>
    if s.pwrMode = 1 then (s.setFlag F.pwrModeChanging true).outstand h 0x0900 0
    else
      let s := s.when s.pwr.idleWanted (fun s => { s with pwr := { s.pwr with idleWanted := false } }.completeAll 0x0900 none stCancelled 0 [])
      (s.when (s.pwrMode = 2) State.retainExit).done h true stOK 0 []))

/-- PWR_STATE Idle (R423): the reply is sent on entry. -/
def execPwrStateIdle (h : CmdHdr) (s : State) : Host.Outcome State Fault Refusal :=
  .next (s.command h false true true (s.pwrMode ≤ 2) true 0 (fun s =>
    if s.pwrMode = 1 then (s.setFlag F.pwrModeChanging false).done h true stOK 0 []
    else
      let s := (s.when (s.pwrMode = 2) State.retainExit).outstand h 0x0900 1
      let s := { s with pwr := { s.pwr with idleWanted := true } }
      if s.anyRunning then s else s.idleEnter))

/-- PWR_STATE Retain (R424). -/
def execPwrStateRetain (h : CmdHdr) (s : State) : Host.Outcome State Fault Refusal :=
  .next (s.command h false true true (s.pwrMode ≤ 2 && !s.anyRunning) true 0 (fun s =>
    (s.when (s.pwrMode ≠ 2) State.retainEnter).done h true stOK 0 []))

/-- PWR_STATE Deep (R425): the reply leaves before the control complex turns off. -/
def execPwrStateDeep (h : CmdHdr) (s : State) : Host.Outcome State Fault Refusal :=
  .next (s.command h false true true (s.pwrMode ≤ 2 && !s.anyRunning) true 0 (fun s => (s.done h true stOK 0 []).deepEnter))

/-! ## Eject-prepare (R431) -/

/-- A swap is in progress in some partition of the module. -/
def State.anySwap (s : State) : Bool := (List.range 16).any (fun n => (s.prt n).wgt.swap.isSome)

/-- Steps 2 and 3 of eject-prepare: without a free standby module for a running program it fails; otherwise roles and partitions are
handed over. -/
def State.ejectGo (s : State) (standbyFree : Bool) : State :=
  let ns := (List.range 16).filter (fun n => n ≠ 0 && s.running n)
  match (if standbyFree then s.standbyFor s.slot else none), ns.isEmpty with
  | none, false =>
    ({ s with pwr := { s.pwr with ejecting := false } }.indicate 0 s.attn false).completeAll 0x0902 none stNoResource 0 []
  | d, _ =>
    let s := { s.handOver with pwr := { s.pwr with ejectOn := true } }
    let s := s.each ns (fun s n => s.beginHold n 4 s.slot (d.getD 0xFFFF))
    match d with
    | some x => if ns.isEmpty then s else s.addRedirect (s.win + 2) s.slot x
    | none => s

/-- EJECT_PREP (R430, R431): the attention indicator blinks; it waits for swaps in progress. -/
def execEjectPrep (h : CmdHdr) (standbyFree : Bool) (s : State) : Host.Outcome State Fault Refusal :=
  .next (s.command h false true true (!s.pwr.ejecting && s.pwrMode ≤ 2) true 0 (fun s =>
    let s := ({ s with pwr := { s.pwr with ejecting := true, ejectOn := false } }.indicate 0 2 false).outstand h 0x0902 (bit standbyFree)
    if s.anySwap then s else s.ejectGo standbyFree))

/-- Eject-prepare goes on once the last swap has ended. -/
def State.ejectStep (s : State) : State :=
  match s.waitingFor 0x0902 none with
  | o :: _ =>
    if s.pwr.ejecting && !s.anySwap && !s.pwr.ejectOn then
      s.ejectGo (o.arg = 1)
    else s
  | [] => s

/-- LOG_DRAIN_DONE (R431 steps 4 and 5): once every partition has been handed over, the reply goes out, domains and rails turn off, and
the module shows safe to remove. -/
def execLogDrainDone (s : State) : Host.Outcome State Fault Refusal :=
  .next (
    if !s.pwr.ejecting || !s.pwr.ejectOn || (List.range 16).any (fun n => (s.prt n).coordHold && (s.prt n).hold = some 4) then s
    else
      let s := s.completeAll 0x0902 none stOK 0 []
      let s := (s.allDomainsOff.railsOff).departDomain
      let s := { s with pwr := { s.pwr with ejecting := false, ejectOn := false, ejected := true, booted := false, cores := false, hbmRefresh := true } }
      (s.setF F.pwrModeState 4).indicate 1 0 true)

end Sys2Proof.Machine
end

