-- ==== Sys2Proof/Machine/Debug.lean ====
section
/-! DEFINITION. Debug opening (R446 to R450), the end of a firmware activation (R444), the anti-rollback fuses (R443), and tile
retirement (R350, R362, R364). -/

namespace Sys2Proof.Machine

/-! ## Debug opening -/

/-- What a debug token says (R446, R447): the status of its failure, or OK. -/
def State.judgeToken (s : State) (b : Bytes) : Nat :=
  let scope := fieldAt b 6 2
  if fieldAt b 0 4 ≠ 0x44564454 || fieldAt b 4 2 ≠ 1 || scope = 0 || 3 < scope ||
      BitVec.ofNat 512 (fieldAt b 16 64) ≠ Config.identityDigest || (b.drop 80).take 32 ≠ s.nonceBytes R.secDbgNonce ||
      fieldAt b 112 16 ≠ 0 then stBadParam
  else match s.opKeyFor (fieldAt b 8 8) 2 with
    | none => stSignature
    | some k => if Config.verify k.key (b.take 128) (b.drop 128) then stOK else stSignature

/-- A token has failed (R447): the third failure within 10 s closes DEBUG_OPEN for 10 s. -/
def State.tokenFailed (s : State) (b : Bytes) (status timeUs : Nat) : State :=
  let l := timeUs :: s.sec.dbgFails.filter (fun t => timeUs - t ≤ 10000000)
  let s := { s with sec := { s.sec with dbgFails := l, lockout := s.sec.lockout || decide (3 ≤ l.length) } }
  (s.setF F.secDbgFails l.length).logSec 0x1601 (detail 0x1601 [status, fieldAt b 8 4])

/-- The items of Table 16.6: keys and sessions, arrays, stores, mailboxes, partitions with their programs and services, kept
descriptors, and HBM4, the mirror records in it too. A module that was about to join its domain does not (R450). -/
def State.eraseAll (s : State) : State :=
  let s := s.each ((List.range 16).filter (fun n => s.partState n ≠ 0)) (fun s n => s.cancelPart n 0x0802)
  let s := s.clearBy .d (fun _ => true)
  { s with
    arrays := [], tiles := s.tiles.filterMap (fun e : Nat × TileSt => if e.2.failed then some (e.1, ({ failed := true } : TileSt)) else none)
    parts := [], hbm := [], hbmBad := []
    cad := { s.cad with mirrors := [], fetch := none, joining := false }
    pwr := { s.pwr with keptDescs := [] }
    sec := { s.sec with tenantKeys := [], manKeys := [], keyMsgs := [], answers := [], resp := [] } }.fillBuckets 0

/-- DEBUG_OPEN (R447, R448): an accepted token starts the erase. A requester that is not secure is not permitted (R438). The nonce is replaced whatever the outcome. During an activation it
waits (R444). -/
def execDebugOpen (h : CmdHdr) (token : Bytes) (timeUs : Nat) (s : State) : Host.Outcome State Fault Refusal :=
  .next (
    if s.activatingNow || !s.intake || s.mustWait h then s
    else
      let ready := !s.flag F.secDbgOpen && s.sec.erasing.isNone && s.pwr.running.isNone
      let secure := s.secureSender h.sender
      let g := if secure then h else { h with flags := h.flags &&& 3 }
      let s := s.command g false true (!secure || token.length = 260) (!secure || ready) (!secure || !s.sec.lockout) 0 (fun s =>
        let st := s.judgeToken token
        if !secure then s.done h true stNotPermitted 0 []
        else if st ≠ stOK then (s.tokenFailed token st timeUs).done h true st 0 []
        else
          let scope := fieldAt token 6 2
          let s := s.when s.servesDomain (fun s => s.failModule 5)
          let s := (s.nvRecord 4 (Config.freeNat s.free) 0).fresh
          let s := { s with firn := { s.firn with erasePending := true } }.setFlag F.secStatusErasePending true
          let s := (s.logSec 0x1602 scope).eraseAll
          let s := { s with sec := { s.sec with erasing := some (scope, timeUs) } }
          ((s.setFlag F.secStatusKeysValid false).endSession).outstand h 0x0802 scope)
      s.newDbgNonce)

/-- DEBUG_ERASE_DONE (R448 steps 4 and 5). -/
def execDebugEraseDone (timeUs : Nat) (s : State) : Host.Outcome State Fault Refusal :=
  .next (
    match s.sec.erasing with
    | none => s
    | some (scope, t0) =>
      let s := s.firnErase.logSec 0x1603 (detail 0x1603 [scope, timeUs - t0])
      let s := { s with sec := { s.sec with erasing := none } }.completeAll 0x0802 none stOK 0 []
      (((s.setFlag F.secDbgOpen true).setF F.secDbgScope scope).setF F.pwrSlotAttn 1).runDeferred)

/-- DEBUG_LOCKOUT_END (R447). -/
def execDebugLockoutEnd (s : State) : Host.Outcome State Fault Refusal :=
  .next (
    if !s.sec.lockout then s
    else { s with sec := { s.sec with lockout := false, dbgFails := [] } }.setF F.secDbgFails 0)

/-! ## Firmware activation and fuses -/

/-- FW_INTAKE_RESUMED (R444 steps 3 and 4). -/
def execFwIntakeResumed (s : State) : Host.Outcome State Fault Refusal :=
  .next (
    if s.sec.activating ≠ 2 then s
    else
      let k := 1 - s.firn.fwSel
      let s := ({ s with firn := { s.firn with fwSel := k } }.fwRun k false).setFlag F.secFwActivating false
      (((s.secShow).logSec 0x1606 (detail 0x1606 [k, s.sec.fwRunSvn])).completeAll 0x0701 none stOK 0 []).runDeferred)

/-- FW_ACTIVATION_TIMEOUT (R444): the previous image runs again. -/
def execFwActivationTimeout (s : State) : Host.Outcome State Fault Refusal :=
  .next (
    if s.sec.activating ≠ 2 then s
    else
      let s := { s with sec := { s.sec with activating := 0, handover := false } }.setFlag F.secFwActivating false
      ((s.logSec 0x1607 2).completeAll 0x0701 none stWrongState 2 []).runDeferred)

/-- FUSE_BLOW (R443): firmware newer than the anti-rollback count has run for 24 hours without a boot from the other slot. -/
def execFuseBlow (s : State) : Host.Outcome State Fault Refusal :=
  .next (
    if s.pwr.booted && !s.sec.fallback && s.sec.fuses < s.sec.fwRunSvn && s.sec.fwRunSvn ≤ 64 then
      { s with sec := { s.sec with fuses := s.sec.fwRunSvn } }.secShow
    else s)

/-! ## Tile retirement -/

/-- TILE_RETIRE (R350, R362): with no reserve tile of the partition left in the tile's half NO_RESOURCE. -/
def execTileRetire (h : CmdHdr) (tile : Byte) (s : State) : Host.Outcome State Fault Refusal :=
  .next (
    let t := tile.toNat
    let n := s.ownerOf t
    s.command h false true (t < 96) (!s.absent t) (n = 0 || s.getF (resField n (halfOf t)) ≠ 0) 0 (fun s =>
      (s.failTile t 0xFF).done h true stOK 0 []))

/-- Write the images that are current for a logical tile (R260) into physical tile u (R364), with their canary values, and calibrate each
array after its write (R114). Streamed images come with the program's start (R281). -/
def State.moveTile (s : State) (n k u : Nat) : State :=
  let w := (s.prt n).wgt
  let passed := (w.swap.map SwapSt.drained).getD []
  let move := fun (s : State) (x : ImageSlot) (resident : Bool) =>
    match x.man with
    | none => s
    | some m =>
      s.each (List.range m.places.length) (fun s i =>
        match m.places[i]?, m.layerOf i with
        | some p, some l =>
          if p.slot ≠ s.placeSlot || p.ltile ≠ k || l.kind = 2 || passed.contains l.layer = resident then s
          else
            let img := Sparse.get (fun _ => []) x.images i
            let s := s.each (List.range (placeLines l p)) (fun s line =>
              (s.loadLine n u l p img line).when (l.kind ≠ 1 && line < 1024) (fun s => s.rowVerified u p.array line))
            if l.kind = 1 then s else (s.arrayDone n u p.array i m l resident).initialCal u p.array
        | _, _ => s)
  move (move s w.resident true) w.staging false

/-! ## Reduction contexts (R205, R209) -/

/-- The routers that a reduction flit passes from a node on, with the input through which it enters each (R197). -/
def redPath : Nat → Nat → Nat → Flit → List (Nat × Nat)
  | 0, _, _, _ => []
  | k + 1, node, input, f =>
    (node, input) :: (match route node f with
      | some 1 => redPath k (node - 1) 3 f
      | some 2 => redPath k (node + 6) 4 f
      | some 3 => redPath k (node + 1) 1 f
      | some 4 => redPath k (node - 6) 2 f
      | _ => [])

/-- The bit of an input in a context's mask: local 4, west 3, north 2, east 1, south 0. -/
def maskBit (input : Nat) : Nat :=
  match input with
  | 0 => 4 | 4 => 3 | 1 => 2 | 2 => 1 | _ => 0

/-- The word of NET_RCTX after a route of reduction has entered through an input; what a context held that is not in use or not n's is
gone. -/
def ctxWord (w : Word) (n dest input : Nat) : Word :=
  let old : Word := if w.getLsbD 31 && bitsOf w 25 22 = n then w else 0
  withBits (withBits (old ||| BitVec.ofNat 32 (2 ^ 31 + 2 ^ (26 + maskBit input))) 25 22 n) 21 14 dest

/-- Derive the contexts of partition n's program under a tile map, and write them to the context registers that `reg` gives. -/
def State.redContexts (s : State) (n : Nat) (phys : Nat → Option Nat) (reg : Nat → Nat → Reg) : State :=
  match (s.prt n).prog with
  | none => s
  | some p =>
    s.each p.sends (fun s e =>
      match phys e.2.2.1, phys e.2.2.2 with
      | some a, some b =>
        s.each (redPath 32 a 0 { hdr := flitHdr 2 n b a e.2.1 false false 0 0 }) (fun s h =>
          let r := reg h.1 e.2.1
          s.setR r (ctxWord (s.getR r) n b h.2))
      | _, _ => s)

/-- The map staged in GLB_TMAP_NEXT. -/
def State.physNext (s : State) (k : Nat) : Option Nat :=
  let w := s.getR (R.glbTmapNext k)
  if w.getLsbD 7 then some (bitsOf w 6 0) else none

/-- Stage the contexts of the running programs for the map that is armed (R209). -/
def State.stageContexts (s : State) : State :=
  let s := { s with regs := s.regs.filter (fun e => !regAtIs (fun r => decide (r.kind = RegKind.netRctxNext)) e.1) }
  s.each ((List.range 16).filter s.running) (fun s n => s.redContexts n s.physNext R.netRctxNext)

/-- RETIREMENT_LOAD_DONE (R364): the reserve tile that took the failed one's place holds the images and is calibrated, and a map that names
it is armed, beside what an armed map already changes; the partition goes on after the map change. -/
def execRetirementLoadDone (n : PartN) (t : TileN) (newT : TileN) (s : State) : Host.Outcome State Fault Refusal :=
  .next (
    match s.logical t with
    | none => s
    | some k =>
      if !(s.prt n).coordHold || (s.prt n).hold ≠ some 1 || s.ownerOf t ≠ n.val || !(s.tile t).failed || (s.tile t).heir ≠ some newT.val
      then s
      else
        let s := s.moveTile n k newT
        let armed := s.flag F.glbTmapCtrlArm
        let s := s.each (List.range 96) (fun s j => s.when (j = k || !armed) (fun s => s.setR (R.glbTmapNext j)
          (if j = k then BitVec.ofNat 32 (128 + newT.val) else s.getR (R.glbTmapCur j))))
        (s.stageContexts.setFlag F.glbTmapCtrlArm true).logEv srcCtl 0x0F0A n (detail 0x0F0A [t.val, newT.val]))

/-- After the map change a retired tile is marked, and its partition's hold ends (R364); a hold that recovers from an unrecoverable scratch
fault ends once the program has stopped (R355). -/
def State.retireStep (s : State) : State :=
  let done := (List.range 96).filter (fun t => (s.tile t).failed && (s.logical t).isNone && !s.flag (F.tileStatusRetired t))
  let s := s.each done (fun s t => s.setFlag (F.tileStatusRetired t) true)
  s.each ((List.range 16).filter (fun n => (s.prt n).coordHold &&
      (((s.prt n).hold = some 1 && !(s.tilesOf n).any (fun t => (s.tile t).failed)) || ((s.prt n).hold = some 5 && !s.running n))))
    (fun s n => s.endHold n)

end Sys2Proof.Machine
end

