-- ==== Sys2Proof/Machine/Housekeeping.lean ====
section
/-! DEFINITION. The housekeeping converter: HK_TIMER_EXPIRY, PWM_EVENT, PWM_DELAY_EXPIRY, HK_CONVERSION_DONE, HK_URGENT_WRITE,
HK_FIFO_READ and HK_CMP_WRITE (R403 to R410). -/

namespace Sys2Proof.Machine

/-- The channels that a scan converts, in ascending order: those enabled in HK_MASK, the reserved ones skipped (R404). -/
def State.scanChannels (s : State) : List Nat :=
  (List.range 44).filter (fun k => (s.getR (R.hkMask (k / 32))).getLsbD (k % 32))

/-- The converter takes its next conversion when it has none: an urgent request first, then the scan's next channel (R406). -/
def State.convNext (s : State) : State :=
  match s.hk.conv with
  | some _ => s
  | none =>
    match s.hk.urgent with
    | c :: rest => { s with hk := { s.hk with conv := some (c, 2), urgent := rest } }
    | [] =>
      match s.hk.scan with
      | some (src, c :: rest) => { s with hk := { s.hk with conv := some (c, src), scan := some (src, rest) } }
      | _ => s

/-- Start a scan of a source (R405). A scan with no channel ends at once. -/
def State.scanStart (s : State) (src : Nat) : State :=
  let l := s.scanChannels
  { s with hk := { s.hk with scanNo := (s.hk.scanNo + 1) % 2048, scan := if l = [] then none else some (src, l) } }.convNext

/-- A trigger fires (R405): it starts a scan, becomes pending while a scan runs, or is missed. -/
def State.trigger (s : State) (src : Nat) : State :=
  match s.hk.scan with
  | none => s.scanStart src
  | some _ =>
    match s.hk.pendingTrig with
    | none => { s with hk := { s.hk with pendingTrig := some src } }
    | some _ => s.satF F.hkStatusMissed 1

/-- The running scan ends when its last conversion has ended, and the pending one starts (R405). -/
def State.scanEnd (s : State) : State :=
  match s.hk.scan with
  | some (_, []) =>
    let s := { s with hk := { s.hk with scan := none } }
    match s.hk.pendingTrig with
    | some src => { s with hk := { s.hk with pendingTrig := none } }.scanStart src
    | none => s
  | _ => s

/-- Comparator c evaluates a value of its channel (R408, R409). -/
def State.compare (s : State) (c ch code : Nat) : State :=
  if s.flag (F.hkCmpCfgEnable c) && s.getF (F.hkCmpCfgChannel c) = ch then
    let low := s.getF (F.hkCmpBndLow c)
    let high := s.getF (F.hkCmpBndHigh c)
    let hyst := s.getF (F.hkCmpCfgHyst c)
    let out (st : Nat) : State :=
      ((s.setF (F.hkCmpCfgState c) st).setR R.hkCmpEvt (s.getR R.hkCmpEvt ||| BitVec.ofNat 32 (2 ^ c))).logEv srcHk 0x1308 0xFF
        (detail 0x1308 [c, ch, code])
    if s.getF (F.hkCmpCfgState c) = 0 then
      if code < low then out 1 else if high < code then out 2 else s
    else if low + hyst ≤ code ∧ code + hyst ≤ high then s.setF (F.hkCmpCfgState c) 0
    else s
  else s

/-- The word of a conversion in HK_FIFO and HK_VALUE: VALID, SOURCE, CHANNEL, SCAN, CODE (Table 14.9). -/
def hkWord (src ch scan code : Nat) : Word :=
  BitVec.ofNat 32 (2 ^ 31 + src % 4 * 2 ^ 29 + ch % 64 * 2 ^ 23 + scan % 2048 * 2 ^ 12 + code % 4096)

/-- HK_TIMER_EXPIRY (R404). With PERIOD 0 the timer is off and does not fire. -/
def execHkTimerExpiry (s : State) : Host.Outcome State Fault Refusal :=
  .next (s.when (s.getF F.hkTimerPeriod ≠ 0) (·.trigger 0))

/-- PWM_EVENT (R404): an event of an enabled regulator starts its delay, and is missed while the delay runs. -/
def execPwmEvent (k : Fin 16) (s : State) : Host.Outcome State Fault Refusal :=
  .next (s.when (s.flag (F.hkPwmEnable k)) (fun s =>
    if s.hk.delays.contains k.val then s.satF F.hkStatusMissed 1
    else { s with hk := { s.hk with delays := s.hk.delays ++ [k.val] } }))

/-- PWM_DELAY_EXPIRY (R404): the delay ends and the trigger fires. -/
def execPwmDelayExpiry (k : Fin 16) (s : State) : Host.Outcome State Fault Refusal :=
  .next (s.when (s.hk.delays.contains k.val) (fun s =>
    { s with hk := { s.hk with delays := s.hk.delays.filter (· ≠ k.val) } }.trigger 1))

/-- HK_CONVERSION_DONE (R407): the value register, the FIFO (or FIFO_LOST) and the bound comparators in ascending order; then the
next conversion (R405, R406). -/
def execHkConversionDone (code : BitVec 12) (s : State) : Host.Outcome State Fault Refusal :=
  .next (match s.hk.conv with
    | none => s
    | some (ch, src) =>
      let s := s.setR (R.hkValue ch) (hkWord src 0 s.hk.scanNo code.toNat)
      let s :=
        if s.hk.fifo.length < 256 then
          { s with hk := { s.hk with fifo := s.hk.fifo ++ [hkWord src ch s.hk.scanNo code.toNat] } }
        else s.satF F.hkStatusFifoLost 1
      let s := s.each (List.range 16) (fun s c => s.compare c ch code.toNat)
      let s := { s with hk := { s.hk with conv := none } }
      let s := if src = 2 then s else s.scanEnd
      s.convNext.refreshReq)

/-- Queue one urgent conversion; a fifth request is refused and counted (R406). -/
def State.urgentAsk (s : State) (ch : Nat) : State :=
  if 4 ≤ s.hk.urgent.length then s.satF F.hkStatusUrgRefused 1
  else { s with hk := { s.hk with urgent := s.hk.urgent ++ [ch] } }.convNext

/-- HK_URGENT_WRITE (R406). -/
def execHkUrgentWrite (ch : Fin 64) (s : State) : Host.Outcome State Fault Refusal := .next (s.urgentAsk ch)

/-- A read of HK_FIFO pops the oldest entry into the value read, which the register then holds; an empty read gives 0 (R407). -/
def State.fifoPop (s : State) : State :=
  match s.hk.fifo with
  | [] => s.setR R.hkFifo 0
  | w :: rest => { s with hk := { s.hk with fifo := rest } }.setR R.hkFifo w

/-- HK_FIFO_READ (R407). -/
def execHkFifoRead (s : State) : Host.Outcome State Fault Refusal := .next s.fifoPop

/-- A write of a comparator's BND or CFG returns it to inside, which may end its stretch request (R408). -/
def State.cmpWrite (s : State) (c : Nat) (cfg : Bool) (w : Word) : State :=
  (if cfg then s.setR (R.hkCmpCfg c) (withBits (withBits w 29 28 0) 21 16 0)
    else (s.setR (R.hkCmpBnd c) (withBits (withBits w 31 28 0) 15 12 0)).setF (F.hkCmpCfgState c) 0).refreshReq

/-- HK_CMP_WRITE (R408). -/
def execHkCmpWrite (c : Fin 16) (cfg : Bool) (w : Word) (s : State) : Host.Outcome State Fault Refusal := .next (s.cmpWrite c cfg w)

end Sys2Proof.Machine
end

