-- ==== Sys2Proof/Machine/Mailbox.lean ====
section
/-! DEFINITION. Mailboxes: SEND_CTRL_GO, RECV_CTRL_DONE, MBX_MSG and MBX_DONE (R301 to R304, R440). -/

namespace Sys2Proof.Machine

/-- A write on a secure channel from a requester that is not secure is refused and counted, in `f` and for the window's log entry
(R304, R451). -/
def State.secRefused (s : State) (c : Nat) (f : FieldRef) : State :=
  { s with sec := { s.sec with refused := Sparse.set (fun _ => 0) s.sec.refused c (Sparse.get (fun _ => 0) s.sec.refused c + 1) } }.addF f 1

/-- A write of GO at the host end or the module end of channel c (R302 to R304): on S0 to S7 a requester that is not secure is
refused; while GO is set the write is refused; otherwise the 16 words go to the other end. The host end exists only on a channel
whose peer is the host. -/
def State.sendGo (s : State) (c : Nat) (host secure : Bool) : State :=
  if host then
    if !s.mbxHostPeer c then s
    else if c < 8 && !secure then s.secRefused c (F.mbxHostSendCtrlRefused 0 c)
    else if s.flag (F.mbxHostSendCtrlGo 0 c) then s.addF (F.mbxHostSendCtrlRefused 0 c) 1
    else (s.setFlag (F.mbxHostSendCtrlGo 0 c) true).mbxDeliver false c (fun k => s.getR (R.mbxHostSendData 0 c k))
  else if c < 8 && !secure then s.secRefused c (F.mbxSendCtrlRefused c)
  else if s.flag (F.mbxSendCtrlGo c) then s.addF (F.mbxSendCtrlRefused c) 1
  else s.mbxSend c

/-- SEND_CTRL_GO (R302). -/
def execSendCtrlGo (c : Fin 32) (host secure : Bool) (s : State) : Host.Outcome State Fault Refusal := .next (s.sendGo c host secure)

/-- The payload of a message: words 1 to 15 as bytes (R440). -/
def State.mbxPayload (s : State) (c : Nat) : Bytes :=
  ((List.range 15).map (fun k => leBytes 4 (s.getR (R.mbxRecvData c (k + 1))).toNat)).flatten

/-- Firmware collects key message fragments as it takes them (R440): FRAG counts up from 0; a fragment out of order discards the
message collected so far. -/
def State.keyCollect (s : State) (c : Nat) : State :=
  let w := s.getR (R.mbxRecvData c 0)
  let op := bitsOf w 7 0
  let frag := bitsOf w 15 8
  let frags := bitsOf w 23 16
  let old := s.sec.keyMsgs.find? (fun m => m.chan = c)
  let rest := s.sec.keyMsgs.filter (fun m => m.chan ≠ c)
  if !([1, 2, 3, 0x10, 0x11].contains op) then s
  else
    let put (l : List KeyMsg) : State := { s with sec := { s.sec with keyMsgs := l } }
    if frag = 0 then put (rest ++ [⟨c, op, frags, 1, s.mbxPayload c⟩])
    else
      match old with
      | some m =>
        if m.op = op ∧ m.frags = frags ∧ m.got = frag then
          put (rest ++ [{ m with got := frag + 1, bytes := m.bytes ++ s.mbxPayload c }])
        else put rest
      | none => s

/-- A write of DONE (R302, R303): it clears FLAG and the sender's GO; with FLAG clear it is ignored; on S0 to S7 a requester that
is not secure is refused. Toward another module the clear travels as MBX_DONE. -/
def State.recvDone (s : State) (c : Nat) (host secure : Bool) : State :=
  if host then
    if !s.mbxHostPeer c then s
    else if c < 8 && !secure then s.secRefused c (F.mbxHostSendCtrlRefused 0 c)
    else if s.flag (F.mbxHostRecvCtrlFlag 0 c) then (s.setFlag (F.mbxHostRecvCtrlFlag 0 c) false).mbxFree c
    else s
  else if c < 8 && !secure then s.secRefused c (F.mbxSendCtrlRefused c)
  else if s.flag (F.mbxRecvCtrlFlag c) then
    let s := (s.keyCollect c).setFlag (F.mbxRecvCtrlFlag c) false
    if s.mbxHostPeer c then s.setFlag (F.mbxHostSendCtrlGo 0 c) false
    else s.sendMgmt (s.getF (F.mbxCfgPeer c)) 0x0012 (leBytes 1 c ++ leBytes 3 0)
  else s

/-- RECV_CTRL_DONE (R302). -/
def execRecvCtrlDone (c : Fin 32) (host secure : Bool) (s : State) : Host.Outcome State Fault Refusal := .next (s.recvDone c host secure)

/-- MBX_MSG (R302): a message of the peer module arrives and sets FLAG. A message of a slot that is not the channel's peer is
discarded and logged. -/
def execMbxMsg (slot : SlotN) (c : Fin 32) (data : List Word) (s : State) : Host.Outcome State Fault Refusal :=
  .next (if s.getF (F.mbxCfgPeer c) = slot.val then s.mbxDeliver false c (fun k => data.getD k 0)
    else s.logEv srcCtl (code14 7) (s.getF (F.mbxCfgPart c)) c)

/-- MBX_DONE (R302): the peer module has acknowledged, and GO clears. -/
def execMbxDone (slot : SlotN) (c : Fin 32) (s : State) : Host.Outcome State Fault Refusal :=
  .next (if s.getF (F.mbxCfgPeer c) = slot.val && s.flag (F.mbxSendCtrlGo c) then s.mbxFree c else s)

end Sys2Proof.Machine
end

