-- ==== Sys2Proof/Machine/Registers.lean ====
section
/-! DEFINITION. Reads and writes of registers (R9 to R11, R304, R387): what each requester reaches, what a read does beside answering, what
a write does by access code, and the writes that start an operation. REG_READ and REG_WRITE, the registers whose reads latch or
clear, and the management interface at the connector (R468). -/

namespace Sys2Proof.Machine

/-! ## What can be reached (R3, R10, R251, R387) -/

/-- A register of the physical function's BAR0 that no virtual function has (R251). -/
def Reg.pfOnly (r : Reg) : Bool :=
  (RegKind.moulinBaseLo :: [.moulinBaseHi, .moulinSize, .moulinHead, .moulinTail, .mbxHostSendData, .mbxHostSendCtrl, .mbxHostRecvData,
    .mbxHostRecvCtrl]).contains r.kind

/-- The register answers: its block has power, its domain is on, and its tile is present. -/
def State.live (s : State) (r : Reg) : Bool :=
  s.pwr.island && (r.kind.geom.block = .hk || s.pwr.cores) &&
  (match domainOf r with | some k => s.domOn k | none => true) &&
  !(r.kind.geom.block = .tile && s.absent r.i) && !(r.i ≠ 0 && r.pfOnly)

/-- The register that a requester means by an address: control space, or for the host the BAR0 of its function (R251) and for a tile
core an offset in its own tile (R149). None where nothing is mapped or the address is not word-aligned. -/
def regFor (by_ : Requester) (addr : Nat) : Option Reg :=
  match by_ with
  | .host f => if addr < 0x100000 then Reg.ofAddr (Block.bar.base f + addr) else none
  | .bar2 _ => none
  | .config _ => none
  | .tileCore t => if addr < 0x100000 then Reg.ofAddr (Block.tile.base t + addr) else none
  | _ => if addr < 0x100000000 then Reg.ofAddr addr else none

/-- Registers that the management interface reaches at all times (R468). -/
def Reg.smbusOpen (r : Reg) : Bool := r.kind.geom.block = .hk || r.kind = .secStatus

/-- The register that a requester reaches at an address. -/
def State.reach (s : State) (by_ : Requester) (addr : Nat) : Option Reg :=
  match regFor by_ addr with
  | none => none
  | some r => if s.live r && (by_ ≠ .smbus || r.smbusOpen || s.secure by_) then some r else none

/-- A register of a mailbox channel S0 to S7, at either end (R304). -/
def Reg.secureChannel (r : Reg) : Bool :=
  r.j < 8 && (RegKind.mbxSendData :: [.mbxSendCtrl, .mbxRecvData, .mbxRecvCtrl, .mbxHostSendData, .mbxHostSendCtrl, .mbxHostRecvData,
    .mbxHostRecvCtrl]).contains r.kind

/-! ## Reads -/

/-- What a read returns (R304). PWR_WAKE.PIN is the WAKE contact's level, an input that no command tells, so it is free. -/
def State.regValue (s : State) (r : Reg) (secure : Bool) : Word :=
  if r.secureChannel && !secure then 0
  else if r.kind = .pwrWake then BitVec.ofNat 32 (2 * (Config.freeNat s.free % 2))
  else s.readWord r

/-- What a read does beside answering: it latches a count's upper part (R159, R290, R464), pops the FIFO (R407), or clears (R11). -/
def State.readEffect (s : State) (r : Reg) : State :=
  if r.isCtrLo then s.ctrLatch r
  else match r.kind with
  | .cadBeatLo => s.setR R.cadBeatHi (BitVec.ofNat 32 (s.cad.beat.toNat / 2 ^ 32))
  | .partWgtEpochLo => s.setR (R.partWgtEpochHi r.i) (BitVec.ofNat 32 ((s.prt r.i).wgt.epoch.toNat / 2 ^ 32))
  | .tileSeqLag => s.setF (F.tileSeqLagMax r.i) 0
  | .cadAlign => s.setF F.cadAlignErrMax 0
  | .hkFifo => s.fifoPop
  | .pwrWake => s.fresh
  | _ => s

/-- CAD_BEAT_LO_READ (R159). -/
def execCadBeatLoRead (s : State) : Host.Outcome State Fault Refusal := .next (s.readEffect R.cadBeatLo)

/-- PART_WGT_EPOCH_LO_READ (R290). -/
def execPartWgtEpochLoRead (n : PartN) (s : State) : Host.Outcome State Fault Refusal := .next (s.readEffect (R.partWgtEpochLo n))

/-- TILE_SEQ_LAG_READ (R163, R11). -/
def execTileSeqLagRead (t : TileN) (s : State) : Host.Outcome State Fault Refusal := .next (s.readEffect (R.tileSeqLag t))

/-- CAD_ALIGN_READ (R244, R11). -/
def execCadAlignRead (s : State) : Host.Outcome State Fault Refusal := .next (s.readEffect R.cadAlign)

/-- What a read at an address gives a requester (R10, R251): a function's BAR2 and configuration space have words of their own, and
where nothing answers the read gives 0. -/
def State.wordAt (s : State) (by_ : Requester) (addr : Nat) : Word :=
  match by_ with
  | .bar2 f => s.bar2Word f addr
  | .config f => s.configWord f addr
  | _ => match s.reach by_ addr with
    | some r => s.regValue r (s.secure by_)
    | none => 0

/-! ## Writes -/

/-- A register's word after software writes w, by the access codes of its fields (R11). -/
def writeFields (fs : List FieldRow) (old w : Word) : Word :=
  fs.foldl (fun x f => match f.access with
    | .rw => withBits x f.hi f.lo (bitsOf w f.hi f.lo)
    | .w1c => withBits x f.hi f.lo (bitsOf (x &&& ~~~w) f.hi f.lo)
    | _ => x) old

/-- The tile map staged in GLB_TMAP_NEXT keeps R186: each valid entry names a tile of its half, and no two the same one. An entry that
names a tile which the record marks bad breaks no rule of R186: the map is armed with it (DESIGN CHOICE, log entry 76), and the entry
gives no tile (R3, `State.phys`). -/
def State.tmapOk (s : State) : Bool :=
  let l := ((List.range 96).map (fun k => (k, s.getR (R.glbTmapNext k)))).filter (fun e => e.2.getLsbD 7)
  l.all (fun e => bitsOf e.2 6 0 < 96 && halfOf (bitsOf e.2 6 0) = e.1 / 48) && decide ((l.map (fun e => bitsOf e.2 6 0)).Nodup)

/-- After a write of the map's registers: where the staged map breaks a rule of R186, ERR is set and it is not armed (DEDUCED for a write
of GLB_TMAP_NEXTk, log entry 76). -/
def State.tmapTake (s : State) : State :=
  if s.tmapOk then s else (s.setFlag F.glbTmapCtrlErr true).setFlag F.glbTmapCtrlArm false

/-- A write of GLB_TMAP_CTRL (R186). -/
def State.tmapArm (s : State) (w : Word) : State :=
  if !w.getLsbD 0 then s.setFlag F.glbTmapCtrlArm false
  else (s.setFlag F.glbTmapCtrlArm true).tmapTake

/-- GLB_TMAP_CTRL_ARM (R186). -/
def execGlbTmapCtrlArm (w : Word) (s : State) : Host.Outcome State Fault Refusal := .next (s.tmapArm w)

/-- Core c of a tile. -/
def TileSt.core (x : TileSt) (c : Nat) : TcSt := Sparse.get (fun _ => {}) x.tc c

/-- Change a tile core. -/
def State.modCore (s : State) (t c : Nat) (f : TcSt → TcSt) : State :=
  s.modTile t (fun x => { x with tc := Sparse.set (fun _ => {}) x.tc c (f (x.core c)) })

/-- A write of TILE_TC_ENTRYk (R180): a core in free mode starts, or starts again, at the offset. -/
def State.tcEntry (s : State) (t c : Nat) (w : Word) : State :=
  let s := s.setR (R.tileTcEntry t c) (w &&& 0x7FFFFC)
  s.when ((s.tile t).core c).free (fun s => s.modCore t c (fun x => { x with pc := (w &&& 0x7FFFFC).toNat, run := true }))

/-- TILE_TC_ENTRY_WRITE (R180). -/
def execTileTcEntryWrite (t : TileN) (k : Fin 4) (w : Word) (s : State) : Host.Outcome State Fault Refusal :=
  if s.tileOn t then .next (s.tcEntry t k w) else .next s

/-- A write of a counter's EVENT (R457): a refused one changes nothing and is logged. -/
def State.eventWrite (s : State) (t k : Nat) (w : Word) : State :=
  if eventOk w then s.setR (R.ctrPcCfg t k) (w &&& 0x7FFFFFF) else s.logEv srcCtl (code14 9) (s.ownerOf t) w.toNat

/-- A write of one of a mailbox's data words (R303, R304). -/
def State.mbxData (s : State) (r : Reg) (go refused : FieldRef) (w : Word) (secure : Bool) : State :=
  if r.j < 8 && !secure then s.secRefused r.j refused else if s.flag go then s.addF refused 1 else s.setR r w

/-- A write of a control register of a mailbox: on S0 to S7 one of a requester that is not secure is refused and counted, whatever its
bits (R304). -/
def State.mbxCtrl (s : State) (r : Reg) (refused : FieldRef) (on secure : Bool) (f : State → State) : State :=
  if r.j < 8 && !secure then s.secRefused r.j refused else s.when on f

/-- A write by the access codes alone. -/
def State.plainWrite (s : State) (r : Reg) (w : Word) : State := s.setR r (writeFields r.kind.fields (s.getR r) w)

/-- A write of a register: `core` when firmware on this module's control cores makes it, `secure` of a secure requester (R438). -/
def State.regWrite (s : State) (r : Reg) (w : Word) (core secure : Bool) : State :=
  match r.kind with
  | .arrCfg => s.writeArrCfg r.i r.j w
  | .arrPortCmd => s.writePortCmd r.i r.j w
  | .arrSpareMap => s.writeSpare r.i r.j r.k w
  | .tileRegion => s.setRegion r.i w
  | .pfCtrl => (s.when (w.getLsbD 1) (fun s => s.pfStop r.i r.j)).when (w.getLsbD 0) (fun s => s.pfPush r.i r.j (s.pfStaged r.i r.j))
  | .cqCfg => s.cqCfg r.i r.k w
  | .glbTmapCtrl => s.tmapArm w
  | .glbTmapNext => (s.plainWrite r w).tmapTake
  | .tileTcEntry => s.tcEntry r.i r.k w
  | .netRid => s.ridWrite r.k w
  | .syncPart => s.syncPartWrite r.k w
  | .portCfg => (s.plainWrite r w).when (w.getLsbD 2) (fun s => s.portReset r.i)
  | .mbxSendData => s.mbxData r (F.mbxSendCtrlGo r.j) (F.mbxSendCtrlRefused r.j) w secure
  | .mbxHostSendData => s.mbxData r (F.mbxHostSendCtrlGo 0 r.j) (F.mbxHostSendCtrlRefused 0 r.j) w secure
  | .mbxSendCtrl => s.mbxCtrl r (F.mbxSendCtrlRefused r.j) (w.getLsbD 0) secure (fun s => s.sendGo r.j false secure)
  | .mbxHostSendCtrl => s.mbxCtrl r (F.mbxHostSendCtrlRefused 0 r.j) (w.getLsbD 0) secure (fun s => s.sendGo r.j true secure)
  | .mbxRecvCtrl => s.mbxCtrl r (F.mbxSendCtrlRefused r.j) (w.getLsbD 1) secure (fun s => s.recvDone r.j false secure)
  | .mbxHostRecvCtrl => s.mbxCtrl r (F.mbxHostSendCtrlRefused 0 r.j) (w.getLsbD 1) secure (fun s => s.recvDone r.j true secure)
  | .mbxRecvData => s.mbxCtrl r (F.mbxSendCtrlRefused r.j) false secure id
  | .mbxHostRecvData => s.mbxCtrl r (F.mbxHostSendCtrlRefused 0 r.j) false secure id
  | .mbxCfg => (s.setF (F.mbxCfgPeer r.k) (bitsOf w 25 16)).when core (fun s => s.setF (F.mbxCfgPart r.k) (bitsOf w 3 0))
  | .syncObj => s.objWrite r.k w
  | .pwrDom => s.domWrite r.k (bitsOf w 5 4) core
  | .pwrInstall => s.when (w.getLsbD 0) State.installSave
  | .pwrWake => s.when (w.getLsbD 0) State.wake
  | .thmCfg => s.thmCfgWrite w
  | .supCfg => s.supCfgWrite w
  | .hkUrgent => s.urgentAsk (bitsOf w 5 0)
  | .hkCmpBnd => s.cmpWrite r.k false w
  | .hkCmpCfg => s.cmpWrite r.k true w
  | .secSessCtrl => (s.when (w.getLsbD 1) State.sessGo).when (w.getLsbD 2) State.endSession
  | .secSessResp => { s with sec := { s.sec with resp := Sparse.set (fun _ => 0) s.sec.resp r.k w } }
  | .ctrPcCfg => s.eventWrite r.i r.k w
  | _ => s.plainWrite r w

/-- A write to an address by a requester: one that reaches no register is ignored (R10). -/
def State.writeAt (s : State) (by_ : Requester) (addr : Nat) (w : Word) : State :=
  match by_ with
  | .bar2 f => s.bar2Write f addr w
  | .config f => s.configWrite f addr w
  | _ =>
    match s.reach by_ addr with
    | some r => s.regWrite r w (by_ = .core) (s.secure by_)
    | none => s

/-- REGISTER_WRITE (R11). -/
def execRegisterWrite (by_ : Requester) (addr : Nat) (w : Word) (s : State) : Host.Outcome State Fault Refusal :=
  .next (s.writeAt by_ addr w)

/-! ## REG_READ and REG_WRITE (Table 10.4, R10, R452) -/

/-- The words of a command, by address. -/
def regAddrs (addr : Word) (n : Nat) : List Nat := (List.range n).map (fun i => addr.toNat + 4 * i)

/-- Every word of a command is a mapped register of a present tile, at a word-aligned address (R10). -/
def State.regsMapped (s : State) (l : List Nat) : Bool :=
  l.all (fun a => match regFor .core a with
    | some r => !(r.kind.geom.block = .tile && s.absent r.i)
    | none => false)

/-- A tenant owns a tile. -/
def State.tenantTile (s : State) (k t : Nat) : Bool := s.ownerOf t ≠ 0 && s.tenantOf (s.ownerOf t) = k

/-- A tenant other than 0 may read an address: its tiles, their arrays and counters, and its partition blocks; it may write its
partition blocks alone. -/
def State.tenantMay (s : State) (k : Nat) (write : Bool) (a : Nat) : Bool :=
  if 0x30000000 ≤ a && a < 0x30100000 then
    let n := (a - 0x30000000) / 0x10000
    s.partState n ≠ 0 && s.tenantOf n = k
  else if write then false
  else if 0x10000000 ≤ a && a < 0x10000000 + 96 * 0x100000 then s.tenantTile k ((a - 0x10000000) / 0x100000)
  else if 0x60000000 ≤ a && a < 0x60000000 + 96 * 0x1000 then s.tenantTile k ((a - 0x60000000) / 0x1000)
  else false

/-- The tenant of a command may access every one of its words. -/
def State.regsAllowed (s : State) (h : CmdHdr) (write : Bool) (l : List Nat) : Bool :=
  h.tenant.val = 0 || l.all (s.tenantMay h.tenant write)

/-- Read words in ascending address: the bytes, and what the reads do. -/
def State.readAll (secure : Bool) : List Nat → State → Bytes × State
  | [], s => ([], s)
  | a :: l, s =>
    match s.reach .core a with
    | some r =>
      let q := State.readAll secure l (s.readEffect r)
      (leBytes 4 (s.regValue r secure).toNat ++ q.1, q.2)
    | none =>
      let q := State.readAll secure l s
      (leBytes 4 0 ++ q.1, q.2)

/-- REG_READ (R10, R452). -/
def execRegRead (h : CmdHdr) (addr count : Word) (s : State) : Host.Outcome State Fault Refusal :=
  .next (
    let l := regAddrs addr (min 256 count.toNat)
    s.command h (s.regsAllowed h false l) true (1 ≤ count.toNat && count.toNat ≤ 256 && s.regsMapped l) true true (4 * count.toNat) (fun s =>
      let q := State.readAll (s.secureSender h.sender) l s
      q.2.done h true stOK 0 q.1))

/-- A write of a register command is not one of this module's control-core firmware (R387). -/
def State.cmdWrite (s : State) (secure : Bool) (a : Nat) (w : Word) : State :=
  match s.reach .core a with
  | some r => s.regWrite r w false secure
  | none => s

/-- REG_WRITE (R10, R452). -/
def execRegWrite (h : CmdHdr) (addr count : Word) (words : List Word) (s : State) : Host.Outcome State Fault Refusal :=
  .next (
    let l := regAddrs addr (min 256 count.toNat)
    let ok := 1 ≤ count.toNat && count.toNat ≤ 256 && words.length = count.toNat && s.regsMapped l
    s.command h (s.regsAllowed h true l) true ok true true 0 (fun s =>
      (s.each (List.zip l words) (fun s e => s.cmdWrite (s.secureSender h.sender) e.1 e.2)).done h true stOK 0 []))

/-! ## The management interface at the connector (R468) -/

/-- SMBUS_REGISTER_READ (R468): the value that the next Block Read returns; 0 where the interface may not read. -/
def execSmbusRegisterRead (addr : Word) (pec : Bool) (s : State) : Host.Outcome State Fault Refusal :=
  .next (
    if !pec then s
    else
      let w := s.wordAt .smbus addr.toNat
      let s := match s.reach .smbus addr.toNat with | some r => s.readEffect r | none => s
      { s with sec := { s.sec with smbLast := w } })

/-- SMBUS_REGISTER_WRITE (R468). -/
def execSmbusRegisterWrite (addr data : Word) (pec : Bool) (s : State) : Host.Outcome State Fault Refusal :=
  .next (if pec then s.writeAt .smbus addr.toNat data else s)

/-- SMBUS_FIRMWARE_CHUNK (R468, R442): the recovery loader, when it runs, takes up to 24 bytes at an offset of the image. -/
def execSmbusFirmwareChunk (off : Word) (data : Bytes) (pec : Bool) (s : State) : Host.Outcome State Fault Refusal :=
  .next (
    if pec && s.flag F.secStatusRecovery && !s.pwr.booted && data.length ≤ 24 then
      { s with sec := { s.sec with recovery := Sparse.setRange (fun _ => 0) s.sec.recovery off.toNat data.length (fun j => data.getD j 0) } }
    else s)

/-- SMBUS_BLOCK_READ (R468). -/
def execSmbusBlockRead (s : State) : Host.Outcome State Fault Refusal := .next { s with smbOut := s.smbOut ++ [s.sec.smbLast] }

end Sys2Proof.Machine
end

