-- ==== Sys2Proof/Machine/TileCores.lean ====
section
/-! DEFINITION. The tile cores (R149, R153, R180, R308). A core in slotted mode runs the instruction of its TC slot as an action; a core
in free mode fetches its instructions from the program buffer, so that an instruction's command runs on it when the word at its program
counter is that instruction. -/

namespace Sys2Proof.Machine

/-! ## Registers and results -/

/-- Register n of a core; x0 reads as 0 (R180). -/
def TcSt.reg (x : TcSt) (n : Nat) : Word := if n = 0 then 0 else Sparse.get (fun _ => 0) x.regs n

/-- Write register n of a core with its parity bit (R149); a write to x0 is discarded (R180). -/
def TcSt.put (x : TcSt) (n : Nat) (w : Word) : TcSt :=
  if n = 0 then x
  else { x with regs := Sparse.set (fun _ => 0) x.regs n w, par := Sparse.set (fun _ => false) x.par n (oddOnes 32 w.toNat) }

/-- The core that runs an instruction. -/
def State.tcore (s : State) (r : TcArgs) : TcSt := (s.tile r.t).core r.c

/-- rd, rs1 and rs2 of an instruction. -/
def State.tcRd (s : State) (r : TcArgs) : Word := (s.tcore r).reg r.rd
/-- See `State.tcRd`. -/
def State.tcRs1 (s : State) (r : TcArgs) : Word := (s.tcore r).reg r.rs1
/-- See `State.tcRd`. -/
def State.tcRs2 (s : State) (r : TcArgs) : Word := (s.tcore r).reg r.rs2

/-- rd := w. -/
def State.tcPut (s : State) (r : TcArgs) (w : Word) : State := s.modCore r.t r.c (·.put r.rd w)

/-- imm16, sign-extended and zero-extended (R180). -/
def tcSimm (r : TcArgs) : Word := r.imm.signExtend 32
/-- See `tcSimm`. -/
def tcZimm (r : TcArgs) : Word := r.imm.zeroExtend 32

/-- rs1 + imm: a store or register offset, or a descriptor's place. -/
def State.tcAddr (s : State) (r : TcArgs) : Nat := (s.tcRs1 r + tcSimm r).toNat

/-- The register operations of Table 6.7 by op. -/
def tcAlu (op : Nat) (a b : Word) : Word :=
  match op with
  | 0x01 => a + b
  | 0x02 => a - b
  | 0x03 => a &&& b
  | 0x04 => a ||| b
  | 0x05 => a ^^^ b
  | 0x06 => a <<< (b.toNat % 32)
  | 0x07 => a >>> (b.toNat % 32)
  | 0x08 => a.sshiftRight (b.toNat % 32)
  | 0x09 => if a.slt b then 1 else 0
  | 0x0A => if a.ult b then 1 else 0
  | 0x0B => a * b
  | _ => BitVec.ofInt 32 (a.toInt * b.toInt / 2 ^ 32)

/-! ## Running an instruction -/

/-- The instruction's word (R180): op, rd, rs1 and, by its format, rs2 or imm16. -/
def tcWord (op : Nat) (r : TcArgs) : Nat :=
  op * 2 ^ 26 + (match tcFormat op with
    | some 1 => r.rd * 2 ^ 21 + r.rs1 * 2 ^ 16 + r.rs2 * 2 ^ 11
    | some 2 => r.rd * 2 ^ 21 + r.rs1 * 2 ^ 16 + r.imm.toNat
    | _ => 0)

/-- A free core fetches from the program buffer alone (R130, R149). -/
def State.tcInside (s : State) (t c : Nat) : Bool := ((s.tile t).core c).pc + 4 ≤ s.pbEnd t

/-- The word at a free core's program counter; a fetch outside the program buffer is suppressed and delivers zeros (R126, R130). -/
def State.tcFetch (s : State) (t c : Nat) : Word :=
  if s.tcInside t c then BitVec.ofNat 32 (leNat ((s.tile t).bytes ((s.tile t).core c).pc 4)) else 0

/-- A suppressed fetch is counted and logged (R130). -/
def State.noteFetch (s : State) (t c : Nat) : State := if s.tcInside t c then s else s.denyStore t ((s.tile t).core c).pc

/-- The bits of an instruction's word that its format uses. -/
def tcMask (op : Nat) : Word :=
  match tcFormat op with
  | some 1 => 0xFFFFF800
  | some 2 => 0xFFFFFFFF
  | _ => 0xFC000000

/-- A free core's next instruction is this one. Bits 10 to 0 of an R format word are ignored (DESIGN CHOICE, log entry 86: R180 has them
zero and says nothing of other values in a free core). -/
def State.tcNext (s : State) (r : TcArgs) (op : Nat) : Bool := s.tcFetch r.t r.c &&& tcMask op = BitVec.ofNat 32 (tcWord op r)

/-- A core's instruction that its checks pass, on the replay at the latest (R150, R152, R357); during a supply warning it is replayed
until two computations agree (R359). A slotted core that fails twice makes its tile fail; a free one is stopped and logged (R153). -/
def State.tcChecked (s : State) (t c : Nat) (free : Bool) (chk : Chk) (run : State → State) : State :=
  let s1 := s.count t 0x040 0 none 1
  let s1 := s1.when (!free) (fun s => (s.waste t (3 + c) 1).elastic t (3 + c) 2)
  match chk with
  | .pass => run s
  | .replayPassed => (run s1).logTile t (0x82 + c) 0x0F01 (s.pos t)
  | _ =>
    if s.supplyActive then (run s1).logTile t (0x82 + c) 0x0F01 (s.pos t)
    else if free then (s1.modCore t c (fun x => { x with run := false })).logTile t (0x82 + c) 0x1201 (srcTile t (0x82 + c))
    else s1.failTile t (0x82 + c)

/-- The program counter after an instruction that does not jump. -/
def State.tcStep (s : State) (t c : Nat) : State := s.modCore t c (fun x => { x with pc := (x.pc + 4) % 2 ^ 32 })

/-- A free core can run: its tile runs, and the core has been started and not stopped. -/
def State.tcLive (s : State) (t c : Nat) : Bool := s.tileRuns t && ((s.tile t).core c).free && ((s.tile t).core c).run

/-- A free core runs an instruction, when it is its next one and its conditions hold. -/
def State.tcFree (s : State) (r : TcArgs) (op : Nat) (a : Action) : State :=
  let pc := (s.tcore r).pc
  if !s.tcLive r.t r.c then s
  else if s.tcInside r.t r.c && !(s.tile r.t).sound pc 4 then s.askRestore r.t pc 4
  else if !s.tcNext r op then s
  else match s.actReady r.t a with
    | .ok => (s.noteFetch r.t r.c).tcChecked r.t r.c true r.chk a.run
    | _ => s.actAsk r.t a

/-- An instruction of both modes: its action, after which a free core goes on to the next instruction. -/
def State.tcOp (s : State) (r : TcArgs) (op : Nat) (a : Action) : State :=
  if (s.tcore r).free then s.tcFree r op { a with run := fun s => (a.run s).tcStep r.t r.c }
  else s.act r.t { a with run := fun s => s.tcChecked r.t r.c false r.chk a.run }

/-- An instruction of free mode alone; a slotted core has none (Table 6.10, check 11). -/
def State.tcFreeOp (s : State) (r : TcArgs) (op : Nat) (run : State → State) : State :=
  if (s.tcore r).free then s.tcFree r op { unit := 3 + r.c, occ := 1, ready := .ok, run := run } else s

/-- An action that is ready at any time and writes rd. -/
def tcSet (r : TcArgs) (w : State → Word) : Action where
  unit := 3 + r.c
  occ := 1
  ready := .ok
  run := fun s => s.tcPut r (w s)

/-- An operation of format R. -/
def tcR (r : TcArgs) (op : Nat) : Action := tcSet r (fun s => tcAlu op (s.tcRs1 r) (s.tcRs2 r))

/-! ## Arithmetic -/

/-- NOP as an action. -/
def tcNopAct (r : TcArgs) : Action where
  unit := 3 + r.c
  occ := 1
  ready := .ok
  run := fun s => s

/-- TC_NOP (Table 6.7). -/
def execTcNop (r : TcArgs) (s : State) : Host.Outcome State Fault Refusal := .next (s.tcOp r 0x00 (tcNopAct r))
/-- TC_ADD. -/
def execTcAdd (r : TcArgs) (s : State) : Host.Outcome State Fault Refusal := .next (s.tcOp r 0x01 (tcR r 0x01))
/-- TC_SUB. -/
def execTcSub (r : TcArgs) (s : State) : Host.Outcome State Fault Refusal := .next (s.tcOp r 0x02 (tcR r 0x02))
/-- TC_AND. -/
def execTcAnd (r : TcArgs) (s : State) : Host.Outcome State Fault Refusal := .next (s.tcOp r 0x03 (tcR r 0x03))
/-- TC_OR. -/
def execTcOr (r : TcArgs) (s : State) : Host.Outcome State Fault Refusal := .next (s.tcOp r 0x04 (tcR r 0x04))
/-- TC_XOR. -/
def execTcXor (r : TcArgs) (s : State) : Host.Outcome State Fault Refusal := .next (s.tcOp r 0x05 (tcR r 0x05))
/-- TC_SHL. -/
def execTcShl (r : TcArgs) (s : State) : Host.Outcome State Fault Refusal := .next (s.tcOp r 0x06 (tcR r 0x06))
/-- TC_SHR. -/
def execTcShr (r : TcArgs) (s : State) : Host.Outcome State Fault Refusal := .next (s.tcOp r 0x07 (tcR r 0x07))
/-- TC_SRA. -/
def execTcSra (r : TcArgs) (s : State) : Host.Outcome State Fault Refusal := .next (s.tcOp r 0x08 (tcR r 0x08))
/-- TC_SLT. -/
def execTcSlt (r : TcArgs) (s : State) : Host.Outcome State Fault Refusal := .next (s.tcOp r 0x09 (tcR r 0x09))
/-- TC_SLTU. -/
def execTcSltu (r : TcArgs) (s : State) : Host.Outcome State Fault Refusal := .next (s.tcOp r 0x0A (tcR r 0x0A))
/-- TC_MUL. -/
def execTcMul (r : TcArgs) (s : State) : Host.Outcome State Fault Refusal := .next (s.tcOp r 0x0B (tcR r 0x0B))
/-- TC_MULH. -/
def execTcMulh (r : TcArgs) (s : State) : Host.Outcome State Fault Refusal := .next (s.tcOp r 0x0C (tcR r 0x0C))
/-- TC_ADDI. -/
def execTcAddi (r : TcArgs) (s : State) : Host.Outcome State Fault Refusal :=
  .next (s.tcOp r 0x10 (tcSet r (fun s => s.tcRs1 r + tcSimm r)))
/-- TC_ANDI. -/
def execTcAndi (r : TcArgs) (s : State) : Host.Outcome State Fault Refusal :=
  .next (s.tcOp r 0x11 (tcSet r (fun s => s.tcRs1 r &&& tcZimm r)))
/-- TC_ORI. -/
def execTcOri (r : TcArgs) (s : State) : Host.Outcome State Fault Refusal :=
  .next (s.tcOp r 0x12 (tcSet r (fun s => s.tcRs1 r ||| tcZimm r)))
/-- TC_LUI. -/
def execTcLui (r : TcArgs) (s : State) : Host.Outcome State Fault Refusal :=
  .next (s.tcOp r 0x13 (tcSet r (fun _ => tcZimm r <<< 16)))

/-! ## Store and registers -/

/-- The word-aligned store offset that LD and ST name. -/
def State.tcWordAddr (s : State) (r : TcArgs) : Nat := s.tcAddr r / 4 * 4

/-- LD as an action (R130, R131). -/
def State.ldCoreAct (s : State) (r : TcArgs) : Action where
  unit := 3 + r.c
  occ := 1
  ready := .ok
  reads := [(s.tcWordAddr r, 4)]
  run := fun s =>
    let o := s.tcWordAddr r
    (s.noteRead r.t o 4).tcPut r (BitVec.ofNat 32 (leNat (s.stRead r.t o 4)))

/-- TC_LD (Table 6.7). -/
def execTcLd (r : TcArgs) (s : State) : Host.Outcome State Fault Refusal := .next (s.tcOp r 0x18 (s.ldCoreAct r))

/-- ST as an action: the word merges with the rest of its 64-bit word (R131). -/
def State.stCoreAct (s : State) (r : TcArgs) : Action where
  unit := 3 + r.c
  occ := 1
  ready := .ok
  reads := partialWords (s.tcWordAddr r) 4
  run := fun s => s.stWrite r.t (s.tcWordAddr r) (leBytes 4 (s.tcRd r).toNat) (3 + r.c) []

/-- TC_ST (Table 6.7). -/
def execTcSt (r : TcArgs) (s : State) : Host.Outcome State Fault Refusal := .next (s.tcOp r 0x19 (s.stCoreAct r))

/-- A free core reaches the prefetchers that FREE_PF assigns to free mode alone (R149). -/
def State.pfOpen (s : State) (r : TcArgs) (p : Nat) : Bool :=
  !(s.tcore r).free || (s.getF (F.tileTcModeFreePf r.t)).testBit p

/-- The own-tile register that an instruction names (R180). -/
def State.tcReg (s : State) (r : TcArgs) : Option Reg :=
  match s.reach (.tileCore r.t) (s.tcAddr r) with
  | some g => if [RegKind.pfDesc, .pfCtrl, .pfStatus].contains g.kind && !s.pfOpen r g.j then none else some g
  | none => none

/-- RDR as an action: a register that the core does not reach reads as 0 (R10). -/
def rdrAct (r : TcArgs) : Action where
  unit := 3 + r.c
  occ := 1
  ready := .ok
  run := fun s => match s.tcReg r with
    | some g => (s.readEffect g).tcPut r (s.regValue g false)
    | none => s.tcPut r 0

/-- TC_RDR (Table 6.7). -/
def execTcRdr (r : TcArgs) (s : State) : Host.Outcome State Fault Refusal := .next (s.tcOp r 0x1A (rdrAct r))

/-- WRR as an action: a write that reaches no register is ignored (R10). -/
def wrrAct (r : TcArgs) : Action where
  unit := 3 + r.c
  occ := 1
  ready := .ok
  run := fun s => match s.tcReg r with
    | some g => s.regWrite g (s.tcRd r) false false
    | none => s

/-- TC_WRR (Table 6.7). -/
def execTcWrr (r : TcArgs) (s : State) : Host.Outcome State Fault Refusal := .next (s.tcOp r 0x1B (wrrAct r))

/-! ## Synchronisation and prefetchers -/

/-- The operation, object and value of SYNOP (Table 6.7): rd[3:0] is the operation's number. -/
def tcSynop (r : TcArgs) : Nat := r.rd.val % 16

/-- A remote SYNOP (R308): SIGNAL, ARRIVE, ESET and ECLR travel as SYNC_REMOTE; no other operation goes remote. -/
def State.synRemote (s : State) (r : TcArgs) : State :=
  let o := s.tcRs1 r
  if opWaits (tcSynop r) || 6 < (tcSynop r) then s
  else s.sendMsg { cls := 7, part := s.ownerOf r.t, dest := bitsOf o 25 16, stream := 0x0010,
                   payload := leBytes 2 (bitsOf o 13 0) ++ leBytes 1 (tcSynop r) ++ leBytes 1 0 ++ leBytes 4 (s.tcRs2 r).toNat }

/-- SYNOP as an action (R180, R183, R308). -/
def State.synopAct (s : State) (r : TcArgs) : Action :=
  let o := (s.tcRs1 r).toNat
  let v := (s.tcRs2 r).toNat
  let u := 3 + r.c.val
  if (s.tcRs1 r).getLsbD 31 then { unit := u, occ := 1, ready := .ok, run := fun s => s.synRemote r }
  else
    { unit := u
      occ := 1
      ready := .need (s.unitOpReady r.t u (tcSynop r) o v) .front
      ask := fun s => s.unitOpAsk r.t u (tcSynop r) o v
      run := fun s => s.unitOpRun r.t u (tcSynop r) o v }

/-- SYNOP (R308). -/
def execSynop (r : TcArgs) (s : State) : Host.Outcome State Fault Refusal := .next (s.tcOp r 0x1C (s.synopAct r))

/-- PFPUSH as an action: the 28 bytes at rs1 are the descriptor; imm[3:0] names the prefetcher. -/
def State.pfpushAct (s : State) (r : TcArgs) : Action where
  unit := 3 + r.c
  occ := 1
  ready := .ok
  reads := [((s.tcRs1 r).toNat, 28)]
  run := fun s =>
    let o := (s.tcRs1 r).toNat
    let p := r.imm.toNat % 16
    let d := pfDescOf (s.stRead r.t o 28)
    (s.noteRead r.t o 28).when (s.pfOpen r p) (fun s => s.pfPush r.t p d)

/-- PFPUSH (R135, Table 6.7). -/
def execPfpush (r : TcArgs) (s : State) : Host.Outcome State Fault Refusal := .next (s.tcOp r 0x1D (s.pfpushAct r))

/-! ## Free mode (Table 6.7) -/

/-- PC := a. -/
def State.tcJump (s : State) (t c a : Nat) : State := s.modCore t c (fun x => { x with pc := a })

/-- PC + 4 × imm. -/
def State.tcTarget (s : State) (r : TcArgs) : Nat := ((((s.tcore r).pc : Int) + 4 * r.imm.toInt) % 2 ^ 32).toNat

/-- A branch: to PC + 4 × imm when rd and rs1 compare, else to the next instruction. -/
def State.tcBranch (s : State) (r : TcArgs) (op : Nat) (cond : Word → Word → Bool) : State :=
  s.tcFreeOp r op (fun s => if cond (s.tcRd r) (s.tcRs1 r) then s.tcJump r.t r.c (s.tcTarget r) else s.tcStep r.t r.c)

/-- TC_BEQ. -/
def execTcBeq (r : TcArgs) (s : State) : Host.Outcome State Fault Refusal := .next (s.tcBranch r 0x20 (fun a b => a == b))
/-- TC_BNE. -/
def execTcBne (r : TcArgs) (s : State) : Host.Outcome State Fault Refusal := .next (s.tcBranch r 0x21 (fun a b => a != b))
/-- TC_BLT: a signed comparison, as SLT. -/
def execTcBlt (r : TcArgs) (s : State) : Host.Outcome State Fault Refusal := .next (s.tcBranch r 0x22 (fun a b => a.slt b))
/-- TC_BGE: a signed comparison. -/
def execTcBge (r : TcArgs) (s : State) : Host.Outcome State Fault Refusal := .next (s.tcBranch r 0x23 (fun a b => !a.slt b))

/-- TC_JAL. -/
def execTcJal (r : TcArgs) (s : State) : Host.Outcome State Fault Refusal :=
  .next (s.tcFreeOp r 0x24 (fun s =>
    (s.tcPut r (BitVec.ofNat 32 ((s.tcore r).pc + 4))).tcJump r.t r.c (s.tcTarget r)))

/-- TC_JR. -/
def execTcJr (r : TcArgs) (s : State) : Host.Outcome State Fault Refusal :=
  .next (s.tcFreeOp r 0x25 (fun s => s.tcJump r.t r.c (s.tcRs1 r).toNat))

/-- TC_HALT: the core stops until TILE_TC_ENTRYk is written again. -/
def execTcHalt (r : TcArgs) (s : State) : Host.Outcome State Fault Refusal :=
  .next (s.tcFreeOp r 0x26 (fun s => s.modCore r.t r.c (fun x => { x with run := false })))

/-- TC_REFUSED_OP (R180): a free core meets an op value that Table 6.7 does not name; a word that fails its parity is restored first
(R131). -/
def execTcRefusedOp (t : TileN) (c : Fin 4) (s : State) : Host.Outcome State Fault Refusal :=
  .next (
    let pc := ((s.tile t).core c).pc
    if s.tcLive t c && s.tcInside t c && !(s.tile t).sound pc 4 then s.askRestore t pc 4
    else if s.tcLive t c && (tcFormat (bitsOf (s.tcFetch t c) 31 26)).isNone then
      (s.modCore t c (fun x => { x with run := false })).logTile t (0x82 + c) (code14 10) (s.tcFetch t c).toNat
    else s)

end Sys2Proof.Machine
end

