-- ==== Sys2Proof/Machine/Sequencer.lean ====
section
/-! DEFINITION. The tile sequencer (R163 to R168, R174, R189, R190): the program buffer that it reads, the actions that slot words stand
for, lag, and the issue of the next beat word. -/

namespace Sys2Proof.Machine

/-! ## Slot words as actions (R176 to R184) -/

/-- The source of a MOV or NET slot (R181). -/
def Slot.src (x : Slot) : MovSrc :=
  if x.w0.getLsbD 4 then .queue (Fin.ofNat 32 (bitsOf x.w0 9 5)) else .line (Fin.ofNat 16384 (bitsOf x.w0 29 16))

/-- The fields of a VU slot (R178). -/
def Slot.vu (x : Slot) : VuArgs where
  vd := Fin.ofNat 32 (bitsOf x.w0 12 8)
  va := Fin.ofNat 32 (bitsOf x.w0 17 13)
  vb := Fin.ofNat 32 (bitsOf x.w0 22 18)
  vc := Fin.ofNat 32 (bitsOf x.w0 27 23)
  bf := x.w0.getLsbD 28
  lanes := Fin.ofNat 1024 (bitsOf x.w2 31 22)
  chk := .pass

/-- The further fields of a QA4 slot (R178). -/
def Slot.quant (x : Slot) : QuantArgs where
  l := BitVec.ofNat 8 (bitsOf x.w2 7 0)
  k := bitsOf x.w2 12 8
  rr := x.w2.getLsbD 13
  lslot := Fin.ofNat 64 (bitsOf x.w2 19 14)
  seg := bitsOf x.w2 21 20
  off := x.w1.toNat

/-- The operands of a tile core slot (R180). -/
def Slot.tc (x : Slot) (t : TileN) : TcArgs where
  t := t
  c := Fin.ofNat 4 (x.unit - 3)
  rd := Fin.ofNat 32 (bitsOf x.w0 25 21)
  rs1 := Fin.ofNat 32 (bitsOf x.w0 20 16)
  rs2 := Fin.ofNat 32 (bitsOf x.w0 15 11)
  imm := BitVec.ofNat 16 (bitsOf x.w0 15 0)
  chk := .pass

/-- The operands of an RSEND or RSENDI slot (R182). -/
def Slot.net (x : Slot) : NetArgs where
  addr := Fin.ofNat 16384 (bitsOf x.w0 29 16)
  queue := if x.w0.getLsbD 4 then some (Fin.ofNat 32 (bitsOf x.w0 9 5)) else none
  lines := Fin.ofNat 64 (bitsOf x.w0 15 10)
  dest := Fin.ofNat 96 (bitsOf x.w1 6 0)
  rid := BitVec.ofNat 8 (bitsOf x.w1 14 7)
  fromArr := if x.w1.getLsbD 15 then some (Fin.ofNat 128 (bitsOf x.w1 22 16)) else none

/-- An action without an effect, for what the loader refuses. -/
def noAct (u : Nat) : Action where
  unit := u
  occ := 0
  ready := .ok
  run := fun s => s

/-- A VU slot as an action. -/
def Slot.vuAct (x : Slot) (t : Nat) : Action :=
  let o := x.vu
  match x.op with
  | 0x24 => qa4Act t o x.quant
  | 0x25 => qa8Act t o (bitsOf x.w2 19 14) x.w1.toNat
  | 0x40 => rsumAct t o
  | 0x41 => rmaxAct t o
  | 0x42 => rminAct t o
  | 0x43 => psumAct t o
  | 0x44 => permAct t o
  | 0x45 => sortAct t o
  | 0x46 => randAct t o
  | 0x50 => ldAct t o x.w1.toNat
  | 0x51 => stAct t o x.w1.toNat
  | 0x52 => ldbAct t o x.w1.toNat
  | op => (vuArith t o op).getD (noAct 2)

/-- A tile core slot as an action; a core in free mode runs its own code and takes nothing from its slot. -/
def State.tcSlotAct (s : State) (x : Slot) (t : TileN) : Action :=
  let r := x.tc t
  let op := x.op
  if (s.tcore r).free then noAct x.unit
  else if 1 ≤ op ∧ op ≤ 0x0C then tcR r op
  else match op with
    | 0x10 => tcSet r (fun s => s.tcRs1 r + tcSimm r)
    | 0x11 => tcSet r (fun s => s.tcRs1 r &&& tcZimm r)
    | 0x12 => tcSet r (fun s => s.tcRs1 r ||| tcZimm r)
    | 0x13 => tcSet r (fun _ => tcZimm r <<< 16)
    | 0x18 => s.ldCoreAct r
    | 0x19 => s.stCoreAct r
    | 0x1A => rdrAct r
    | 0x1B => wrrAct r
    | 0x1C => s.synopAct r
    | 0x1D => s.pfpushAct r
    | _ => tcNopAct r

/-- A slot as an action of tile t, with the mask file. -/
def State.slotAct (s : State) (t : TileN) (masks : List (BitVec 128)) (x : Slot) : Action :=
  let mask := fun (k : Nat) => masks.getD k 0
  let lines := bitsOf x.w0 15 10 + 1
  match x.unit, x.op with
  | 0, 0 => s.mulAct t (mask (bitsOf x.w0 19 12)) (bitsOf x.w0 11 6) (x.w0.getLsbD 4) (x.w0.getLsbD 5)
  | 0, 1 => s.calAct t (mask (bitsOf x.w0 19 12))
  | 0, 2 => s.wrrowAct t x.rows.1 x.rows.2.1 x.rows.2.2 (128 * bitsOf x.w1 15 0)
  | 0, 3 => s.wrscaleAct t x.rows.1 x.rows.2.1 x.rows.2.2 (128 * bitsOf x.w1 15 0)
  | 0, 4 => s.rdrowAct t x.rows.1 x.rows.2.1 x.rows.2.2 (128 * bitsOf x.w1 15 0)
  | 1, 0 => s.loadwAct t (bitsOf x.w0 5 4) (x.w0.getLsbD 6) (512 * bitsOf x.w1 13 0)
  | 1, 1 => s.runAct t ⟨bitsOf x.w0 5 4, x.w0.getLsbD 6, bitsOf x.w0 12 7, bitsOf x.w0 18 13, bitsOf x.w0 24 19 + 1, bitsOf x.w0 29 25,
      .pass, 0, 0⟩
  | 1, 2 => s.drainAct t (bitsOf x.w0 5 4) (bitsOf x.w0 18 13) (bitsOf x.w1 19 14 + 1) (512 * bitsOf x.w1 13 0)
  | 1, 3 => s.deClearAct t (bitsOf x.w0 5 4) (bitsOf x.w0 18 13)
  | 2, _ => x.vuAct t
  | 7, 0 => s.aopndAct t x.src (mask (bitsOf x.w1 7 0))
  | 7, 1 => s.aresAct t (bitsOf x.w1 6 0) (512 * bitsOf x.w0 29 16)
  | 7, 2 => s.xferAct t x.src lines (512 * bitsOf x.w1 13 0)
  | 7, 3 => s.hstAct t x.src lines x.w1.toNat
  | 7, 4 => s.pfqAct t (512 * bitsOf x.w0 29 16) (bitsOf x.w0 8 5)
  | 8, 0 => s.netAct t x.net false
  | 8, 1 => s.netAct t x.net true
  | 8, 2 => s.linkAct t x.src lines (bitsOf x.w1 3 0) (bitsOf x.w1 19 4) 1
  | 8, 3 => s.linkAct t x.src lines (bitsOf x.w1 3 0) (bitsOf x.w1 19 4) 2
  | 9, op => s.synAct t op (bitsOf x.w0 17 4) (bitsOf x.w0 31 18)
  | 10, 0 => s.cnryAct t (mask (bitsOf x.w0 11 4))
  | 10, 1 => s.cmpwAct t (8 * bitsOf x.w0 24 4)
  | 10, 2 => s.cqchkAct t (bitsOf x.w0 8 4) (bitsOf x.w0 16 9)
  | 10, 3 => s.markAct t (bitsOf x.w0 19 4)
  | u, _ => if x.isTc then s.tcSlotAct x t else noAct u

/-! ## The program buffer (R189) -/

/-- The ring slot that slice byte o lies in, by its running number. -/
def SeqSt.ringNo (q : SeqSt) (o : Nat) : Nat := q.slot0 + (o - q.passOff) / 4096

/-- Where slice byte o lies in the program buffer. -/
def State.ringAt (s : State) (t o : Nat) : Nat :=
  let q := (s.tile t).seq
  q.ringNo o % s.progRing t * 4096 + (o - q.passOff) % 4096

/-- The buffer holds slice byte o: its slot is READY. -/
def State.ringHas (s : State) (t o : Nat) : Bool :=
  let q := (s.tile t).seq
  q.ringNo o < q.freed + s.getF (F.cqStateReady t q.cq)

/-- The word at slice byte o; none while it is not there or is under restore (R131). -/
def State.seqWord (s : State) (t o : Nat) : Option Word :=
  if s.ringHas t o && (s.tile t).sound (s.ringAt t o) 4 then
    some (BitVec.ofNat 32 (leNat ((s.tile t).bytes (s.ringAt t o) 4)))
  else none

/-- n words from slice byte o. -/
def State.seqWords (s : State) (t o : Nat) : Nat → Option (List Word)
  | 0 => some []
  | n + 1 =>
    match s.seqWord t o, s.seqWords t (o + 4) n with
    | some w, some ws => some (w :: ws)
    | _, _ => none

/-- The sequencer leaves the slots before slice byte o behind: each goes back to its queue. -/
def State.seqFree (s : State) (t o : Nat) : State :=
  let q := (s.tile t).seq
  let n := q.ringNo o - q.freed
  (s.each (List.range n) (fun s _ => (s.cqTake t q.cq).cqGive t q.cq)).modTile t (fun x => { x with
    seq := { x.seq with freed := x.seq.freed + n } })

/-! ## Positions and lag (R159, R163, R165) -/

/-- The program window that the current window is for, hold windows left out (R367). -/
def State.progNow (s : State) : Nat := s.cad.edge - s.cad.shift

/-- The window and position of the next beat word. -/
def State.seqNext (s : State) (t : Nat) : Nat × Nat :=
  let q := (s.tile t).seq
  if q.ended then (q.win + 1, 0) else (q.win, s.pos t)

/-- The sequencer runs a program of the partition that owns the tile. -/
def State.seqRuns (s : State) (t : Nat) : Bool :=
  let n := s.ownerOf t
  n ≠ 0 && s.running n && (s.tile t).seq.part = n

/-- The lag λ of a tile: the domain beat less the beat at which its next beat word was due; never negative (R163). -/
def State.lag (s : State) (t : Nat) : Nat :=
  if !s.locked then 0
  else
    let v := s.seqNext t
    s.cad.beat.toNat - ((s.cad.edge - s.cad.held - (s.progNow - v.1) + (v.1 - s.progNow)) * s.winLen + v.2)

/-- Show the lag. -/
def State.showLag (s : State) (t : Nat) : State :=
  let l := min 0xFFFF (s.lag t)
  (s.setF (F.tileSeqLagNow t) l).setF (F.tileSeqLagMax t) (max l (s.getF (F.tileSeqLagMax t)))

/-- Every action that a tile has issued has completed (R167): its multiplies, the DE's RUN and its fabric injections. -/
def State.tileDone (s : State) (t : Nat) : Bool :=
  !s.arrays.any (fun e => e.1 / 128 = t && e.2.mul.isSome) && (s.tile t).deRun.isNone && (s.router t).inj.isEmpty && ((s.router t).buf 0 2).isEmpty

/-- The cadence has released the next beat word, and no hold or stop keeps it back; a window's first one waits until
the tile has reached the end of the window before (R163, R168, R190, R367). -/
def State.seqReleased (s : State) (t : Nat) : Bool :=
  let v := s.seqNext t
  (v.1 < s.progNow || (v.1 = s.progNow && (!s.locked || s.cad.held ≠ 0 || s.win ≠ s.cad.edge || v.2 ≤ s.cad.beat.toNat % s.winLen))) &&
  !(s.locked && (s.tile t).seq.paced) && (!(s.tile t).seq.ended || s.tileDone t) &&
  !((s.tile t).seq.ended && (match (s.prt (s.ownerOf t)).stopWin with
    | some z => z < v.1 + s.cad.shift - s.cad.held
    | none => false))

/-- A tile's position in the window under way in free cadence: 0 until it begins the window, and the last one at the window's end. -/
def State.posNow (s : State) (t : Nat) : Nat :=
  let q := (s.tile t).seq
  if q.win < s.progNow then 0 else if q.ended then s.winLen - 1 else s.pos t

/-- The lowest position of a tile in free cadence (R159). -/
def State.lowestPos (s : State) : Nat :=
  ((List.range 96).filter s.seqRuns).foldl (fun m t => min m (s.posNow t)) (s.winLen - 1)

/-- In free cadence the beat count follows the lowest position (R159). -/
def State.freeBeat (s : State) : State :=
  if s.locked then s
  else s.passTo (BitVec.ofNat 64 (s.cad.edge * s.winLen + s.lowestPos))

/-- One beat of the tile's counts: its beats, and those in which priority work of R144 holds the multiply array. -/
def State.countBeat (s : State) (t : Nat) : State :=
  (s.count t 0x001 0 none 1).when ((s.tile t).dePrio ≠ 0) (fun s => s.count t 0x021 0 none 1)

/-- The position advances by k beats, and the next record is at slice byte `off`. -/
def State.seqGo (s : State) (t k off : Nat) : State :=
  let p := s.pos t + k
  let past := decide (s.winLen ≤ p)
  let s := (s.modTile t (fun x => { x with seq := { x.seq with off := off, ended := past } })).setF (F.tileSeqPosPos t)
    (if past then 0 else p)
  ((s.seqFree t off).showLag t).freeBeat

/-- One beat of the release is used. -/
def State.seqPaced (s : State) (t : Nat) : State := s.modTile t (fun x => { x with seq := { x.seq with paced := true } })

/-! ## Issue (R164) -/

/-- The next record is not in the buffer (R190): the beat word waits at the front, and a bad word is restored. -/
def State.seqStarve (s : State) (t o n : Nat) : State :=
  let s := s.each ((List.range n).filter (fun i => s.ringHas t (o + 4 * i))) (fun s i => s.askRestore t (s.ringAt t (o + 4 * i)) 4)
  (s.wait t .front).seqPaced t

/-- The actions issue one after the other on the state that the ones before leave; a waiting synchronisation whose condition another
one of the same beat word has taken stops them all. -/
def issueAll (t : TileN) (masks : List (BitVec 128)) : List (Slot × Action) → State → Option State
  | [], s => some s
  | (x, a) :: rest, s =>
    if (x.unit = 9 || x.isTc) && (s.slotAct t masks x).ready ≠ .ok then none
    else issueAll t masks rest ((a.run s).issued t a.unit a.occ)

/-- A beat word: all of its actions issue, or it waits. -/
def State.issueSlots (s : State) (t : TileN) (sl : List Slot) (off : Nat) : State :=
  let masks := (s.tile t).seq.masks
  let acts := sl.map (fun x => (x, s.slotAct t masks x))
  let late := acts.filter (fun e => s.actReady t e.2 ≠ .ok)
  match Ready.all (acts.map (fun e => s.actReady t e.2)) with
  | .ok => match issueAll t masks acts s with
    | some s' => (((s'.unwait t).when (!s.locked) (fun s => s.countBeat t)).seqPaced t).seqGo t 1 off
    | none => (s.wait t .front).seqPaced t
  | r => ((s.each late (fun s e => s.actAsk t e.2)).wait t r).seqPaced t

/-- The next record of the window under way (R165, R174). -/
def State.issueRecord (s : State) (t : TileN) : State :=
  let q := (s.tile t).seq
  if q.runLeft ≠ 0 then
    ((s.modTile t (fun x => { x with seq := { x.seq with runLeft := x.seq.runLeft - 1 } })).seqPaced t).seqGo t 1 q.off
  else match s.seqWord t q.off with
    | none => s.seqStarve t q.off 1
    | some w =>
      let n := bitsOf w 15 0 + 1
      let run := fun (s : State) (k : Nat) => s.modTile t (fun x => { x with seq := { x.seq with runLeft := k } })
      match bitsOf w 31 30 with
      | 0 =>
        let us := slotUnits 0 (bitsOf w 10 0)
        let k := (us.map slotWords).sum
        match s.seqWords t (q.off + 4) k with
        | none => s.seqStarve t (q.off + 4) k
        | some ws => match takeSlots us ws with
          | some (sl, _) => s.issueSlots t sl (q.off + 4 + 4 * k)
          | none => s
      | 1 => (((run s (n - 1)).unwait t).seqPaced t).seqGo t 1 (q.off + 4)
      | 2 =>
        let c := min (s.lag t) n
        if c = 0 then (((run s (n - 1)).unwait t).seqPaced t).seqGo t 1 (q.off + 4)
        else ((run s (n - c)).unwait t).seqGo t c (q.off + 4)
      | _ => s

/-- A program-load descriptor of the stream that fills the ring from slice byte o to the slice's end (R189). -/
def loadDesc (p : Prog) (l : Slice) (o : Nat) : PfDesc :=
  let a := p.base + l.off + o
  { w0 := BitVec.ofNat 32 (l.cq * 8 + 64 * 256), w1 := BitVec.ofNat 32 a, w2 := BitVec.ofNat 32 (a / 2 ^ 32), w3 := 4096
    w4 := BitVec.ofNat 32 (l.slots o), load := true }

/-- The pass has reached its END record and goes on at LOOP_TO (R190): the next pass follows in the ring, and one more is asked for. -/
def State.seqLoop (s : State) (t : Nat) : State :=
  match s.tileSlice t, (s.prt (s.ownerOf t)).prog with
  | some l, some p =>
    let q := (s.tile t).seq
    let n := q.slot0 + l.slots q.passOff
    let s := (s.each (List.range (n - q.freed)) (fun s _ => (s.cqTake t q.cq).cqGive t q.cq)).modTile t (fun x => { x with
      seq := { x.seq with slot0 := n, freed := n, passOff := p.loopOff l, off := p.loopOff l } })
    s.pfPush t 15 (loadDesc p l (p.loopOff l))
  | _, _ => s

/-- A WSTART record: the next window of the program begins (R174). -/
def State.seqBegin (s : State) (t : Nat) (w : Word) : State :=
  let q := (s.tile t).seq
  let s := s.modTile t (fun x => { x with
    seq := { x.seq with win := q.win + 1, progWin := bitsOf w 23 0, ended := false, lagged := false, off := q.off + 4 } })
  (s.setF (F.tileSeqPosWindow t) (q.win + 1 + s.cad.shift)).seqFree t (q.off + 4)

/-- The next beat word of a tile (R163, R164, R168): at a window's end the WSTART record first, after an END record that of the next
pass. -/
def State.beatNext (s : State) (t : TileN) : State :=
  let q := (s.tile t).seq
  if !q.ended then s.issueRecord t
  else match s.seqWord t q.off with
    | none => s.seqStarve t q.off 1
    | some w =>
      if bitsOf w 29 24 = 0 then (s.seqBegin t w).issueRecord t
      else if ((s.prt (s.ownerOf t)).prog.bind Prog.loopTo).isNone then s
      else
        let s := s.seqLoop t
        match s.seqWord t (s.tile t).seq.off with
        | none => s.seqStarve t (s.tile t).seq.off 1
        | some w => (s.seqBegin t w).issueRecord t

/-- BEAT_WORD_ISSUE (R163, R164). The checks of the results pass here; an action's own row says when one does not. -/
def execBeatWordIssue (t : TileN) (s : State) : Host.Outcome State Fault Refusal :=
  .next (
    if !s.tileRuns t then s
    else
      let s := s.deStep t
      (if !s.seqRuns t || !s.seqReleased t then s else s.beatNext t).when (!s.locked) State.serveFabric)

end Sys2Proof.Machine
end

