-- ==== Sys2Proof/Machine/Program.lean ====
section
/-! DEFINITION. Starting and stopping programs (R188 to R190, R205), the cadence's releases (R163), the window boundary (R160, R167,
R168, R365 to R368) and the apply beats of rime messages (R214). -/

namespace Sys2Proof.Machine

/-! ## Starting (R188, R189) -/

/-- The tiles of a program in force: physical tile and slice. -/
def State.progTiles (s : State) (n : Nat) : List (TileN × Slice) :=
  match (s.prt n).prog with
  | none => []
  | some p =>
    (p.slices.filter (fun l => l.kind = 0 && l.variant = s.getF (F.partProgStatusVariant n))).filterMap (fun l =>
      (s.phys l.num).map (fun t => (Fin.ofNat 96 t, l)))

/-- The loader streams a tile's slice from image window w on into the program buffer and fills the mask file (R189, steps 1 and 2); the
program will begin it as program window v. -/
def State.streamTile (s : State) (n t : Nat) (p : Prog) (l : Slice) (w v : Nat) : State :=
  let o := if w = 0 then 0 else l.wins.getD w 0
  let s := (s.pfStop t 15).modPf t 15 (fun x => { x with flight := [] })
  let s := (s.setF (F.cqCfgDepth t l.cq) (s.progRing t)).cqReset t l.cq
  let s := s.modTile t (fun x => { x with seq := {
    part := n, off := l.wins.getD w 0, progWin := w, win := v - 1, ended := true, masks := l.masks, cq := l.cq, passOff := o } })
  (s.pfPush t 15 (loadDesc p l o)).when p.loopTo.isSome (fun s => s.pfPush t 15 (loadDesc p l (p.loopOff l)))

/-- The streams of every tile of a partition. -/
def State.progStreams (s : State) (n w v : Nat) : State :=
  match (s.prt n).prog with
  | none => s
  | some p => s.each (s.progTiles n) (fun s e => s.streamTile n e.1 p e.2 w v)

/-- Every array that the loaded program names holds a matrix (R188). -/
def State.arraysLoaded (s : State) (n : Nat) : Bool :=
  match (s.prt n).prog with
  | none => false
  | some p => (namedArrays (imgSlices (s.hbmRead p.base p.size) s.winLen)).all (fun e =>
      match s.phys e.1 with | some t => s.flag (F.arrCfgLoaded t e.2.1) | none => false)

/-- The earliest start window: two windows ahead in locked cadence, in free cadence the next one (R189). -/
def State.startEarliest (s : State) : Nat := if s.locked then s.win + 2 else s.win + 1

/-- PROG_START (R189, R423): the loader's steps begin; the reply comes when position 0 issues. -/
def execProgStart (h : CmdHdr) (window : BitVec 64) (s : State) : Host.Outcome State Fault Refusal :=
  .next (
    let n := h.part.val
    let z := if window = 0 ∨ !s.locked then s.startEarliest else window.toNat
    let ok := s.partState n = 1 && s.progState n = 1 && (s.prt n).startWin.isNone && (s.prt n).hold.isNone && s.arraysLoaded n &&
      (!s.locked || s.cad.running)
    s.command h true false (window = 0 || s.startEarliest ≤ window.toNat) ok true 0 (fun s =>
      let s := (s.outstand h 0x0402 0).when (s.pwrMode = 1) (fun s => s.setFlag F.pwrModeChanging true)
      ((s.modPrt n (fun x => { x with startWin := some z })).startImages n).progStreams n 0 (z - s.cad.shift)))

/-- A program buffer holds what a start waits for: the slice's first window, or as much of it as the buffer takes (R189, step 3). -/
def State.firstHeld (s : State) (t : Nat) (l : Slice) : Bool :=
  decide (min (s.progRing t) ((l.wins.getD 1 l.len + 4095) / 4096) ≤ s.getF (F.cqStateReady t l.cq))

/-- The slots that an engine slice issues at a position of an image window (R185). -/
def State.engineSlots (s : State) (p : Prog) (l : Slice) (w pos : Nat) : List Slot :=
  let b := s.hbmRead (p.base + l.off) l.len
  ((scanRecords l.kind s.winLen 0 (b.length + 1) (wordsOfBytes b) 0 {}).issues.filter (fun i => i.win = w && i.pos = pos)).map (·.slot)

/-- The engine slices of a partition's program issue the slots of the beat that is released (R163, R185). -/
def State.engineBeatOf (s : State) (n : Nat) : State :=
  let pos := s.cad.beat.toNat % s.winLen
  match (s.prt n).prog with
  | none => s
  | some p =>
    s.each (p.slices.filter (fun l => l.kind ≠ 0 && l.variant = s.getF (F.partProgStatusVariant n))) (fun s l =>
      s.each (s.engineSlots p l (s.prt n).progWin pos) (fun s x =>
        if l.kind = 1 then s.linkGrant l.num (bitsOf x.w0 15 0) (bitsOf x.w0 23 16) (bitsOf x.w0 27 24)
        else s.hbmGrant l.num (bitsOf x.w0 3 0) (bitsOf x.w0 15 4)))

/-- Those of every running program. -/
def State.engineBeat (s : State) : State := s.each ((List.range 16).filter s.running) (fun s n => s.engineBeatOf n)

/-- The contexts of the partition's reductions for the map in force (R205). -/
def State.startContexts (s : State) (n : Nat) : State :=
  let mine := fun (e : Nat × Word) => regAtIs (fun r => decide (r.kind = RegKind.netRctx)) e.1 && bitsOf e.2 25 22 = n
  ({ s with regs := s.regs.filter (fun e => !mine e) }.redContexts n s.phys R.netRctx)

/-- Every sequencer and engine of the partition starts in window z (R189, step 4). -/
def State.progBegin (s : State) (n z : Nat) : State :=
  let s := s.each (s.progTiles n) (fun s e =>
    let s := (s.setFlag (F.tileStatusSeqRun e.1) true).modTile e.1 (fun x => { x with
      seq := { x.seq with win := z - s.cad.shift - 1, progWin := 0 } })
    (s.setF (F.tileSeqPosPos e.1) 0).setF (F.tileSeqPosWindow e.1) z)
  let s := ((s.modPrt n (fun x => { x with startWin := none, stopWin := none, progWin := 0 })).setF (F.partProgStatusState n) 2).setR
    (R.partProgStart n) (BitVec.ofNat 32 z)
  let s := ((s.startContexts n).irq n 5).completeAll 0x0402 (some n) stOK (z % 2 ^ 32) []
  s.when (s.locked && s.cad.held = 0) (·.engineBeatOf n)

/-- PROGRAM_START (R189): in the start window, once every program buffer holds what it must, the program begins; a start that a RESUME
or a warm reset asks for begins its streams first. -/
def execProgramStart (n : PartN) (s : State) : Host.Outcome State Fault Refusal :=
  .next (
    match (s.prt n).startWin with
    | none => s
    | some z =>
      if s.progState n ≠ 1 then s
      else if !(s.progTiles n).all (fun e => (s.tile e.1).seq.part = n.val) then (s.startImages n).progStreams n 0 (z - s.cad.shift)
      else if s.cad.edge < z || s.cad.held ≠ 0 || (s.locked && !s.cad.running) || !(s.prt n).wgt.loading.isEmpty || !(s.progTiles n).all (fun e => s.firstHeld e.1 e.2) then s
      else s.progBegin n z)

/-! ## Stopping and variants (R175, R190) -/

/-- PROG_STOP (R190): at the end of the current window; the reply comes when the program has stopped. -/
def execProgStop (h : CmdHdr) (s : State) : Host.Outcome State Fault Refusal :=
  .next (
    let n := h.part.val
    s.command h true false true (s.running n) true 0 (fun s => (s.outstand h 0x0403 0).stopAt n s.cad.edge))

/-- PROG_VARIANT (R175): writes VARIANT_NEXT; the reply comes at the boundary. -/
def execProgVariant (h : CmdHdr) (v : Byte) (s : State) : Host.Outcome State Fault Refusal :=
  .next (
    let n := h.part.val
    let ok := match (s.prt n).prog with | some p => v.toNat < p.variants | none => true
    s.command h true false ok (s.running n) true 0 (fun s =>
      (s.outstand h 0x0404 0).setF (F.partProgCtrlVariantNext n) v.toNat))

/-- The program has stopped (R190): prefetcher 15 stops, no beat word issues, and the program stays loaded. -/
def State.progHalt (s : State) (n : Nat) : State :=
  let s := s.each (s.tilesOf n) (fun s t => ((s.pfStop t 15).modTile t (fun x => { x with seq := {} })).setFlag (F.tileStatusSeqRun t) false)
  let s := (s.modPrt n (fun x => { x with stopWin := none, progWin := 0 })).setF (F.partProgStatusState n) 1
  (s.irq n 5).completeAll 0x0403 (some n) stOK 0 []

/-! ## The cadence (R163) -/

/-- The grants of a beat end with it (R185). -/
def State.clearGrants (s : State) : State :=
  let s := s.each (s.ports.map Prod.fst) (fun s p => s.modPort p (fun x => { x with grant := [] }))
  s.each (s.parts.map Prod.fst) (fun s n => s.modPrt n (fun x => { x with hbmGrantW := 0, hbmGrantE := 0 }))

/-- A tile at a release: its lag is counted, and its next beat word may issue. -/
def State.tileRelease (s : State) (t : Nat) : State :=
  let s := (s.countBeat t).deStep t
  if !s.seqRuns t then s
  else
    let l := s.lag t
    let s := (s.modTile t (fun x => { x with seq := { x.seq with paced := false, lagged := x.seq.lagged || decide (0 < l) } })).showLag t
    s.when (0 < l) (fun s => s.count t 0x002 0 none 1)

/-- The window under way has had its boundary, or the next release does not begin another one (R168). -/
def State.beatOpen (s : State) : Bool := s.cad.beat.toNat % s.winLen ≠ 0 || s.win = s.cad.edge

/-- CADENCE_RELEASE (R159, R163, R185, R339): in locked cadence, the next domain beat. -/
def execCadenceRelease (s : State) : Host.Outcome State Fault Refusal :=
  .next (
    if !s.locked || s.pwr.stopped || !s.beatOpen then s
    else
      let s := (s.passTo (s.cad.beat + 1)).clearGrants
      let s := s.each ((List.range 96).filter s.tileOn) (fun s t => s.tileRelease t)
      let s := s.gainBuckets
      (s.when (s.beatOpen && s.cad.held = 0) State.engineBeat).serveFabric)

/-! ## The end of a window (R167, R365 to R368) -/

/-- The tile has reached the end of program window v (R167): position L - 1 has issued, and its actions have completed. -/
def State.reachedEnd (s : State) (t v : Nat) : Bool :=
  let q := (s.tile t).seq
  v ≤ q.win && (q.ended || v < q.win) && s.tileDone t

/-- The tiles that run a program. -/
def State.runTiles (s : State) : List Nat := (List.range 96).filter s.seqRuns

/-- The deadline check of one tile for program window v of domain window w (R167, R365): the lag and the supply's part in it are kept for
the module's LATE. -/
def State.deadline (s : State) (w v t : Nat) : State :=
  if s.reachedEnd t v then s.when (s.tile t).seq.lagged (fun s => s.addF (F.tileSeqStatusAbsorbed t) 1)
  else
    let n := s.ownerOf t
    let s := s.setFlag (F.tileSeqStatusLate t) true
    let s := if s.supplyActive then s.addF F.cadExtSupply 1 else s.addF (F.tileSeqStatusOverruns t) 1
    let old := (s.cad.lateNotes.find? (fun e => e.1 = w)).getD (w, 0, false)
    let s := { s with cad := { s.cad with
      lateNotes := (w, max old.2.1 (s.lag t), old.2.2 || s.supplyActive) :: s.cad.lateNotes.filter (fun e => e.1 ≠ w && w < e.1 + 16) } }
    ((s.logTile t 0x86 0x1101 (detail 0x1101 [w, s.lag t])).faultIrq n).sendRime 0x11 0x72 t n [BitVec.ofNat 32 w]

/-- An extension holds domain window w. -/
def State.holdWindow (s : State) (w : Nat) : Bool :=
  match s.cad.ext with
  | some e => e.x ≤ w && w < e.x + e.e
  | none => false

/-- Window w is the last hold window of its extension. -/
def State.lastHold (s : State) (w : Nat) : Bool := s.holdWindow w && !s.holdWindow (w + 1)

/-- One more on-time window; after 16 the extension episode is over (R368). -/
def State.onTimeWindow (s : State) : State :=
  let k := s.cad.onTime + 1
  { s with cad := { s.cad with onTime := min 16 k, episode := if 16 ≤ k then 0 else s.cad.episode } }

/-- The end of domain window w in locked cadence: the deadline check, except inside an extension, and the run of on-time windows. -/
def State.windowEnd (s : State) (w : Nat) : State :=
  if s.holdWindow w && !s.lastHold w then s
  else
    let v := s.progNow
    let ts := s.runTiles
    let late := ts.any (fun t => !s.reachedEnd t v)
    let s := s.each ts (fun s t => s.deadline w v t)
    match s.cad.ext with
    | some e =>
      if s.lastHold w then
        { s with cad := { s.cad with ext := none, onTime := 0 } }.logEv srcCtl 0x0F09 0xFF (detail 0x0F09 [e.x, e.e])
      else if late then s
      else s.onTimeWindow
    | none => if late then s else s.onTimeWindow

/-- Domain window w begins: in a hold window program windows and awaited starts move by one (R366 to R368). -/
def State.windowStart (s : State) (w : Nat) : State :=
  match s.cad.ext with
  | some e =>
    if s.holdWindow w then
      let s := { s with cad := { s.cad with shift := s.cad.shift + 1, episode := s.cad.episode + 1, held := s.cad.held + 1 } }
      let s := (s.setF F.cadExtActive (e.x + e.e - w)).when (w = e.x) (fun s => s.addF F.cadExtExtensions 1)
      s.each (s.parts.map Prod.fst) (fun s n => s.modPrt n (fun x => { x with
        startWin := x.startWin.map (fun z => if z ≤ w then w + 1 else z) }))
    else { s with cad := { s.cad with held := 0 } }.setF F.cadExtActive 0
  | none => { s with cad := { s.cad with held := 0 } }.setF F.cadExtActive 0

/-! ## What a window boundary does to the units -/

/-- The change of a quantiser count since the last boundary; a count that has been cleared meanwhile starts from 0. -/
def since (new old : Nat) : Nat := if old ≤ new then new - old else new

/-- The layer statistics of slot k of a tile (R88, R124, Table 13.7). -/
def State.layerStats (s : State) (t k : Nat) : State :=
  let u := s.getF (F.vuQeventUnder t k)
  let a := s.getF (F.vuQeventSat t k)
  let old := (Sparse.get (fun _ => (0 : BitVec 32)) (s.tile t).statBase k).toNat
  let dc := min 0xFFFF (Sparse.get (fun _ => 0) (s.tile t).winClamps k)
  let now := u * 2 ^ 16 + a
  if now = old ∧ dc = 0 then s
  else
    let du := since u (old / 2 ^ 16)
    let da := since a (old % 2 ^ 16)
    let s := s.modTile t (fun x => { x with
      statBase := Sparse.set (fun _ => 0) x.statBase k (BitVec.ofNat 32 now)
      winClamps := Sparse.set (fun _ => 0) x.winClamps k 0 })
    if du + da + dc = 0 then s
    else
      (s.logTile t 0x81 0x1501 (k * 2 ^ 48 + du * 2 ^ 32 + da * 2 ^ 16 + dc)).when (dc ≠ 0) (fun s => s.faultIrq (s.ownerOf t))

/-- The temperature comparison of an array at a window end (R115), in quarters of a degree: beyond 8 °C a forced calibration, beyond
12 °C exact recomputation until its swap. An array whose initial calibration runs is not compared. -/
def State.tempCompare (s : State) (t a : Nat) : State :=
  if !s.flag (F.arrStatusCalValid t a) then s
  else
    let d := (((s.temp t : Int) - s.getF (F.arrCalStatusCalTemp t a))).natAbs
    let s := s.when (32 < d) (fun s => s.forceCal t a (d / 4))
    s.when (48 < d) (fun s => s.modArr t a (fun x => { x with exact := true }))

/-- The mode of a tile core from this window on (R149, R180): one that enters free mode starts at its entry. -/
def State.coreMode (s : State) (t c : Nat) : State :=
  let free := (s.getF (F.tileTcModeFree t)).testBit c
  let x := (s.tile t).core c
  if free = x.free then s
  else if free then s.modCore t c (fun x => { x with free := true, run := true, pc := (s.getR (R.tileTcEntry t c)).toNat })
  else s.modCore t c (fun x => { x with free := false, run := false })

/-- A tile at a window boundary: chunks of scheduled data become READY (R138), slots kept for scratch results return (R354), writer
records end (R355), and what is logged once a window may be logged again. -/
def State.tileWindow (s : State) (t : Nat) : State :=
  let s := s.each ((s.tile t).pf.map Prod.fst) (fun s p => s.pfReady t p ((s.tile t).pfSt p).flight.length)
  let s := s.each ((s.tile t).cq.map Prod.fst) (fun s k => s.cqWindow t k)
  let s := s.each (List.range 64) (fun s k => s.layerStats t k)
  let s := s.each (List.range 128) (fun s a => s.tempCompare t a)
  let s := s.each (List.range 4) (fun s c => s.coreMode t c)
  s.modTile t (fun x => { x with writers := [], logged := [] })

/-- Adaptive voltage for a completion margin in 1/100 percent (R160, Table 6.13): not in Idle, and not during a supply warning and its
hold. -/
def State.avsAdjust (s : State) (m : Nat) : State :=
  let s := s.setF F.cadAvsMargin (min 255 (m / 100))
  if s.pwrMode = 1 || s.supplyActive then s
  else
    let target := 100 * max 5 (min 40 (s.getF F.cadAvsTarget))
    let rail := s.getF F.cadAvsRail
    if m < target then { s with cad := { s.cad with above := 0 } }.setRail (min 60 (rail + 2))
    else if target + 300 < m then
      let k := min 8 (s.cad.above + 1)
      { s with cad := { s.cad with above := k } }.setRail (if k = 8 then rail - 1 else rail)
    else { s with cad := { s.cad with above := 0 } }

/-- An armed map comes into force with its staged contexts (R186, R209). -/
def State.mapChange (s : State) : State :=
  if !s.flag F.glbTmapCtrlArm then s
  else
    let isK := fun (k : RegKind) (e : Nat × Word) => regAtIs (fun r => decide (r.kind = k)) e.1
    let next := s.regs.filter (isK .netRctxNext)
    let s := s.each (List.range 96) (fun s k => s.setR (R.glbTmapCur k) (s.getR (R.glbTmapNext k) &&& 0xFF))
    let s := { s with regs := s.regs.filter (fun e => !isK .netRctx e) }
    let s := s.each next (fun s e => match Reg.ofAddr e.1 with
      | some r => s.setR { r with kind := .netRctx } e.2
      | none => s)
    s.setFlag F.glbTmapCtrlArm false

/-- Every tile of the partition's program has reached the end of its window. -/
def State.allEnded (s : State) (n : Nat) : Bool :=
  (s.progTiles n).all (fun e => !s.seqRuns e.1 || (s.tile e.1).seq.ended)

/-- The variant announced for the window after `w` is written to VARIANT_NEXT in `w` (R234). -/
def State.variantDue (s : State) (n w : Nat) : State :=
  match (s.prt n).variantAt with
  | some (z, v) =>
    if z ≤ w + 1 then (s.modPrt n (fun x => { x with variantAt := none })).setF (F.partProgCtrlVariantNext n) v else s
  | none => s

/-- A partition's program at the boundary into window w (R175, R190): it stops, or its next window is in force, and a new variant runs
from it on. In a hold window nothing begins. -/
def State.progWindow (s : State) (n w : Nat) : State :=
  match (s.prt n).prog with
  | none => s
  | some p =>
    let x := s.prt n
    let live := s.running n
    let last := decide (p.windows ≤ x.progWin + 1) && p.loopTo.isNone
    let due := match x.stopWin with | some z => decide (z < w) | none => false
    if live && ((due && (s.allEnded n || x.hold.isSome)) || (last && s.cad.held = 0 && s.allEnded n)) then s.progHalt n
    else if s.cad.held ≠ 0 then s
    else
      let next := if !live then x.progWin else if x.progWin + 1 < p.windows then x.progWin + 1 else p.loopTo.getD x.progWin
      let s := s.modPrt n (fun x => { x with progWin := next })
      let v := s.getF (F.partProgCtrlVariantNext n)
      let s := if v = s.getF (F.partProgStatusVariant n) || p.variants ≤ v || (live && !s.allEnded n) then s
        else
          let s := (s.setF (F.partProgStatusVariant n) v).irq n 5
          s.when (live || x.startWin.isSome) (fun s => s.progStreams n next (match x.startWin with
            | some z => z - s.cad.shift
            | none => s.progNow))
      (s.completeAll 0x0404 (some n) stOK 0 []).variantDue n w

/-- What is counted or logged once a window starts anew. -/
def State.onceAgain (s : State) : State :=
  let s := s.each (s.parts.map Prod.fst) (fun s n => s.modPrt n (fun x => { x with isoLogged := false }))
  let s := s.each (s.ports.map Prod.fst) (fun s p => s.modPort p (fun x => { x with badPartLogged := [] }))
  { s with bridge := { s.bridge with irqLogged := [] }, cad := { s.cad with lateSent := [] } }

/-- HK_OVERRUN of a window in which one of its counts changed (Table 14.5). -/
def State.hkWindow (s : State) : State :=
  let now := [s.getF F.hkStatusMissed, s.getF F.hkStatusFifoLost, s.getF F.hkStatusUrgRefused]
  if now = s.hk.shown then s
  else { s with hk := { s.hk with shown := now } }.logEv srcHk 0x130A 0xFF (detail 0x130A now)

/-- SECURE_WRITE_REFUSED of each secure channel with refusals in the window (Table 16.7). -/
def State.secWindow (s : State) : State :=
  let l := s.sec.refused
  { s with sec := { s.sec with refused := [] } }.each l (fun s e => s.logSec 0x160B (detail 0x160B [e.1, e.2]))

/-- Everything that takes place at the boundary into window w, in either cadence. -/
def State.windowTurn (s : State) (w margin : Nat) : State :=
  let s := s.each ((List.range 96).filter s.tileOn) (fun s t => s.tileWindow t)
  let s := (((s.ctrWindow.fabricWindow).avsAdjust margin).idleExit.mapChange).retireStep
  let s := s.each (List.range 16) (fun s n => s.progWindow n w)
  let s := s.redirectWindow
  let s := s.each ((List.range 16).filter (fun n => s.partState n ≠ 0)) (fun s n =>
    (((s.modPrt n (fun x => { x with usable := true })).qosWindow n).svcWindow n).swapWindow n)
  ((((s.onceAgain.hkWindow).secWindow).warmStep).ejectStep).standbyLoad

/-- WINDOW_BOUNDARY (R158, R168): in locked cadence at the release of a window's first beat; in free cadence once every unit has
reached the end of its window. `margin` is the smallest completion margin measured in the window that ends, in 1/100 percent, negative
ones as 0. -/
def execWindowBoundary (margin : Nat) (s : State) : Host.Outcome State Fault Refusal :=
  .next (
    if s.pwr.stopped then s
    else if s.locked then
      if s.beatOpen then s
      else
        let w := s.win
        let s := (s.windowEnd s.cad.edge).windowStart w
        let s := { s with cad := { s.cad with edge := w } }.windowTurn w margin
        s.when (s.cad.held = 0) State.engineBeat
    else if !s.runTiles.all (fun t => s.reachedEnd t s.progNow) then s
    else
      let w := s.cad.edge + 1
      let s := s.each s.runTiles (fun s t => s.modTile t (fun x => { x with seq := { x.seq with lagged := false } }))
      let s := s.passTo (BitVec.ofNat 64 (w * s.winLen))
      { s with cad := { s.cad with edge := w } }.windowTurn w margin)

/-! ## Apply beats (R214) -/

/-- The effect of a rime message whose apply beat b has come. -/
def State.applyMsg (s : State) (b : Nat) (m : RimeMsg) : State :=
  match m.type with
  | 0x01 => s.ctrEffect 1 b
  | 0x02 => s.ctrEffect 2 b
  | 0x03 => s.ctrEffect 3 b
  | 0x08 => s.partBeginApply m.part
  | 0x09 => s.partEndApply m.part
  | 0x0A => s.tileResetApply m.dest
  | _ => s

/-- APPLY_BEAT (R214): every message whose apply beat has been released takes effect, in order of arrival. -/
def execApplyBeat (s : State) : Host.Outcome State Fault Refusal :=
  .next (
    let due := s.rime.filter (fun e => e.1.toNat ≤ s.cad.beat.toNat)
    let s := { s with rime := s.rime.filter (fun e => s.cad.beat.toNat < e.1.toNat) }
    s.each due (fun s e => s.applyMsg e.1.toNat e.2))

end Sys2Proof.Machine
end

