-- ==== Sys2Proof/Machine/Dispatch.lean ====
section
/-! DEFINITION. The meaning of every command: one arm for each constructor of `Instr`. -/

namespace Sys2Proof.Machine

def exec (i : Instr) (s : State) : Host.Outcome State Fault Refusal :=
  match i with
  | .powerOn => Sys2Proof.Machine.execPowerOn s
  | .presenceMade => Sys2Proof.Machine.execPresenceMade s
  | .presenceBreak => Sys2Proof.Machine.execPresenceBreak s
  | .resetN => Sys2Proof.Machine.execResetN s
  | .wakeN => Sys2Proof.Machine.execWakeN s
  | .inputLoss code => Sys2Proof.Machine.execInputLoss code s
  | .inputRecovery => Sys2Proof.Machine.execInputRecovery s
  | .supplyWarning rail mv => Sys2Proof.Machine.execSupplyWarning rail mv s
  | .supplyWarningRelease minCore minArr minSram => Sys2Proof.Machine.execSupplyWarningRelease minCore minArr minSram s
  | .supplyHoldEnd => Sys2Proof.Machine.execSupplyHoldEnd s
  | .supplyReset rail minMv timeUs => Sys2Proof.Machine.execSupplyReset rail minMv timeUs s
  | .supplyResetRecovery => Sys2Proof.Machine.execSupplyResetRecovery s
  | .sensorSample k reading timeUs => Sys2Proof.Machine.execSensorSample k reading timeUs s
  | .reqKeepalive => Sys2Proof.Machine.execReqKeepalive s
  | .pwrDomReqWrite k req core => Sys2Proof.Machine.execPwrDomReqWrite k req core s
  | .domainSwitchDone k => Sys2Proof.Machine.execDomainSwitchDone k s
  | .hkTimerExpiry => Sys2Proof.Machine.execHkTimerExpiry s
  | .pwmEvent k => Sys2Proof.Machine.execPwmEvent k s
  | .pwmDelayExpiry k => Sys2Proof.Machine.execPwmDelayExpiry k s
  | .hkConversionDone code => Sys2Proof.Machine.execHkConversionDone code s
  | .hkUrgentWrite ch => Sys2Proof.Machine.execHkUrgentWrite ch s
  | .hkFifoRead => Sys2Proof.Machine.execHkFifoRead s
  | .hkCmpWrite c cfg w => Sys2Proof.Machine.execHkCmpWrite c cfg w s
  | .thmCfgWrite w => Sys2Proof.Machine.execThmCfgWrite w s
  | .supCfgWrite w => Sys2Proof.Machine.execSupCfgWrite w s
  | .pwrInstallSave => Sys2Proof.Machine.execPwrInstallSave s
  | .cadenceRelease => Sys2Proof.Machine.execCadenceRelease s
  | .beatWordIssue t => Sys2Proof.Machine.execBeatWordIssue t s
  | .windowBoundary margin => Sys2Proof.Machine.execWindowBoundary margin s
  | .stretchChange => Sys2Proof.Machine.execStretchChange s
  | .glbTmapCtrlArm w => Sys2Proof.Machine.execGlbTmapCtrlArm w s
  | .tileTcEntryWrite t k w => Sys2Proof.Machine.execTileTcEntryWrite t k w s
  | .programStart n => Sys2Proof.Machine.execProgramStart n s
  | .mul t mask lslot acc net => Sys2Proof.Machine.execMul t mask lslot acc net s
  | .conversionEnd t a => Sys2Proof.Machine.execConversionEnd t a s
  | .segmentClose t a => Sys2Proof.Machine.execSegmentClose t a s
  | .scaleLineRestored t a => Sys2Proof.Machine.execScaleLineRestored t a s
  | .arbitrationDone t a => Sys2Proof.Machine.execArbitrationDone t a s
  | .spareLive t a k => Sys2Proof.Machine.execSpareLive t a k s
  | .spareAssign t a k w => Sys2Proof.Machine.execSpareAssign t a k w s
  | .spareRelease t a k => Sys2Proof.Machine.execSpareRelease t a k s
  | .rowPortAccess t a => Sys2Proof.Machine.execRowPortAccess t a s
  | .arrPortReadRow t a row => Sys2Proof.Machine.execArrPortReadRow t a row s
  | .arrPortWriteRow t a row => Sys2Proof.Machine.execArrPortWriteRow t a row s
  | .arrPortReadScaleLine t a line => Sys2Proof.Machine.execArrPortReadScaleLine t a line s
  | .arrPortWriteScaleLine t a line => Sys2Proof.Machine.execArrPortWriteScaleLine t a line s
  | .arrCfgWrite t a w => Sys2Proof.Machine.execArrCfgWrite t a w s
  | .scrubRead t a => Sys2Proof.Machine.execScrubRead t a s
  | .suspectRowRewritten t a row => Sys2Proof.Machine.execSuspectRowRewritten t a row s
  | .cal t mask => Sys2Proof.Machine.execCal t mask s
  | .calIntervalEnd t a => Sys2Proof.Machine.execCalIntervalEnd t a s
  | .forcedCalSetInsert t a => Sys2Proof.Machine.execForcedCalSetInsert t a s
  | .initialCalibrationDone t a => Sys2Proof.Machine.execInitialCalibrationDone t a s
  | .canaryInterval t a => Sys2Proof.Machine.execCanaryInterval t a s
  | .canaryMultiply t a => Sys2Proof.Machine.execCanaryMultiply t a s
  | .tileStoreWordRestored t word => Sys2Proof.Machine.execTileStoreWordRestored t word s
  | .tileStoreScrub t => Sys2Proof.Machine.execTileStoreScrub t s
  | .tileRegionWrite t w => Sys2Proof.Machine.execTileRegionWrite t w s
  | .pageCacheFill t line => Sys2Proof.Machine.execPageCacheFill t line s
  | .pfCtrlPush t p => Sys2Proof.Machine.execPfCtrlPush t p s
  | .pfCtrlStop t p => Sys2Proof.Machine.execPfCtrlStop t p s
  | .descriptorStart t p => Sys2Proof.Machine.execDescriptorStart t p s
  | .chunkIssue t p => Sys2Proof.Machine.execChunkIssue t p s
  | .chunkLand t p num ok => Sys2Proof.Machine.execChunkLand t p num ok s
  | .cqCfgWrite t k w => Sys2Proof.Machine.execCqCfgWrite t k w s
  | .deLoadw t cls buf line => Sys2Proof.Machine.execDeLoadw t cls buf line s
  | .deRun t cls buf lslot vbase nruns cq chk => Sys2Proof.Machine.execDeRun t cls buf lslot vbase nruns cq chk s
  | .deDrain t cls vbase nvec line => Sys2Proof.Machine.execDeDrain t cls vbase nvec line s
  | .deClear t cls vbase => Sys2Proof.Machine.execDeClear t cls vbase s
  | .vuFma t o => Sys2Proof.Machine.execVuFma t o s
  | .vuAdd t o => Sys2Proof.Machine.execVuAdd t o s
  | .vuMul t o => Sys2Proof.Machine.execVuMul t o s
  | .vuMin t o => Sys2Proof.Machine.execVuMin t o s
  | .vuMax t o => Sys2Proof.Machine.execVuMax t o s
  | .vuSub t o => Sys2Proof.Machine.execVuSub t o s
  | .vuIadd t o => Sys2Proof.Machine.execVuIadd t o s
  | .vuIsub t o => Sys2Proof.Machine.execVuIsub t o s
  | .vuAnd t o => Sys2Proof.Machine.execVuAnd t o s
  | .vuOr t o => Sys2Proof.Machine.execVuOr t o s
  | .vuXor t o => Sys2Proof.Machine.execVuXor t o s
  | .vuShl t o => Sys2Proof.Machine.execVuShl t o s
  | .vuShr t o => Sys2Proof.Machine.execVuShr t o s
  | .vuSra t o => Sys2Proof.Machine.execVuSra t o s
  | .vuCmplt t o => Sys2Proof.Machine.execVuCmplt t o s
  | .vuCmpeq t o => Sys2Proof.Machine.execVuCmpeq t o s
  | .vuSel t o => Sys2Proof.Machine.execVuSel t o s
  | .vuImul t o => Sys2Proof.Machine.execVuImul t o s
  | .vuCvt16 t o => Sys2Proof.Machine.execVuCvt16 t o s
  | .vuCvt32 t o => Sys2Proof.Machine.execVuCvt32 t o s
  | .vuCvti2f t o => Sys2Proof.Machine.execVuCvti2f t o s
  | .vuCvtf2i t o => Sys2Proof.Machine.execVuCvtf2i t o s
  | .qa4 t o q => Sys2Proof.Machine.execQa4 t o q s
  | .qa8 t o lslot off => Sys2Proof.Machine.execQa8 t o lslot off s
  | .vuExp2 t o => Sys2Proof.Machine.execVuExp2 t o s
  | .vuLog2 t o => Sys2Proof.Machine.execVuLog2 t o s
  | .vuRecip t o => Sys2Proof.Machine.execVuRecip t o s
  | .vuRsqrt t o => Sys2Proof.Machine.execVuRsqrt t o s
  | .vuSqrt t o => Sys2Proof.Machine.execVuSqrt t o s
  | .vuSin t o => Sys2Proof.Machine.execVuSin t o s
  | .vuCos t o => Sys2Proof.Machine.execVuCos t o s
  | .vuTanh t o => Sys2Proof.Machine.execVuTanh t o s
  | .vuRsum t o => Sys2Proof.Machine.execVuRsum t o s
  | .vuRmax t o => Sys2Proof.Machine.execVuRmax t o s
  | .vuRmin t o => Sys2Proof.Machine.execVuRmin t o s
  | .vuPsum t o => Sys2Proof.Machine.execVuPsum t o s
  | .vuPerm t o => Sys2Proof.Machine.execVuPerm t o s
  | .vuSort t o => Sys2Proof.Machine.execVuSort t o s
  | .vuRand t o => Sys2Proof.Machine.execVuRand t o s
  | .vuLd t o off => Sys2Proof.Machine.execVuLd t o off s
  | .vuSt t o off => Sys2Proof.Machine.execVuSt t o off s
  | .vuLdb t o off => Sys2Proof.Machine.execVuLdb t o off s
  | .tcNop r => Sys2Proof.Machine.execTcNop r s
  | .tcAdd r => Sys2Proof.Machine.execTcAdd r s
  | .tcSub r => Sys2Proof.Machine.execTcSub r s
  | .tcAnd r => Sys2Proof.Machine.execTcAnd r s
  | .tcOr r => Sys2Proof.Machine.execTcOr r s
  | .tcXor r => Sys2Proof.Machine.execTcXor r s
  | .tcShl r => Sys2Proof.Machine.execTcShl r s
  | .tcShr r => Sys2Proof.Machine.execTcShr r s
  | .tcSra r => Sys2Proof.Machine.execTcSra r s
  | .tcSlt r => Sys2Proof.Machine.execTcSlt r s
  | .tcSltu r => Sys2Proof.Machine.execTcSltu r s
  | .tcMul r => Sys2Proof.Machine.execTcMul r s
  | .tcMulh r => Sys2Proof.Machine.execTcMulh r s
  | .tcAddi r => Sys2Proof.Machine.execTcAddi r s
  | .tcAndi r => Sys2Proof.Machine.execTcAndi r s
  | .tcOri r => Sys2Proof.Machine.execTcOri r s
  | .tcLui r => Sys2Proof.Machine.execTcLui r s
  | .tcLd r => Sys2Proof.Machine.execTcLd r s
  | .tcSt r => Sys2Proof.Machine.execTcSt r s
  | .tcRdr r => Sys2Proof.Machine.execTcRdr r s
  | .tcWrr r => Sys2Proof.Machine.execTcWrr r s
  | .synop r => Sys2Proof.Machine.execSynop r s
  | .pfpush r => Sys2Proof.Machine.execPfpush r s
  | .tcBeq r => Sys2Proof.Machine.execTcBeq r s
  | .tcBne r => Sys2Proof.Machine.execTcBne r s
  | .tcBlt r => Sys2Proof.Machine.execTcBlt r s
  | .tcBge r => Sys2Proof.Machine.execTcBge r s
  | .tcJal r => Sys2Proof.Machine.execTcJal r s
  | .tcJr r => Sys2Proof.Machine.execTcJr r s
  | .tcHalt r => Sys2Proof.Machine.execTcHalt r s
  | .tcRefusedOp t c => Sys2Proof.Machine.execTcRefusedOp t c s
  | .aopnd t src mask => Sys2Proof.Machine.execAopnd t src mask s
  | .ares t a line => Sys2Proof.Machine.execAres t a line s
  | .xfer t src lines dst => Sys2Proof.Machine.execXfer t src lines dst s
  | .hst t src lines off => Sys2Proof.Machine.execHst t src lines off s
  | .pfq t line p => Sys2Proof.Machine.execPfq t line p s
  | .rsend t a => Sys2Proof.Machine.execRsend t a s
  | .rsendi t a => Sys2Proof.Machine.execRsendi t a s
  | .lsend t src lines p stream => Sys2Proof.Machine.execLsend t src lines p stream s
  | .lsendc t src lines p stream => Sys2Proof.Machine.execLsendc t src lines p stream s
  | .signal t obj value => Sys2Proof.Machine.execSignal t obj value s
  | .wait t obj value => Sys2Proof.Machine.execWait t obj value s
  | .arrive t obj value => Sys2Proof.Machine.execArrive t obj value s
  | .bwait t obj value => Sys2Proof.Machine.execBwait t obj value s
  | .eset t obj value => Sys2Proof.Machine.execEset t obj value s
  | .eclr t obj value => Sys2Proof.Machine.execEclr t obj value s
  | .ewait t obj value => Sys2Proof.Machine.execEwait t obj value s
  | .cnry t mask => Sys2Proof.Machine.execCnry t mask s
  | .cmpw t off => Sys2Proof.Machine.execCmpw t off s
  | .cqchk t cq expect => Sys2Proof.Machine.execCqchk t cq expect s
  | .chkMark t code => Sys2Proof.Machine.execChkMark t code s
  | .linkEngineGrant p stream flits n => Sys2Proof.Machine.execLinkEngineGrant p stream flits n s
  | .hbmEngineGrant c n bursts => Sys2Proof.Machine.execHbmEngineGrant c n bursts s
  | .flitReceive node dir f ok => Sys2Proof.Machine.execFlitReceive node dir f ok s
  | .reductionAdd t rid chk => Sys2Proof.Machine.execReductionAdd t rid chk s
  | .reductionLanding t rid => Sys2Proof.Machine.execReductionLanding t rid s
  | .applyBeat => Sys2Proof.Machine.execApplyBeat s
  | .freeze b => Sys2Proof.Machine.execFreeze b s
  | .snapshot b => Sys2Proof.Machine.execSnapshot b s
  | .unfreeze b => Sys2Proof.Machine.execUnfreeze b s
  | .partBegin n b => Sys2Proof.Machine.execPartBegin n b s
  | .partEnd n b => Sys2Proof.Machine.execPartEnd n b s
  | .tileReset t b => Sys2Proof.Machine.execTileReset t b s
  | .fault src n code detail => Sys2Proof.Machine.execFault src n code detail s
  | .late t window => Sys2Proof.Machine.execLate t window s
  | .cadence beat pct => Sys2Proof.Machine.execCadence beat pct s
  | .stretch pct => Sys2Proof.Machine.execStretch pct s
  | .sync src n op obj value => Sys2Proof.Machine.execSync src n op obj value s
  | .syncAck t obj => Sys2Proof.Machine.execSyncAck t obj s
  | .event src n code => Sys2Proof.Machine.execEvent src n code s
  | .rimeUnknownType src type => Sys2Proof.Machine.execRimeUnknownType src type s
  | .linkFlitReceive p f fec => Sys2Proof.Machine.execLinkFlitReceive p f fec s
  | .linkFlitSend p => Sys2Proof.Machine.execLinkFlitSend p s
  | .init p slot pools n l256 => Sys2Proof.Machine.execInit p slot pools n l256 s
  | .replay p seq => Sys2Proof.Machine.execReplay p seq s
  | .replayRepeatTimer p => Sys2Proof.Machine.execReplayRepeatTimer p s
  | .echo p count resPs => Sys2Proof.Machine.execEcho p count resPs s
  | .echoReply p count resPs arrival => Sys2Proof.Machine.execEchoReply p count resPs arrival s
  | .lanes p mask => Sys2Proof.Machine.execLanes p mask s
  | .lanesAck p mask => Sys2Proof.Machine.execLanesAck p mask s
  | .linkDrain p => Sys2Proof.Machine.execLinkDrain p s
  | .laneFail p lanes => Sys2Proof.Machine.execLaneFail p lanes s
  | .lastLaneRetrainTimeout p => Sys2Proof.Machine.execLastLaneRetrainTimeout p s
  | .portReset p => Sys2Proof.Machine.execPortReset p s
  | .drainWaitEnd p => Sys2Proof.Machine.execDrainWaitEnd p s
  | .markSend => Sys2Proof.Machine.execMarkSend s
  | .markReceive m arrivalPs => Sys2Proof.Machine.execMarkReceive m arrivalPs s
  | .markLoss => Sys2Proof.Machine.execMarkLoss s
  | .reqReceive slot pct beat => Sys2Proof.Machine.execReqReceive slot pct beat s
  | .cadenceLate slot window lag supply => Sys2Proof.Machine.execCadenceLate slot window lag supply s
  | .masterTakeover => Sys2Proof.Machine.execMasterTakeover s
  | .silentSlot slot => Sys2Proof.Machine.execSilentSlot slot s
  | .domainJoinTimeout slot => Sys2Proof.Machine.execDomainJoinTimeout slot s
  | .topoInfoTimeout => Sys2Proof.Machine.execTopoInfoTimeout s
  | .syncRemote slot n obj op value => Sys2Proof.Machine.execSyncRemote slot n obj op value s
  | .mbxMsg slot c data => Sys2Proof.Machine.execMbxMsg slot c data s
  | .mbxDone slot c => Sys2Proof.Machine.execMbxDone slot c s
  | .irqRaise slot tenant n v classes => Sys2Proof.Machine.execIrqRaise slot tenant n v classes s
  | .topoQuery slot epoch off max => Sys2Proof.Machine.execTopoQuery slot epoch off max s
  | .topoInfo epoch total off data => Sys2Proof.Machine.execTopoInfo epoch total off data s
  | .echoE2e slot count resPs => Sys2Proof.Machine.execEchoE2e slot count resPs s
  | .echoE2eReply slot count resPs arrival => Sys2Proof.Machine.execEchoE2eReply slot count resPs arrival s
  | .join slot epoch aligned mismatch => Sys2Proof.Machine.execJoin slot epoch aligned mismatch s
  | .domainRun beat leftOut => Sys2Proof.Machine.execDomainRun beat leftOut s
  | .laneReport slot p mask beat => Sys2Proof.Machine.execLaneReport slot p mask beat s
  | .variant n v window => Sys2Proof.Machine.execVariant n v window s
  | .shardSeg n shard off epoch data => Sys2Proof.Machine.execShardSeg n shard off epoch data s
  | .shardReq slot n shard off len epoch => Sys2Proof.Machine.execShardReq slot n shard off len epoch s
  | .loadDeadline n => Sys2Proof.Machine.execLoadDeadline n s
  | .swapCtrlQuery slot n epoch => Sys2Proof.Machine.execSwapCtrlQuery slot n epoch s
  | .swapCtrlStaged slot n epoch => Sys2Proof.Machine.execSwapCtrlStaged slot n epoch s
  | .swapCtrlStageFailed slot n epoch status detail => Sys2Proof.Machine.execSwapCtrlStageFailed slot n epoch status detail s
  | .swapCtrlLayersDone slot n epoch => Sys2Proof.Machine.execSwapCtrlLayersDone slot n epoch s
  | .swapCtrlCommit n epoch => Sys2Proof.Machine.execSwapCtrlCommit n epoch s
  | .swapCtrlRollback slot n epoch => Sys2Proof.Machine.execSwapCtrlRollback slot n epoch s
  | .swapCtrlRolledBack slot n epoch => Sys2Proof.Machine.execSwapCtrlRolledBack slot n epoch s
  | .swapFront slot n layer window epoch => Sys2Proof.Machine.execSwapFront slot n layer window epoch s
  | .layerDrained n layer => Sys2Proof.Machine.execLayerDrained n layer s
  | .layerRewriteDone n layer => Sys2Proof.Machine.execLayerRewriteDone n layer s
  | .swapLimitExpiry n => Sys2Proof.Machine.execSwapLimitExpiry n s
  | .loaderRowWrite n place line attempt readback => Sys2Proof.Machine.execLoaderRowWrite n place line attempt readback s
  | .firnImageWriteDone n => Sys2Proof.Machine.execFirnImageWriteDone n s
  | .arrayVerified t a => Sys2Proof.Machine.execArrayVerified t a s
  | .logBatch slot entries => Sys2Proof.Machine.execLogBatch slot entries s
  | .ctrApply kind b => Sys2Proof.Machine.execCtrApply kind b s
  | .hold n cause y from_ to_ => Sys2Proof.Machine.execHold n cause y from_ to_ s
  | .failed slot cause beat => Sys2Proof.Machine.execFailed slot cause beat s
  | .resume n z => Sys2Proof.Machine.execResume n z s
  | .mirrorRec slot kind n window off data => Sys2Proof.Machine.execMirrorRec slot kind n window off data s
  | .managementUnknownSubtype slot subtype => Sys2Proof.Machine.execManagementUnknownSubtype slot subtype s
  | .functionLevelReset f => Sys2Proof.Machine.execFunctionLevelReset f s
  | .pcieLinkDown => Sys2Proof.Machine.execPcieLinkDown s
  | .msixUnmask f v => Sys2Proof.Machine.execMsixUnmask f v s
  | .commandFetch f entry => Sys2Proof.Machine.execCommandFetch f entry s
  | .relayReply rtag status source detail payload => Sys2Proof.Machine.execRelayReply rtag status source detail payload s
  | .streamRecordWrite n svc read timeUs => Sys2Proof.Machine.execStreamRecordWrite n svc read timeUs s
  | .commandBadOpcode h opcode => Sys2Proof.Machine.execCommandBadOpcode h opcode s
  | .ping h => Sys2Proof.Machine.execPing h s
  | .query h item => Sys2Proof.Machine.execQuery h item s
  | .regRead h addr count => Sys2Proof.Machine.execRegRead h addr count s
  | .regWrite h addr count words => Sys2Proof.Machine.execRegWrite h addr count words s
  | .syncOp h obj op value => Sys2Proof.Machine.execSyncOp h obj op value s
  | .partCreate h desc => Sys2Proof.Machine.execPartCreate h desc s
  | .partDestroy h => Sys2Proof.Machine.execPartDestroy h s
  | .partDestroyZeroDone n => Sys2Proof.Machine.execPartDestroyZeroDone n s
  | .partReset h => Sys2Proof.Machine.execPartReset h s
  | .partResetZeroDone n => Sys2Proof.Machine.execPartResetZeroDone n s
  | .partQos h ovr => Sys2Proof.Machine.execPartQos h ovr s
  | .partIrq h vector count timeUs => Sys2Proof.Machine.execPartIrq h vector count timeUs s
  | .irqCoalesceTimeout n v => Sys2Proof.Machine.execIrqCoalesceTimeout n v s
  | .topoGet h => Sys2Proof.Machine.execTopoGet h s
  | .topoPut h off total data => Sys2Proof.Machine.execTopoPut h off total data s
  | .domainJoin h => Sys2Proof.Machine.execDomainJoin h s
  | .domainLeave h => Sys2Proof.Machine.execDomainLeave h s
  | .manifestPut h off total data => Sys2Proof.Machine.execManifestPut h off total data s
  | .stage h deadlineMs => Sys2Proof.Machine.execStage h deadlineMs s
  | .shardPut h shard off data => Sys2Proof.Machine.execShardPut h shard off data s
  | .swap h limitMs => Sys2Proof.Machine.execSwap h limitMs s
  | .progPut h off data => Sys2Proof.Machine.execProgPut h off data s
  | .progLoad h off => Sys2Proof.Machine.execProgLoad h off s
  | .progStart h window => Sys2Proof.Machine.execProgStart h window s
  | .progStop h => Sys2Proof.Machine.execProgStop h s
  | .progVariant h v => Sys2Proof.Machine.execProgVariant h v s
  | .svcOpen h desc => Sys2Proof.Machine.execSvcOpen h desc s
  | .svcClose h svc => Sys2Proof.Machine.execSvcClose h svc s
  | .reqSubmit h desc prompt timeUs => Sys2Proof.Machine.execReqSubmit h desc prompt timeUs s
  | .reqCancel h reqTag => Sys2Proof.Machine.execReqCancel h reqTag s
  | .streamCfg h svc addr size => Sys2Proof.Machine.execStreamCfg h svc addr size s
  | .logRead h fromBeat max => Sys2Proof.Machine.execLogRead h fromBeat max s
  | .moulinCfg h desc => Sys2Proof.Machine.execMoulinCfg h desc s
  | .ctrCfg h tile counter event => Sys2Proof.Machine.execCtrCfg h tile counter event s
  | .ctrSnap h scope kind => Sys2Proof.Machine.execCtrSnap h scope kind s
  | .nvRead h index count => Sys2Proof.Machine.execNvRead h index count s
  | .fwPut h off total data => Sys2Proof.Machine.execFwPut h off total data s
  | .fwActivate h => Sys2Proof.Machine.execFwActivate h s
  | .fwHandover => Sys2Proof.Machine.execFwHandover s
  | .fwActivationTimeout => Sys2Proof.Machine.execFwActivationTimeout s
  | .fuseBlow => Sys2Proof.Machine.execFuseBlow s
  | .attest h nonce => Sys2Proof.Machine.execAttest h nonce s
  | .certGet h => Sys2Proof.Machine.execCertGet h s
  | .debugOpen h token timeUs => Sys2Proof.Machine.execDebugOpen h token timeUs s
  | .debugEraseDone timeUs => Sys2Proof.Machine.execDebugEraseDone timeUs s
  | .debugLockoutEnd => Sys2Proof.Machine.execDebugLockoutEnd s
  | .pwrStateRun h => Sys2Proof.Machine.execPwrStateRun h s
  | .pwrStateIdle h => Sys2Proof.Machine.execPwrStateIdle h s
  | .idleEntry => Sys2Proof.Machine.execIdleEntry s
  | .pwrStateRetain h => Sys2Proof.Machine.execPwrStateRetain h s
  | .pwrStateDeep h => Sys2Proof.Machine.execPwrStateDeep h s
  | .pwrWakeGo => Sys2Proof.Machine.execPwrWakeGo s
  | .tileRetire h tile => Sys2Proof.Machine.execTileRetire h tile s
  | .retirementLoadDone n t newT => Sys2Proof.Machine.execRetirementLoadDone n t newT s
  | .standbyReady slot n => Sys2Proof.Machine.execStandbyReady slot n s
  | .ejectPrep h standbyFree => Sys2Proof.Machine.execEjectPrep h standbyFree s
  | .logDrainDone => Sys2Proof.Machine.execLogDrainDone s
  | .resetWarm h => Sys2Proof.Machine.execResetWarm h s
  | .resetModule h => Sys2Proof.Machine.execResetModule h s
  | .thermalClear h => Sys2Proof.Machine.execThermalClear h s
  | .sendCtrlGo c host secure => Sys2Proof.Machine.execSendCtrlGo c host secure s
  | .recvCtrlDone c host secure => Sys2Proof.Machine.execRecvCtrlDone c host secure s
  | .syncObjWrite k w => Sys2Proof.Machine.execSyncObjWrite k w s
  | .kvAlloc slot n tag count => Sys2Proof.Machine.execKvAlloc slot n tag count s
  | .kvFree slot n tag page => Sys2Proof.Machine.execKvFree slot n tag page s
  | .kvRead slot n tag page off len => Sys2Proof.Machine.execKvRead slot n tag page off len s
  | .kvWrite slot n tag page off data => Sys2Proof.Machine.execKvWrite slot n tag page off data s
  | .kvPageReply slot n tag status pages data => Sys2Proof.Machine.execKvPageReply slot n tag status pages data s
  | .hbmBurst n addr write b => Sys2Proof.Machine.execHbmBurst n addr write b s
  | .hbmLineRestored line data => Sys2Proof.Machine.execHbmLineRestored line data s
  | .logReport e => Sys2Proof.Machine.execLogReport e s
  | .logWrite => Sys2Proof.Machine.execLogWrite s
  | .moulinBatch hostPath => Sys2Proof.Machine.execMoulinBatch hostPath s
  | .spillDrain => Sys2Proof.Machine.execSpillDrain s
  | .tenantKey c payload => Sys2Proof.Machine.execTenantKey c payload s
  | .manifestKeyAdd c payload => Sys2Proof.Machine.execManifestKeyAdd c payload s
  | .manifestKeyRemove c payload => Sys2Proof.Machine.execManifestKeyRemove c payload s
  | .operatorKeySet c payload => Sys2Proof.Machine.execOperatorKeySet c payload s
  | .operatorKeyRevoke c payload => Sys2Proof.Machine.execOperatorKeyRevoke c payload s
  | .secSessCtrlGo => Sys2Proof.Machine.execSecSessCtrlGo s
  | .secSessCtrlEnd => Sys2Proof.Machine.execSecSessCtrlEnd s
  | .counterLoRead addr => Sys2Proof.Machine.execCounterLoRead addr s
  | .cadBeatLoRead => Sys2Proof.Machine.execCadBeatLoRead s
  | .partWgtEpochLoRead n => Sys2Proof.Machine.execPartWgtEpochLoRead n s
  | .tileSeqLagRead t => Sys2Proof.Machine.execTileSeqLagRead t s
  | .cadAlignRead => Sys2Proof.Machine.execCadAlignRead s
  | .smbusRegisterRead addr pec => Sys2Proof.Machine.execSmbusRegisterRead addr pec s
  | .smbusRegisterWrite addr data pec => Sys2Proof.Machine.execSmbusRegisterWrite addr data pec s
  | .smbusFirmwareChunk off data pec => Sys2Proof.Machine.execSmbusFirmwareChunk off data pec s
  | .smbusBlockRead => Sys2Proof.Machine.execSmbusBlockRead s
  | .registerWrite by_ addr w => Sys2Proof.Machine.execRegisterWrite by_ addr w s
  | .wrrow t a first count off => Sys2Proof.Machine.execWrrow t a first count off s
  | .wrscale t a first count off => Sys2Proof.Machine.execWrscale t a first count off s
  | .rdrow t a first count off => Sys2Proof.Machine.execRdrow t a first count off s
  | .resetNRelease => Sys2Proof.Machine.execResetNRelease s
  | .fwIntakeResumed => Sys2Proof.Machine.execFwIntakeResumed s
  | .linkTrainingDone p lanes => Sys2Proof.Machine.execLinkTrainingDone p lanes s
  | .holdUpExhausted => Sys2Proof.Machine.execHoldUpExhausted s
  | .presenceContactEdge b made => Sys2Proof.Machine.execPresenceContactEdge b made s
  | .setPointHoldEnd => Sys2Proof.Machine.execSetPointHoldEnd s

end Sys2Proof.Machine
end

