-- ==== Sys2Proof/Safety.lean ====
section
/-! DEFINITION. The words in which claims are stated: what a command answers, what it leaves alone, and the canonical form of the
module's tables. -/

namespace Sys2Proof.Machine

/-- The command answers a next state of which P holds. -/
def State.gives (s : State) (c : Instr) (P : State → Prop) : Prop := ∃ u, exec c s = .next u ∧ P u

/-- Every register but those at the addresses of l holds in u what it holds in s. -/
def State.regsKept (s u : State) (l : List Nat) : Prop :=
  ∀ a, a ∉ l → Sparse.get regDefault u.regs a = Sparse.get regDefault s.regs a

/-- Every array but the k-th (array a of tile t is 128 t + a) of l is in u what it is in s. -/
def State.arraysKept (s u : State) (l : List Nat) : Prop :=
  ∀ k, k ∉ l → Sparse.get (fun _ => ({} : ArrSt)) u.arrays k = Sparse.get (fun _ => ({} : ArrSt)) s.arrays k

/-- Every tile but t is in u what it is in s. -/
def State.tilesKept (s u : State) (t : Nat) : Prop := ∀ k, k ≠ t → u.tile k = s.tile k

/-- Every port but p is in u what it is in s. -/
def State.portsKept (s u : State) (p : Nat) : Prop := ∀ k, k ≠ p → u.port k = s.port k

/-- Every partition but n is in u what it is in s. -/
def State.partsKept (s u : State) (n : Nat) : Prop := ∀ k, k ≠ n → u.prt k = s.prt k

/-- u differs from s at most in registers, counters, arrays, tiles, the log and the count of free values taken: everything that
stands outside the tiles is kept, HBM4, the links, the partitions and what the module has sent among it. -/
def State.inTiles (s u : State) : Prop :=
  u = { s with regs := u.regs, ctr := u.ctr, arrays := u.arrays, tiles := u.tiles, log := u.log, free := u.free }

/-- Tile t differs at most in its vector registers and in what it counts of its actions and logs. -/
def State.inLanes (s u : State) (t : Nat) : Prop :=
  s.tilesKept u t ∧ u.arrays = s.arrays ∧ s.inTiles u ∧
  ∃ v w q a b c d l,
    u.tile t = { s.tile t with vregs := v, vpar := w, seq := q, sched := a, wasted := b, front := c, back := d, logged := l }

/-- An action of the vector unit that answers a next state in which the active lanes of its destination hold f, each lane pair with an
active lane its parity (R146); every other lane of every vector register, the store, and everything else outside the tile's counts is as it was. Registers may change only in the counter
overflow bits, the replay count of the VU and the count of lost log entries. -/
def State.lanesGive (s : State) (c : Instr) (t : TileN) (o : VuArgs) (f : Nat → Word) : Prop :=
  s.gives c (fun u =>
    (∀ r : Fin 32, ∀ l < 1024, (u.tile t).lane r l = if r = o.vd ∧ l ≤ o.lanes.val then f l else (s.tile t).lane r l) ∧
    (∀ p, 2 * p ≤ o.lanes.val → Sparse.get (fun _ => false) (u.tile t).vpar (512 * o.vd + p) = (u.tile t).pairPar o.vd p) ∧
    s.regsKept u [(R.ctrTileStatus t).addr, (R.vuChkCnt t).addr, R.logLost.addr] ∧ s.inLanes u t)

/-- The tile's vector unit runs and its checks let the operation's results stand (R150, R357). -/
abbrev State.vuRuns (s : State) (t : TileN) (o : VuArgs) : Prop := s.tileRuns t = true ∧ (o.chk = .pass ∨ o.chk = .replayPassed)
/-- The instruction runs on its core: its tile's units run, its checks let the result stand, and a core in free mode has been started
and has the instruction, sound, at its program counter in the program buffer (R149). -/
abbrev State.tcRuns (s : State) (r : TcArgs) (op : Nat) : Prop :=
  s.tileRuns r.t = true ∧ (r.chk = .pass ∨ r.chk = .replayPassed) ∧
  ((s.tcore r).free = true → (s.tcore r).run = true ∧ (s.tcore r).pc + 4 ≤ s.pbEnd r.t ∧
    (s.tile r.t).sound (s.tcore r).pc 4 = true ∧ s.tcNext r op = true)

/-- The program counter after an instruction that does not jump: a slotted core has none to move. -/
def State.pcAfter (s : State) (r : TcArgs) : Nat :=
  if (s.tcore r).free then ((s.tcore r).pc + 4) % 2 ^ 32 else (s.tcore r).pc

/-- Tile t differs at most in core c and in what it counts of its actions and logs; no register changes but the counter overflow bits
and the count of lost log entries. -/
def State.inCore (s u : State) (t : TileN) (c : Fin 4) : Prop :=
  (∀ k, k ≠ c.val → (u.tile t).core k = (s.tile t).core k) ∧ s.regsKept u [(R.ctrTileStatus t).addr, R.logLost.addr] ∧
  s.tilesKept u t ∧ u.arrays = s.arrays ∧ s.inTiles u ∧
  ∃ e q a b c d l, u.tile t = { s.tile t with tc := e, seq := q, sched := a, wasted := b, front := c, back := d, logged := l }

/-- The core's register rd holds w, x0 still 0, every other register of it what it held, and its program counter is pc. -/
def State.coreHas (s u : State) (r : TcArgs) (w : Word) (pc : Nat) : Prop :=
  (∀ n : Fin 32, (u.tcore r).reg n = if n = r.rd ∧ n.val ≠ 0 then w else (s.tcore r).reg n) ∧ (u.tcore r).pc = pc ∧
  (u.tcore r).run = (s.tcore r).run ∧ (u.tcore r).free = (s.tcore r).free

/-- An instruction that answers a next state in which it has written w to rd and gone on, and nothing else. -/
def State.tcSets (s : State) (c : Instr) (r : TcArgs) (w : Word) : Prop :=
  s.gives c (fun u => s.coreHas u r w (s.pcAfter r) ∧ s.inCore u r.t r.c)

/-- An instruction of a free core that answers a next state in which rd holds w and the program counter is pc, and nothing else. -/
def State.tcGoes (s : State) (c : Instr) (r : TcArgs) (w : Word) (pc : Nat) : Prop :=
  s.gives c (fun u => s.coreHas u r w pc ∧ s.inCore u r.t r.c)
/-- The checks that come before a command's own (R293 to R296) let it through: firmware takes commands, no ORDERED command waits, the
sender has room and no command of that tag, the tenant may use the opcode on the partition, no reserved flag is set, and the partition
is not being reset. -/
abbrev State.accepts (s : State) (h : CmdHdr) (any whole : Bool) : Prop :=
  s.intake = true ∧ s.mustWait h = false ∧ s.tooMany h = false ∧ s.tagUsed h = false ∧ s.permitted h whole any = true ∧
  h.flags.toNat < 4 ∧ s.resettingPart h whole = false

/-- The module has sent one reply to the command of header h and no other, and the command is outstanding no more. -/
def State.answered (s u : State) (h : CmdHdr) (status detail : Nat) (payload : Bytes) : Prop :=
  u.replies = s.replies ++ [⟨h.sender, h.tag, status, s.slot, detail, payload⟩] ∧
  ∀ o ∈ u.bridge.outst, o ∈ s.bridge.outst

/-- The module has sent no reply, and the command of header h is outstanding under an opcode with an argument. -/
def State.started (s u : State) (h : CmdHdr) (opcode arg : Nat) : Prop :=
  u.replies = s.replies ∧
  ∃ o ∈ u.bridge.outst, o.sender = h.sender ∧ o.tag = h.tag ∧ o.part = h.part.val ∧ o.opcode = opcode ∧ o.arg = arg ∧
    o.started = true

/-- Nothing outside the module's tables changes: HBM4, arrays, tiles and links are in u what they are in s. -/
def State.dataKept (s u : State) : Prop :=
  u.hbm = s.hbm ∧ u.arrays = s.arrays ∧ u.tiles = s.tiles ∧ u.routers = s.routers ∧ u.ports = s.ports
/-- While the log's ingest queue has room, one entry more stands in it: source, code, partition, DETAIL. -/
def State.logs (s u : State) (source code part detail : Nat) : Prop :=
  s.log.ingest.length < 256 → ∃ e : Entry, u.log.ingest = s.log.ingest ++ [e] ∧ e.source = source ∧ e.code = code ∧ e.part = part ∧
    e.detail = BitVec.ofNat 64 detail ∧ e.beat = s.cad.beat

/-- u differs from s at most in the log and in the count of lost log entries. -/
def State.onlyLogs (s u : State) : Prop := u = { s with log := u.log, regs := u.regs } ∧ s.regsKept u [R.logLost.addr]
/-- The management message of a subtype to slot d, which goes to the slot that traffic for d is redirected to (R371). -/
def State.mgmt (s : State) (d subtype : Nat) (payload : Bytes) : LinkMsg :=
  { cls := 7, dest := s.redirect d, stream := subtype, payload := payload }

/-- The weights of partition n. -/
def State.wgt (s : State) (n : Nat) : WgtSt := (s.prt n).wgt

/-- HBM4 in its canonical form: offsets strictly rising, no entry that reads as unlisted. -/
abbrev State.hbmWf (s : State) : Prop := Sparse.wf (fun _ => (0 : Byte)) s.hbm = true

/-- The reply's payload fits the sender's buffer (R298). -/
def State.fits (h : CmdHdr) (p : Bytes) : Prop :=
  p.length ≤ 48 ∨ p.length ≤ h.rbuf ∨ (match h.sender with | .host _ => False | .slot _ => True)

/-- A command that answers a next state in which it has sent its one reply and changed nothing else but the ring it answers through
and, for a partition, its COMPLETE interrupt. -/
def State.answersWith (s : State) (c : Instr) (h : CmdHdr) (status detail : Nat) (payload : Bytes) : Prop :=
  s.gives c (fun u => s.answered u h status detail payload ∧ s.dataKept u ∧ s.partsKept u h.part ∧ (u.prt h.part).wgt = (s.prt h.part).wgt ∧
    u.firn = s.firn ∧ u.sec = s.sec ∧ u.cad = s.cad ∧ u.pwr = s.pwr ∧ u.log = s.log)

/-- The registers in their canonical form. -/
abbrev State.regsWf (s : State) : Prop := Sparse.wf regDefault s.regs = true

end Sys2Proof.Machine
end

