-- ==== Sys2Proof/Certificates/Slice0/Obligations.lean ====
section
/-! DEFINITION. What is to be proved of the model: the statements for the provers, family by family. -/

open Sys2Proof Sys2Proof.Machine

/-! ## Lamlet arrays -/

/-- R55, R39, R40: a multiply starts in every array of the mask whose operand entry is present and which has a free result entry; it
takes the entry at the head, and the wide accumulators start at zero unless ACC is given. While an array of the mask cannot start, the
action waits and no array changes. Nothing outside the tiles changes, and no other array. -/
def Obligations.MultiplyStartsInReadyArrays : Prop :=
  ∀ (t : TileN) (mask : BitVec 128) (lslot : Fin 64) (acc net : Bool) (s : State), s.tileRuns t = true →
    ((∀ a ∈ maskArrays mask, (s.arr t a).opQ ≠ [] ∧ (s.arr t a).resQ.length < 2 ∧ (s.arr t a).mul = none ∧
        (s.arr t a).writesWait = false ∧ s.flag (F.arrStatusCalValid t a) = true) →
      s.gives (.mul t mask lslot acc net) (fun u =>
        (∀ a ∈ maskArrays mask, ∃ m, (u.arr t a).mul = some m ∧ m.entry = (s.arr t a).opQ.headD {} ∧ m.lslot = lslot ∧
          m.acc = acc ∧ m.net = net ∧ m.seg = 0 ∧ m.residual = false ∧ m.phaseH = false ∧
          (u.arr t a).wide = (if acc then (s.arr t a).wide else []) ∧ (u.arr t a).opQ = (s.arr t a).opQ ∧
          (u.arr t a).resQ = (s.arr t a).resQ ∧ (u.arr t a).rows = (s.arr t a).rows) ∧
        s.arraysKept u ((maskArrays mask).map (128 * t.val + ·)) ∧ s.tilesKept u t ∧ s.inTiles u)) ∧
    ((∃ a ∈ maskArrays mask, (s.arr t a).opQ = [] ∨ 2 ≤ (s.arr t a).resQ.length ∨ (s.arr t a).mul ≠ none) →
      s.gives (.mul t mask lslot acc net) (fun u =>
        u.arrays = s.arrays ∧ (u.tile t).seq.waits = (s.tile t).seq.waits + 1 ∧ s.tilesKept u t ∧ s.inTiles u))

/-- R48, R50 (R80), R54, R110: a conversion slot of a segment whose scale byte is 0 counts one zero-skipped conversion and goes on to
the next phase; a scale byte of 0xFF sets SCALE_INVALID and the operand is replayed; the last segment's close appends the result entry
and gives the operand's entry back; a restored scale line is written to the scale file; after an arbitration whose exact values and
outlier terms pass their check, the multiply waits for it no more. -/
def Obligations.MultiplyGoesThroughItsSegments : Prop :=
  ∀ (t : TileN) (a : ArrN) (m : MulSt) (chk : Chk) (s : State), s.tileRuns t = true → (s.arr t a).mul = some m →
    ((m.closing = false ∧ m.wait = .none ∧ m.entry.invalid = false ∧ m.scale = 0) →
      s.gives (.conversionEnd t a) (fun u =>
        u.getF (F.arrSkipCntSkipped t a) = (s.getF (F.arrSkipCntSkipped t a) + 1) % 2 ^ 32 ∧
        (∃ m', (u.arr t a).mul = some m' ∧ m'.seg = m.seg ∧ (if m.phaseH then m'.closing = true else m'.phaseH = true)) ∧
        s.arraysKept u [128 * t.val + a.val] ∧ s.inTiles u)) ∧
    ((m.closing = false ∧ m.wait = .none ∧ m.scale = 0xFF) →
      s.gives (.conversionEnd t a) (fun u =>
        u.flag (F.arrStatusScaleInvalid t a) = true ∧ (u.arr t a).mul = some { m with wait := .replay } ∧
        s.arraysKept u [128 * t.val + a.val] ∧ s.inTiles u)) ∧
    ((m.closing = true ∧ m.wait = .none ∧ m.scale = 0 ∧ (m.residual = true ∨ m.entry.rmask.getLsbD m.seg = false) ∧
        s.segs t a ≤ m.seg + 1) →
      s.gives (.segmentClose t ⟨a, chk⟩) (fun u =>
        (u.arr t a).mul = none ∧ (u.arr t a).opQ = (s.arr t a).opQ.drop 1 ∧
        (u.arr t a).resQ = (s.arr t a).resQ ++
          [⟨(List.range (logCols (s.mode t a))).map (fun j => Sparse.get (fun _ => 0) (s.arr t a).wide j), m.net, m.lslot⟩] ∧
        s.arraysKept u [128 * t.val + a.val] ∧ u.tiles = s.tiles ∧ u.regs = s.regs ∧ s.inTiles u)) ∧
    (∀ l, m.wait = .scaleLine l →
      s.gives (.scaleLineRestored t a) (fun u =>
        (u.arr t a).scale = ((s.arr t a).setLine l
          (match s.arrImage t a with | some img => imageLine img l | none => leBytes 64 0)).scale ∧
        (u.arr t a).rows = (s.arr t a).rows ∧ s.arraysKept u [128 * t.val + a.val] ∧ s.inTiles u)) ∧
    ((m.wait = .arbitration ∧ (chk = .pass ∨ chk = .replayPassed)) →
      s.gives (.arbitrationDone t ⟨a, chk⟩) (fun u => ∀ m', (u.arr t a).mul = some m' → m'.wait ≠ .arbitration))

/-- Table 2.10, R56, R57, R61, R62, R69, R287: what an access through the row port reads and writes; while BUSY is 1 a request changes
nothing; a read of a scale line that fails its checks waits until the line is restored; the scrub goes on to the next row and marks a
row that fails its checks; a rewritten row is suspect no more, and the rewrite waits for the last conversion of a multiply and for
firmware's accesses; ARR_CFG takes MODE, SEG and RESERVE only while no multiply and no write
is pending, and sets MISMATCH otherwise. -/
def Obligations.RowPortAndScrub : Prop :=
  ∀ (t : TileN) (a : ArrN) (row : Fin 1024) (line : Fin 32) (s : State), s.tileOn t = true →
    (s.flag (F.arrPortCmdBusy t a) = true →
      exec (.arrPortReadRow t a row) s = .next s ∧ exec (.arrPortWriteRow t a row) s = .next s ∧
      exec (.arrPortReadScaleLine t a line) s = .next s ∧ exec (.arrPortWriteScaleLine t a line) s = .next s) ∧
    ((s.flag (F.arrPortCmdBusy t a) = false ∧ (s.arr t a).portWait = [] ∧ (s.arr t a).mul = none) →
      (s.portBad t a row = false → s.gives (.arrPortReadRow t a row) (fun u =>
        (∀ k < 32, u.getR (R.arrPortData t a k) = BitVec.ofNat 32 ((s.view t a row).data.toNat / 2 ^ (32 * k))) ∧
        u.getF (F.arrPortCheckCheck t a) = (s.view t a row).check.toNat ∧ u.flag (F.arrPortCmdBusy t a) = false ∧
        u.getF (F.arrPortCmdRow t a) = row ∧ u.arrays = s.arrays ∧ s.inTiles u)) ∧
      s.gives (.arrPortWriteRow t a row) (fun u =>
        (u.arr t a).row row = writeRow (s.mode t a) (s.spares t a) ((s.arr t a).row row) (BitVec.ofNat 1024 (s.portWords t a 32)) ∧
        (∀ i, i ≠ row.val → (u.arr t a).row i = (s.arr t a).row i) ∧ (u.arr t a).scale = (s.arr t a).scale ∧
        s.arraysKept u [128 * t.val + a.val] ∧ s.inTiles u) ∧
      ((s.arr t a).lineBad line = false → s.gives (.arrPortReadScaleLine t a line) (fun u =>
        (∀ k < 16, u.getR (R.arrPortData t a k) = BitVec.ofNat 32 (leNat ((s.arr t a).line line) / 2 ^ (32 * k))) ∧
        u.arrays = s.arrays ∧ s.inTiles u)) ∧
      ((s.arr t a).lineBad line = true → s.gives (.arrPortReadScaleLine t a line) (fun u =>
        u.flag (F.arrPortCmdParityErr t a) = true ∧ u.flag (F.arrPortCmdBusy t a) = true ∧
        (u.arr t a).portWait = [.readLine line] ∧ (u.arr t a).rows = (s.arr t a).rows ∧ (u.arr t a).scale = (s.arr t a).scale ∧
        s.arraysKept u [128 * t.val + a.val] ∧ u.tiles = s.tiles ∧ s.inTiles u)) ∧
      s.gives (.arrPortWriteScaleLine t a line) (fun u =>
        (u.arr t a).scale = ((s.arr t a).setLine line (leBytes 64 (s.portWords t a 16))).scale ∧
        (u.arr t a).rows = (s.arr t a).rows ∧ s.arraysKept u [128 * t.val + a.val] ∧ s.inTiles u) ∧
      s.gives (.scrubRead t a) (fun u =>
        u.getF (F.arrScrubNextRow t a) = (s.getF (F.arrScrubNextRow t a) + 1) % 1024 ∧
        (s.scrubBad t a (s.getF (F.arrScrubNextRow t a)) = true → s.getF (F.arrScrubNextRow t a) ∈ (u.arr t a).suspects) ∧
        (u.arr t a).rows = (s.arr t a).rows ∧ s.inTiles u)) ∧
    (((s.arr t a).mul = none ∧ (s.arr t a).portWait = [.readLine line] ∧ (s.arr t a).lineBad line = true) →
      s.gives (.scaleLineRestored t a) (fun u =>
        (u.arr t a).scale = ((s.arr t a).setLine line
          (match s.arrImage t a with | some img => imageLine img line | none => leBytes 64 0)).scale ∧
        (u.arr t a).rows = (s.arr t a).rows ∧ s.arraysKept u [128 * t.val + a.val] ∧ s.inTiles u)) ∧
    (∀ r, (s.arr t a).nextPort = some r → s.portBlocked t a r = false →
      s.gives (.rowPortAccess t a) (fun u => (u.arr t a).portWait = (s.arr t a).portWait.erase r ∧ s.inTiles u)) ∧
    (((row.val ∈ (s.arr t a).suspects ∨ row.val ∈ (s.arr t a).rewrite) ∧ (s.arr t a).convDone (s.segs t a) = true ∧
        (s.arr t a).fwWaits = false) →
      s.gives (.suspectRowRewritten t a row) (fun u =>
      row.val ∉ (u.arr t a).suspects ∧ row.val ∉ (u.arr t a).rewrite ∧
      (u.arr t a).row row = writeRow (s.mode t a) (s.spares t a) ((s.arr t a).row row)
        (match s.arrImage t a with | some img => imageRow img row | none => (s.view t a row).data) ∧
      (∀ i, i ≠ row.val → (u.arr t a).row i = (s.arr t a).row i) ∧ s.inTiles u)) ∧
    (((s.arr t a).convDone (s.segs t a) = false ∨ (s.arr t a).fwWaits = true) →
      exec (.suspectRowRewritten t a row) s = .next s) ∧
    (s.canVerify t a = true → s.gives (.arrayVerified t a) (fun u =>
      u.flag (F.arrStatusUnverified t a) = false ∧ s.regsKept u [(R.arrStatus t a).addr] ∧ u.arrays = s.arrays ∧ s.inTiles u)) ∧
    (∀ w : Word, ((s.arr t a).mul = none ∧ (s.arr t a).writesWait = false) →
      s.gives (.arrCfgWrite t a w) (fun u =>
        u.getF (F.arrCfgMode t a) = bitsOf w 2 0 ∧ u.getF (F.arrCfgSeg t a) = bitsOf w 9 8 ∧
        u.getF (F.arrCfgReserve t a) = bitsOf w 14 12 ∧ u.flag (F.arrCfgLoaded t a) = s.flag (F.arrCfgLoaded t a) ∧
        s.regsKept u [(R.arrCfg t a).addr] ∧ u.arr t a = { s.arr t a with wsum := (u.arr t a).wsum } ∧
        s.arraysKept u [128 * t.val + a.val] ∧ u.tiles = s.tiles ∧ s.inTiles u)) ∧
    (∀ w : Word, ((s.arr t a).mul ≠ none ∨ (s.arr t a).writesWait = true) →
      s.gives (.arrCfgWrite t a w) (fun u =>
        u.flag (F.arrStatusMismatch t a) = true ∧ u.getR (R.arrCfg t a) = s.getR (R.arrCfg t a) ∧ u.arrays = s.arrays ∧ s.inTiles u))

/-- R66, R70: a write that sets VALID of a spare that is not valid starts the copy for its TARGET; a spare whose copy is verified goes
live and holds in every row what the port reads at its target; a released spare is given up at the beat boundary. -/
def Obligations.SparesTakeTheirTargets : Prop :=
  ∀ (t : TileN) (a : ArrN) (k : Fin 64) (w : Word) (s : State),
    ((s.tileOn t = true ∧ w.getLsbD 31 = true ∧ s.flag (F.arrSpareMapValid t a k) = false ∧ bitsOf w 10 0 < 1120 ∧
        (colKind (bitsOf w 10 0)).1 ≠ 2) →
      s.gives (.spareAssign t a k w) (fun u =>
        u.flag (F.arrSpareMapValid t a k) = true ∧ u.flag (F.arrSpareMapLive t a k) = false ∧
        u.getF (F.arrSpareMapTarget t a k) = bitsOf w 10 0 ∧
        (u.arr t a).fills = (s.arr t a).fills ++ [⟨k, bitsOf w 10 0, false⟩] ∧ (u.arr t a).rows = (s.arr t a).rows ∧
        s.regsKept u [(R.arrSpareMap t a k).addr, (R.arrStatus t a).addr] ∧ s.arraysKept u [128 * t.val + a.val] ∧ s.inTiles u)) ∧
    (∀ f, (s.arr t a).fills.find? (fun f => f.spare = k.val && !f.release) = some f →
      s.gives (.spareLive t a k) (fun u =>
        u.flag (F.arrSpareMapLive t a k) = true ∧
        (∀ i < 1024, ((u.arr t a).row i).col (spareCol k) = (s.view t a i).col f.target) ∧
        (∀ g ∈ (u.arr t a).fills, g.spare ≠ k.val) ∧ s.regsKept u [(R.arrSpareMap t a k).addr] ∧
        s.arraysKept u [128 * t.val + a.val] ∧ (u.tile t).store = (s.tile t).store ∧ s.tilesKept u t ∧ u.hbm = s.hbm)) ∧
    (s.flag (F.arrSpareMapValid t a k) = true →
      s.gives (.spareRelease t a k) (fun u =>
        u.flag (F.arrSpareMapValid t a k) = false ∧ u.flag (F.arrSpareMapLive t a k) = false ∧
        u.getF (F.arrSpareMapTarget t a k) = s.getF (F.arrSpareMapTarget t a k) ∧
        (∀ g ∈ (u.arr t a).fills, g.spare ≠ k.val) ∧ (u.arr t a).rows = (s.arr t a).rows ∧
        s.regsKept u [(R.arrSpareMap t a k).addr, (R.arrStatus t a).addr] ∧ (u.tile t).store = (s.tile t).store ∧
        s.tilesKept u t ∧ u.hbm = s.hbm))

/-- R111, R112, R113, R115: a calibration set moves SETS_DONE on by one, and the 32nd one swaps the banks, clears the range latch and
takes the tile temperature; a set that the sequencer inserts does the same. R114: an initial calibration ends with CAL_VALID.
R116, R118, R184: the interval's end starts a canary in a loaded array; each of its multiplies, in elastic time or by CNRY, adds
one to those made, and the operand and result queues stay as they are. -/
def Obligations.CalibrationAndCanaries : Prop :=
  (
    ∀ (t : TileN) (a : ArrN) (mask : BitVec 128) (s : State), s.tileRuns t = true → (s.arr t a).calPaused = false →
      let done := fun (u : State) =>
        (if s.getF (F.arrCalStatusSetsDone t a) = 31 then
          u.getF (F.arrCalStatusSetsDone t a) = 0 ∧ u.getF (F.arrCalStatusBank t a) = 1 - s.getF (F.arrCalStatusBank t a) ∧
          u.getF (F.arrCalStatusCalTemp t a) = s.getF (F.thmSensTemp t) ∧ u.flag (F.arrStatusRangeLatched t a) = false ∧
          (u.arr t a).cal = none
        else
          u.getF (F.arrCalStatusSetsDone t a) = (s.getF (F.arrCalStatusSetsDone t a) + 1) % 32 ∧
          u.getF (F.arrCalStatusBank t a) = s.getF (F.arrCalStatusBank t a)) ∧
        (u.arr t a).rows = (s.arr t a).rows ∧ (u.arr t a).opQ = (s.arr t a).opQ ∧ s.inTiles u
      ((mask.getLsbD a = true ∧ (∀ b ∈ maskArrays mask, s.flag (F.arrStatusCalValid t b) = true)) → s.gives (.cal t mask) done) ∧
      (s.flag (F.arrStatusCalValid t a) = true → s.gives (.calIntervalEnd t a) done) ∧
      ((∃ c, (s.arr t a).cal = some c ∧ c.kind = .forced) → s.gives (.forcedCalSetInsert t a) done) ∧
      (s.flag (F.arrStatusCalValid t a) = false → s.gives (.initialCalibrationDone t a) (fun u =>
        u.flag (F.arrStatusCalValid t a) = true ∧ u.getF (F.arrCalStatusSetsDone t a) = 0 ∧
        u.getF (F.arrCalStatusBank t a) = 1 - s.getF (F.arrCalStatusBank t a) ∧
        u.getF (F.arrCalStatusCalTemp t a) = s.getF (F.thmSensTemp t) ∧ s.arraysKept u [128 * t.val + a.val] ∧ u.tiles = s.tiles ∧
        s.inTiles u))) ∧ (
    ∀ (t : TileN) (a : ArrN) (mask : BitVec 128) (s : State), s.tileRuns t = true →
      ((s.flag (F.arrCfgLoaded t a) = true ∧ (s.arr t a).canary = none ∧ s.getF F.pwrModeState ≠ 1) →
        s.gives (.canaryInterval t a) (fun u =>
          (u.arr t a).canary = some {} ∧ u.flag (F.arrCanaryRunning t a) = true ∧ s.regsKept u [(R.arrCanary t a).addr] ∧
          s.arraysKept u [128 * t.val + a.val] ∧ u.tiles = s.tiles ∧ s.inTiles u)) ∧
      (∀ c, ((s.arr t a).canary = some c ∧ c.made < 3 ∧ s.canaryReady t a = true) →
        (s.getF F.pwrModeState ≠ 1 → s.gives (.canaryMultiply t a) (fun u =>
          (∃ c', (u.arr t a).canary = some c' ∧ c'.made = c.made + 1) ∧ (u.arr t a).opQ = (s.arr t a).opQ ∧
          (u.arr t a).resQ = (s.arr t a).resQ ∧ s.arraysKept u [128 * t.val + a.val] ∧ s.tilesKept u t ∧ u.hbm = s.hbm)) ∧
        (maskArrays mask = [a.val] → s.gives (.cnry t mask) (fun u =>
          (∃ c', (u.arr t a).canary = some c' ∧ c'.made = c.made + 1) ∧ (u.arr t a).opQ = (s.arr t a).opQ ∧
          (u.arr t a).resQ = (s.arr t a).resQ ∧ s.arraysKept u [128 * t.val + a.val] ∧ s.tilesKept u t ∧ u.hbm = s.hbm))))

/-- R176, R56, R57, R58, R60: behind the accesses of firmware and the multiply's conversions, WRROW writes the rows of its range with the images that stand in the store, WRSCALE the scale lines of its range,
RDROW the store lines with the data of sound rows; a range that runs past the last row or line moves nothing. -/
def Obligations.RowOperationsOfTheBeatProgram : Prop :=
  ∀ (t : TileN) (a : ArrN) (first : Fin 1024) (count : Nat) (off : BitVec 16) (s : State),
    (rowRange first count 1024 = false → exec (.wrrow t a first count off) s = .next s ∧ exec (.rdrow t a first count off) s = .next s) ∧
    (rowRange first count 32 = false → exec (.wrscale t a first count off) s = .next s) ∧
    ((s.tileRuns t = true ∧ (s.arr t a).fwWaits = false) →
      (((s.arr t a).convDone (s.segs t a) = true ∧ rowRange first count 1024 = true ∧ s.soundAt t (128 * off.toNat, 128 * count) = true) →
        s.gives (.wrrow t a first count off) (fun u =>
          (∀ i < count, (u.arr t a).row (first.val + i) = writeRow (s.mode t a) (s.spares t a) ((s.arr t a).row (first.val + i))
            (BitVec.ofNat 1024 (fieldAt (s.stRead t (128 * off.toNat) (128 * count)) (128 * i) 128))) ∧
          (∀ i, (i < first.val ∨ first.val + count ≤ i) → (u.arr t a).row i = (s.arr t a).row i) ∧
          (u.arr t a).scale = (s.arr t a).scale ∧ (u.tile t).store = (s.tile t).store ∧
          s.arraysKept u [128 * t.val + a.val] ∧ s.inTiles u)) ∧
      (((s.arr t a).mul = none ∧ rowRange first count 32 = true ∧ s.soundAt t (128 * off.toNat, 64 * count) = true) →
        s.gives (.wrscale t a first count off) (fun u =>
          (∀ b, 64 * first.val ≤ b → b < 64 * (first.val + count) → (u.arr t a).scaleByte b =
            ((s.stRead t (128 * off.toNat) (64 * count)).getD (b - 64 * first.val) 0).toNat) ∧
          (u.arr t a).rows = (s.arr t a).rows ∧ s.arraysKept u [128 * t.val + a.val] ∧ s.inTiles u)) ∧
      ((rowRange first count 1024 = true ∧ (∀ i < count, s.segBusy t a (first.val + i) = false) ∧ (∀ i < count, s.portBad t a (first.val + i) = false) ∧
          s.actOk t (128 * off.toNat) (128 * count) = true) →
        s.gives (.rdrow t a first count off) (fun u =>
          (∀ i < count, (u.tile t).bytes (128 * off.toNat + 128 * i) 128 = leBytes 128 (s.view t a (first.val + i)).data.toNat) ∧
          (∀ o, (o < 128 * off.toNat ∨ 128 * (off.toNat + count) ≤ o) → (u.tile t).byte o = (s.tile t).byte o) ∧
          u.arrays = s.arrays ∧ s.tilesKept u t ∧ s.inTiles u)))

/-! ## Tile store, page cache, prefetchers and credit queues -/

/-- R126, R129, R131, R132, R134, R355: a restored word is sound again, counts one parity event and is restored no more; one of the DE weight
region holds its layer's image, one of scratch the bytes that its rebuilding gives; a line of the page cache with a bad word is invalid and
fetched again; the scrub goes on to the next line; TILE_REGION takes a word that keeps the limits
of Table 5.2 while no sequencer runs, clears the page cache, starts the scrub again, and sets REGION_ERR otherwise; a fill that no store has hit takes its place
with the bytes of HBM4 once its line is sound and its bucket has served its bursts (R339, R340, R356), and a stale one is fetched
again. -/
def Obligations.StoreRestoresRegionsAndPageCache : Prop :=
  ∀ (t : TileN) (word : Fin 1048576) (w : Word) (line : Nat) (s : State),
    ((((s.tile t).word word).good = false ∧ (s.tile t).deRun = none) →
      (8 * word.val < s.dwEnd t → s.gives (.tileStoreWordRestored t word) (fun u =>
        ((u.tile t).word word).good = true ∧ word.val ∉ (u.tile t).restoring ∧
        u.getF (F.tileStoreErrParity t) = (s.getF (F.tileStoreErrParity t) + 1) % 2 ^ 16 ∧
        ((s.pbEnd t ≤ 8 * word.val ∧ (s.deImage t (8 * word.val - s.pbEnd t) 8).length = 8) →
          (u.tile t).bytes (8 * word.val) 8 = s.deImage t (8 * word.val - s.pbEnd t) 8) ∧
        s.tilesKept u t ∧ u.arrays = s.arrays ∧ s.inTiles u)) ∧
      (∀ b, (s.dwEnd t ≤ 8 * word.val ∧ 8 * word.val < s.scratchEnd t ∧ (s.tile t).rebuilt word = some b) →
        s.gives (.tileStoreWordRestored t word) (fun u =>
          (u.tile t).bytes (8 * word.val) 8 = b ∧ ((u.tile t).word word).good = true ∧ word.val ∉ (u.tile t).restoring ∧
          s.tilesKept u t ∧ u.arrays = s.arrays ∧ s.inTiles u)) ∧
      (∀ l, (s.dwEnd t ≤ 8 * word.val ∧ s.scratchEnd t ≤ 8 * word.val ∧ (s.tile t).pcache.find? (fun l =>
          s.pcAddr t l.set l.way ≤ 8 * word.val && 8 * word.val < s.pcAddr t l.set l.way + 4096) = some l) →
        s.gives (.tileStoreWordRestored t word) (fun u =>
          (∀ m ∈ (u.tile t).pcache, m.line ≠ l.line) ∧ (∃ f ∈ (u.tile t).pfills, f.line = l.line ∧ f.stale = false) ∧
          word.val ∉ (u.tile t).restoring ∧ s.tilesKept u t ∧ u.arrays = s.arrays ∧ s.inTiles u))) ∧
    ((s.tileOn t = true ∧ (s.tile t).badWords (512 * (s.tile t).scrubLine) 512 = []) →
      s.gives (.tileStoreScrub t) (fun u =>
        (u.tile t).scrubLine = (if s.dwEnd t ≤ 512 * ((s.tile t).scrubLine + 1) then 0 else (s.tile t).scrubLine + 1) ∧
        (u.tile t).store = (s.tile t).store ∧ s.tilesKept u t ∧ u.regs = s.regs ∧ s.inTiles u)) ∧
    (s.tileOn t = true →
      s.gives (.tileRegionWrite t w) (fun u =>
        (if s.flag (F.tileStatusSeqRun t) = false ∧ regionOk w = true then
          u.getR (R.tileRegion t) = w &&& 0x7FFFF ∧ (u.tile t).pcache = [] ∧ (u.tile t).pfills = [] ∧ (u.tile t).scrubLine = 0 ∧
          s.regsKept u [(R.tileRegion t).addr]
        else u.flag (F.tileStatusRegionErr t) = true ∧ s.regsKept u [(R.tileStatus t).addr] ∧ u.tiles = s.tiles) ∧
        (u.tile t).store = (s.tile t).store ∧ s.tilesKept u t ∧ u.arrays = s.arrays ∧ s.inTiles u)) ∧
    (∀ f, (s.tile t).pfills.find? (fun f => f.line = line) = some f →
      let p := s.hbmPay (s.ownerOf t) (4096 * line) 64 (tileKey t 31 line)
      s.gives (.pageCacheFill t line) (fun u =>
        (if f.stale then (u.tile t).pcache = (s.tile t).pcache ∧ (u.tile t).store = (s.tile t).store ∧
            (∀ g ∈ (u.tile t).pfills, g.line = line → g.stale = false) ∧ s.inTiles u
        else if s.linesGood (4096 * line) 4096 = false then u = s
        else if s.hbmServed (s.ownerOf t) (4096 * line) 64 (tileKey t 31 line) = false then u = p
        else (∀ g ∈ (u.tile t).pfills, g.line ≠ line) ∧
          (s.pcSets t ≠ 0 → ∃ l ∈ (u.tile t).pcache, l.line = line ∧ l.set = line % s.pcSets t ∧
            (u.tile t).bytes (s.pcAddr t l.set l.way) 4096 = s.hbmSeen (4096 * line) 4096) ∧ p.inTiles u) ∧
        u.regs = s.regs ∧ s.tilesKept u t))

/-- R135, R136, R137, R139, Table 5.13: a push queues the staged descriptor, or is counted when four are queued; STOP empties the queue
and leaves what is in flight; a descriptor that R136 accepts starts and one that it refuses leaves the queue with REFUSED and its
reason; a chunk takes one credit and lands in the ring slot after the last; a chunk that lands in its turn is READY with its source's
bytes in the store, one with a parity error does not land, and a read of HBM4 waits for its bursts (R339, R340); CQ_CFG is taken while the queue is idle. PFQ queues the descriptor that
stands in the store. -/
def Obligations.PrefetchersAndCreditQueues : Prop :=
  ∀ (t : TileN) (p : Fin 16) (k : Fin 32) (num : Nat) (w : Word) (line : Fin 16384) (s : State),
    (s.tileOn t = true →
      s.gives (.pfCtrlPush t p) (fun u =>
        (if ((s.tile t).pfSt p).queue.length < 4 then
          ((u.tile t).pfSt p).queue = ((s.tile t).pfSt p).queue ++ [s.pfStaged t p] ∧
          u.getF (F.pfStatusQueued t p) = ((s.tile t).pfSt p).queue.length + 1
        else u.getF (F.pfStatusFullPushes t p) = min (s.getF (F.pfStatusFullPushes t p) + 1) 255 ∧ u.tiles = s.tiles) ∧
        ((u.tile t).pfSt p).flight = ((s.tile t).pfSt p).flight ∧ s.regsKept u [(R.pfStatus t p).addr] ∧ s.tilesKept u t ∧
        s.inTiles u) ∧
      s.gives (.pfCtrlStop t p) (fun u =>
        ((u.tile t).pfSt p).queue = [] ∧ ((u.tile t).pfSt p).started = false ∧
        ((u.tile t).pfSt p).flight = ((s.tile t).pfSt p).flight ∧ u.getF (F.pfStatusQueued t p) = 0 ∧
        s.regsKept u [(R.pfStatus t p).addr] ∧ s.tilesKept u t ∧ s.inTiles u) ∧
      s.gives (.cqCfgWrite t k w) (fun u =>
        (if s.cqIdle t k = true ∧ 1 ≤ bitsOf w 7 0 ∧ bitsOf w 7 0 ≤ 128 then
          u.getF (F.cqCfgDepth t k) = bitsOf w 7 0 ∧ u.getF (F.cqStateCredits t k) = bitsOf w 7 0 ∧ u.cqIdle t k = true
        else u = s) ∧
        s.regsKept u [(R.cqCfg t k).addr, (R.cqState t k).addr] ∧ s.tilesKept u t ∧ s.inTiles u)) ∧
    (∀ d rest, (s.tileRuns t = true ∧ ((s.tile t).pfSt p).queue = d :: rest) →
      (((s.tile t).pfSt p).started = false → s.gives (.descriptorStart t p) (fun u =>
        (if s.pfReason t d = 0 then
          ((u.tile t).pfSt p).started = true ∧ ((u.tile t).pfSt p).issued = 0 ∧ ((u.tile t).pfSt p).queue = d :: rest ∧
          u.regs = s.regs
        else ((u.tile t).pfSt p).queue = rest ∧ u.flag (F.pfStatusRefused t p) = true ∧
          u.getF (F.pfStatusReason t p) = s.pfReason t d) ∧
        s.tilesKept u t ∧ u.arrays = s.arrays ∧ s.inTiles u)) ∧
      ((((s.tile t).pfSt p).started = true ∧ 1 ≤ s.getF (F.cqStateCredits t d.cq)) → s.gives (.chunkIssue t p) (fun u =>
        u.getF (F.cqStateCredits t d.cq) = s.getF (F.cqStateCredits t d.cq) - 1 ∧
        u.getF (F.cqStateInflight t d.cq) = (s.getF (F.cqStateInflight t d.cq) + 1) % 2 ^ 8 ∧
        (∃ c, ((u.tile t).pfSt p).flight = ((s.tile t).pfSt p).flight ++ [c] ∧ c.num = ((s.tile t).pfSt p).issued ∧ c.cq = d.cq ∧
          c.src = d.source ((s.tile t).pfSt p).issued ∧ c.size = d.size ∧ c.landed = false ∧
          c.dst = d.base + ((s.tile t).cqSt d.cq).next % s.getF (F.cqCfgDepth t d.cq) * d.size) ∧
        (if d.count = ((s.tile t).pfSt p).issued + 1 then ((u.tile t).pfSt p).queue = rest
         else ((u.tile t).pfSt p).queue = d :: rest ∧ ((u.tile t).pfSt p).issued = ((s.tile t).pfSt p).issued + 1) ∧
        (u.tile t).store = (s.tile t).store ∧ s.tilesKept u t ∧ s.inTiles u))) ∧
    (∀ c, (((s.tile t).pfSt p).flight = [c] ∧ c.num = num ∧ c.landed = false) →
      exec (.chunkLand t p num false) s = .next s ∧
      ((c.kind = 0 ∧ s.hbmOwns (s.ownerOf t) c.src c.size = true ∧ s.linesGood c.src c.size = true ∧
          s.hbmServed (s.ownerOf t) c.src (burstsOf c.src c.size) (tileKey t p num) = false) →
        exec (.chunkLand t p num true) s =
          .next (s.hbmPay (s.ownerOf t) c.src (burstsOf c.src c.size) (tileKey t p num))) ∧
      ((c.kind = 0 ∧ c.done = none ∧ s.hbmOwns (s.ownerOf t) c.src c.size = true ∧ s.landOk t c = true ∧
          s.linesGood c.src c.size = true ∧ s.hbmServed (s.ownerOf t) c.src (burstsOf c.src c.size) (tileKey t p num) = true ∧
          1 ≤ s.getF (F.cqStateInflight t c.cq) ∧ (s.tile t).deRun = none) →
        s.gives (.chunkLand t p num true) (fun u =>
          (u.tile t).bytes c.dst c.size = s.hbmSeen c.src c.size ∧ ((u.tile t).pfSt p).flight = [] ∧
          ((u.tile t).cqSt c.cq).ready = ((s.tile t).cqSt c.cq).ready ++ [(c.dst, c.size)] ∧
          u.getF (F.cqStateReady t c.cq) = (s.getF (F.cqStateReady t c.cq) + 1) % 2 ^ 8 ∧
          u.getF (F.cqStateInflight t c.cq) = s.getF (F.cqStateInflight t c.cq) - 1 ∧
          (∀ o, (o < c.dst ∨ c.dst + c.size ≤ o) → (u.tile t).byte o = (s.tile t).byte o) ∧ s.tilesKept u t ∧
          (s.hbmPay (s.ownerOf t) c.src (burstsOf c.src c.size) (tileKey t p num)).inTiles u))) ∧
    ((s.tileRuns t = true ∧ s.soundAt t (512 * line.val, 28) = true ∧ ((s.tile t).pfSt p).queue.length < 4) →
      s.gives (.pfq t line p) (fun u =>
        ((u.tile t).pfSt p).queue = ((s.tile t).pfSt p).queue ++ [pfDescOf (s.stRead t (512 * line.val) 28)] ∧
        u.getF (F.pfStatusQueued t p) = ((s.tile t).pfSt p).queue.length + 1 ∧ (u.tile t).store = (s.tile t).store ∧
        s.tilesKept u t ∧ s.inTiles u))

/-! ## MOV, CHK and the digital engine -/

/-- R54, R55, R181, R353: AOPND appends the operand record to the operand queue of every array of its mask; ARES takes the oldest result
entry and writes its values as binary32; XFER copies lines; HST writes lines to HBM4 once its bucket
serves its bursts (R339, R340), waits until then, and leaves every other byte of HBM4 as it was. A
queue source gives up the slot at its head.
R184: CMPW logs a mismatch of the two words at its offset and CQCHK one of the READY count, and neither does anything else; MARK
logs an information entry with its code; of a program in compatibility mode (R215) it goes to the control complex as an EVENT on VC3. -/
def Obligations.MovesAndChecks : Prop :=
  (
    ∀ (t : TileN) (a : ArrN) (mask : BitVec 128) (src : MovSrc) (o : Nat) (lines : Fin 64) (dst : Fin 16384) (off : Word) (s : State),
      s.tileRuns t = true →
      ((s.srcAddr t src = some o ∧ s.soundAt t (o, 2560) = true ∧ (∀ b ∈ maskArrays mask, (s.arr t b).opQ.length < 2)) →
        s.gives (.aopnd t src mask) (fun u =>
          (∀ b ∈ maskArrays mask, (u.arr t b).opQ = (s.arr t b).opQ ++ [opEntry (s.stRead t o 2560) o] ∧
            (u.arr t b).rows = (s.arr t b).rows ∧ (u.arr t b).mul = (s.arr t b).mul) ∧
          (∀ k, src = .queue k → ((u.tile t).cqSt k).ready = (((s.tile t).cqSt k).ready).drop 1) ∧
          (u.tile t).store = (s.tile t).store ∧ s.arraysKept u ((maskArrays mask).map (128 * t.val + ·)) ∧ s.tilesKept u t ∧
          s.inTiles u)) ∧
      (∀ r rest, ((s.arr t a).resQ = r :: rest ∧ r.net = false ∧ r.vals.length = logCols (s.mode t a) ∧
          s.actOk t (512 * dst.val) (512 * aresLines (s.mode t a)) = true) →
        s.gives (.ares t a dst) (fun u =>
          (u.arr t a).resQ = rest ∧
          (u.tile t).bytes (512 * dst.val) (4 * r.vals.length) = r.vals.flatMap (fun v => leBytes 4 v.toNat) ∧
          (∀ b, (b < 512 * dst.val ∨ 512 * (dst.val + aresLines (s.mode t a)) ≤ b) → (u.tile t).byte b = (s.tile t).byte b) ∧
          s.arraysKept u [128 * t.val + a.val] ∧ s.tilesKept u t ∧ s.inTiles u)) ∧
      ((s.srcAddr t src = some o ∧ s.soundAt t (o, 512 * (lines.val + 1)) = true ∧ s.actOk t o (512 * (lines.val + 1)) = true) →
        (s.actOk t (512 * dst.val) (512 * (lines.val + 1)) = true → s.gives (.xfer t src lines dst) (fun u =>
          (u.tile t).bytes (512 * dst.val) (512 * (lines.val + 1)) = (s.tile t).bytes o (512 * (lines.val + 1)) ∧
          (∀ b, (b < 512 * dst.val ∨ 512 * (dst.val + lines.val + 1) ≤ b) → (u.tile t).byte b = (s.tile t).byte b) ∧
          u.arrays = s.arrays ∧ s.tilesKept u t ∧ s.inTiles u)) ∧
        (s.hbmOwns (s.ownerOf t) (64 * off.toNat) (512 * (lines.val + 1)) = true → s.gives (.hst t src lines off) (fun u =>
          (if s.hbmServed (s.ownerOf t) (64 * off.toNat) (8 * (lines.val + 1)) (tileKey t 16 0) = true then
            (∀ j < 512 * (lines.val + 1), u.hbmByte (64 * off.toNat + j) = (s.tile t).byte (o + j)) ∧
            (∀ b, (b < 64 * off.toNat ∨ 64 * off.toNat + 512 * (lines.val + 1) ≤ b) → u.hbmByte b = s.hbmByte b)
          else u.hbm = s.hbm ∧ (u.tile t).store = (s.tile t).store ∧ (u.tile t).seq.waits = (s.tile t).seq.waits + 1) ∧
          u.arrays = s.arrays ∧ s.tilesKept u t)))) ∧ (
    ∀ (t : TileN) (off : BitVec 21) (k : Fin 32) (expect : BitVec 8) (code : BitVec 16) (s : State),
      (s.tileRuns t = true ∧ s.log.ingest.length < 256) →
      let logged := fun (u : State) (c d : Nat) => ∃ e : Entry, u.log.ingest = s.log.ingest ++ [e] ∧ e.source = srcTile t 0x86 ∧ e.code = c ∧
        e.detail = BitVec.ofNat 64 d ∧ e.part = s.ownerOf t ∧ e.beat = s.cad.beat
      ((s.soundAt t (8 * off.toNat, 8) = true ∧ s.actOk t (8 * off.toNat) 8 = true) →
        s.gives (.cmpw t off) (fun u =>
          (if fieldAt ((s.tile t).bytes (8 * off.toNat) 8) 0 4 = fieldAt ((s.tile t).bytes (8 * off.toNat) 8) 4 4 then u.log = s.log
           else logged u (code14 11) (8 * off.toNat)) ∧
          u.regs = s.regs ∧ u.arrays = s.arrays ∧ (u.tile t).store = (s.tile t).store ∧ s.tilesKept u t ∧ s.inTiles u)) ∧
      s.gives (.cqchk t k expect) (fun u =>
        (if s.getF (F.cqStateReady t k) = expect.toNat then u.log = s.log else logged u (code14 11) k) ∧
        u.regs = s.regs ∧ u.arrays = s.arrays ∧ (u.tile t).store = (s.tile t).store ∧ s.tilesKept u t ∧ s.inTiles u) ∧
      (s.compat (s.ownerOf t) = false → s.gives (.chkMark t code) (fun u =>
        logged u 0x1502 code.toNat ∧ u.regs = s.regs ∧ u.arrays = s.arrays ∧ (u.tile t).store = (s.tile t).store ∧
        s.tilesKept u t ∧ s.inTiles u)) ∧
      (s.compat (s.ownerOf t) = true → s.gives (.chkMark t code) (fun u =>
        (u.router t).inj = (s.router t).inj ++ [s.compatFlit (s.ownerOf t) 0x28 0x72 t (BitVec.ofNat 32 code.toNat)] ∧
        u.log = s.log ∧ u.regs = s.regs ∧ u.arrays = s.arrays ∧ s.tilesKept u t)))

/-- R91 to R93, R137, R141 to R143, R177: LOADW fills the named buffer with the record while no RUN computes from it; a RUN of one run
promotes its narrow values into its vector of the wide file and gives its slot back; in a layer that the DE computes in exact int4 mode a
run of a segment that is not its last adds its narrow values to the segment's sum and promotes nothing; DRAIN writes the entries as
binary32; CLEAR sets the vectors from VBASE on to +0.0. (Where CLEAR ends is the model's reading: log 16.) -/
def Obligations.DigitalEngineLoadsRunsDrains : Prop :=
  ∀ (t : TileN) (cls : Fin 4) (buf : Bool) (lslot vbase nvec : Fin 64) (k : Fin 32) (line : Fin 16384) (s : State),
    s.tileRuns t = true →
    (((∀ r, (s.tile t).deRun = some r → r.buf ≠ buf) ∧ s.soundAt t (512 * line.val, deRecord cls) = true) →
      s.gives (.deLoadw t cls buf line) (fun u =>
      (u.tile t).deBuf buf = ⟨cls, s.stRead t (512 * line.val) (deRecord cls)⟩ ∧
      (u.tile t).deBuf (!buf) = (s.tile t).deBuf (!buf) ∧ (u.tile t).deWide = (s.tile t).deWide ∧
      (u.tile t).store = (s.tile t).store ∧ u.arrays = s.arrays ∧ s.tilesKept u t ∧ s.inTiles u)) ∧
    ((s.tile t).deRun = none →
      (∀ o n rest, (((s.tile t).cqSt k).ready = (o, n) :: rest ∧ 1 ≤ s.getF (F.cqStateReady t k) ∧ (s.tile t).dePrio = 0 ∧
          (s.tile t).deIn = [] ∧ s.soundAt t (o, n) = true ∧ s.soundAt t (o, 128) = true ∧ vbase.val < deVecs cls) →
        let b := s.stRead t o 128
        let at_ := fun (u : State) (j : Nat) => Sparse.get (fun _ => 0) (u.tile t).deWide (vbase.val * deCols cls + j)
        let sum := fun (u : State) (j : Nat) => Sparse.get (fun _ => 0) (u.tile t).deSum (vbase.val * deCols cls + j)
        let took := fun (u : State) =>
          (u.tile t).deRun = none ∧ ((u.tile t).cqSt k).ready = rest ∧ u.getF (F.cqStateReady t k) = s.getF (F.cqStateReady t k) - 1 ∧
          (u.tile t).store = (s.tile t).store ∧ u.arrays = s.arrays ∧ s.tilesKept u t ∧ s.inTiles u
        let whole := cls = 3 ∧ (s.layerSlot t lslot).flags % 2 = 1
        ((¬ whole ∧ fieldAt b 64 1 ≠ 0xFF ∧ (∀ j < deCols cls, ((s.tile t).deBuf buf).scale j ≠ 0xFF)) →
          s.gives (.deRun t cls buf lslot vbase 0 k .pass) (fun u =>
            (∀ j < deCols cls, at_ u j =
              promote (at_ s j) (deNarrow ((s.tile t).deBuf buf) cls b j) (fieldAt b 64 1) (((s.tile t).deBuf buf).scale j)) ∧
            (∀ e, (e < vbase.val * deCols cls ∨ (vbase.val + 1) * deCols cls ≤ e) →
              Sparse.get (fun _ => 0) (u.tile t).deWide e = Sparse.get (fun _ => 0) (s.tile t).deWide e) ∧
            took u)) ∧
        ((whole ∧ Sparse.get (fun _ => 0) (s.tile t).deCnt vbase.val + 1 < segRows (s.layerSlot t lslot).seg / 64) →
          s.gives (.deRun t cls buf lslot vbase 0 k .pass) (fun u =>
            (∀ j < deCols cls, sum u j = sum s j + deNarrow ((s.tile t).deBuf buf) cls b j) ∧
            (u.tile t).deWide = (s.tile t).deWide ∧ took u))) ∧
      (s.actOk t (512 * line.val) (4 * (nvec.val + 1) * deCols cls) = true → s.gives (.deDrain t cls vbase nvec line) (fun u =>
        (∀ j < (nvec.val + 1) * deCols cls, (u.tile t).bytes (512 * line.val + 4 * j) 4 =
          leBytes 4 (Sparse.get (fun _ => 0) (s.tile t).deWide (vbase.val * deCols cls + j)).toNat) ∧
        (∀ b, (b < 512 * line.val ∨ 512 * line.val + 4 * (nvec.val + 1) * deCols cls ≤ b) → (u.tile t).byte b = (s.tile t).byte b) ∧
        (u.tile t).deWide = (s.tile t).deWide ∧ u.arrays = s.arrays ∧ s.tilesKept u t ∧ s.inTiles u)) ∧
      s.gives (.deClear t cls vbase) (fun u =>
        (∀ e, Sparse.get (fun _ => 0) (u.tile t).deWide e =
          if e < vbase.val * deCols cls then Sparse.get (fun _ => 0) (s.tile t).deWide e else 0) ∧
        (u.tile t).store = (s.tile t).store ∧ u.regs = s.regs ∧ u.arrays = s.arrays ∧ s.tilesKept u t ∧ s.inTiles u))

/-! ## Synchronisation objects -/

/-- Table 10.7, R183, R215, R306, R307: what each operation of the SYN slot leaves of an object that accepts it and that nobody waits for;
an operation that a home refuses sets TYPE_ERR and changes no object; a waiting operation whose condition does not hold leaves the object
as it is and is held at its home. An acknowledged wait issues and changes no object. Of a program in compatibility mode every operation
goes to the object's home in a flit on VC3. -/
def Obligations.SynSlotOperations : Prop :=
  ∀ (t : TileN) (obj value : BitVec 14) (s : State), s.tileRuns t = true →
    let o := obj.toNat
    let v := value.toNat
    let w := s.getR (R.syncObj o)
    let n := s.ownerOf t
    let becomes := fun (u : State) (w' : Word) =>
      u.getR (R.syncObj o) = w' ∧ (∀ k < 16384, k ≠ o → u.getR (R.syncObj k) = s.getR (R.syncObj k)) ∧ u.syncWaits = s.syncWaits ∧
      u.arrays = s.arrays ∧ s.tilesKept u t ∧ s.inTiles u
    let asks := fun (u : State) (op : Nat) =>
      (u.router t).inj = (s.router t).inj ++ [s.compatFlit n 0x20 (homeOf o) t (BitVec.ofNat 32 (op * 2 ^ 28 + o * 2 ^ 14 + v))] ∧
      (∀ k < 16384, u.getR (R.syncObj k) = s.getR (R.syncObj k)) ∧ u.syncWaits = s.syncWaits ∧ u.arrays = s.arrays ∧ s.tilesKept u t
    ((s.compat n = false ∧ ∀ x ∈ s.syncWaits, x.obj ≠ o) →
      (s.opOk n opSignal o = true → s.gives (.signal t obj value) (fun u =>
        becomes u (BitVec.ofNat 32 (min (w.toNat + v) 0xFFFFFFFF)) ∧
        (0xFFFFFFFF < w.toNat + v → u.flag F.syncStatusOverflow = true))) ∧
      (s.opOk n opArrive o = true → s.gives (.arrive t obj value) (fun u => becomes u (arriveWord w v))) ∧
      (s.opOk n opEset o = true → s.gives (.eset t obj value) (fun u => becomes u (w ||| 1))) ∧
      (s.opOk n opEclr o = true → s.gives (.eclr t obj value) (fun u => becomes u (w &&& 0xFFFFFFFE)))) ∧
    ((s.compat n = false ∧ s.acked t 9 o = false ∧ s.waitHeld t 9 o = false) →
      ((s.opOk n opWait o = true ∧ v ≤ w.toNat) → s.gives (.wait t obj value) (fun u => becomes u (w - BitVec.ofNat 32 v))) ∧
      ((s.opOk n opBwait o = true ∧ bitsOf w 31 31 ≠ v % 2) → s.gives (.bwait t obj value) (fun u => becomes u w)) ∧
      ((s.opOk n opEwait o = true ∧ w.getLsbD 0 = true) → s.gives (.ewait t obj value) (fun u => becomes u w)) ∧
      ((s.opOk n opWait o = true ∧ w.toNat < v) → s.gives (.wait t obj value) (fun u =>
        u.getR (R.syncObj o) = w ∧ (⟨opWait, o, v, t, n, 9⟩ : SyncWait) ∈ u.syncWaits ∧
        (u.tile t).seq.waits = (s.tile t).seq.waits + 1))) ∧
    (s.compat n = true →
      s.gives (.signal t obj value) (fun u => asks u opSignal) ∧ s.gives (.arrive t obj value) (fun u => asks u opArrive) ∧
      s.gives (.eset t obj value) (fun u => asks u opEset) ∧ s.gives (.eclr t obj value) (fun u => asks u opEclr) ∧
      ((s.acked t 9 o = false ∧ s.waitHeld t 9 o = false) → s.gives (.wait t obj value) (fun u =>
        asks u opWait ∧ (u.tile t).asked = (s.tile t).asked ++ [(9, o)] ∧ (u.tile t).seq.waits = (s.tile t).seq.waits + 1))) ∧
    (s.acked t 9 o = true → s.gives (.wait t obj value) (fun u =>
      (u.tile t).acks = (s.tile t).acks.erase (9, o) ∧ u.regs = s.regs ∧ u.arrays = s.arrays ∧ s.tilesKept u t ∧ s.inTiles u)) ∧
    ((s.compat n = false ∧ s.opOk n opSignal o = false) → s.gives (.signal t obj value) (fun u =>
      u.flag F.syncStatusTypeErr = true ∧ ∀ k < 16384, u.getR (R.syncObj k) = s.getR (R.syncObj k)))

/-- R306, R308, Table 10.8: a rime SYNC and a SYNC_REMOTE do what the operation does at its home, or hold a wait there; a SYNC_ACK that
the home has sent becomes the unit's acknowledgement; a register write of an object is one operation at its home, and wakes what waits
for the value: a WAIT held for no more than the value written takes its value from it. -/
def Obligations.SyncMessagesReachTheirHomes : Prop :=
  ∀ (src : Byte) (n : PartN) (slot : SlotN) (t : TileN) (obj value : BitVec 14) (word : Word) (s : State),
    let o := obj.toNat
    let w := s.getR (R.syncObj o)
    (s.opOk n opSignal o = true ∧ (∀ x ∈ s.syncWaits, x.obj ≠ o) →
      s.gives (.sync src n 0 obj value) (fun u =>
        u.getR (R.syncObj o) = BitVec.ofNat 32 (min (w.toNat + value.toNat) 0xFFFFFFFF) ∧ u.syncWaits = s.syncWaits ∧
        u.tiles = s.tiles ∧ u.arrays = s.arrays) ∧
      s.gives (.syncRemote slot n obj 0 word) (fun u =>
        u.getR (R.syncObj o) = BitVec.ofNat 32 (min (w.toNat + word.toNat % 16384) 0xFFFFFFFF) ∧ u.syncWaits = s.syncWaits ∧
        u.tiles = s.tiles ∧ u.arrays = s.arrays)) ∧
    (s.opOk n opWait o = true ∧ w.toNat < value.toNat → s.gives (.sync src n 1 obj value) (fun u =>
      (⟨opWait, o, value.toNat, src.toNat, n, 9⟩ : SyncWait) ∈ u.syncWaits ∧ u.regs = s.regs)) ∧
    (∀ unit, (s.tile t).ackDue = [(unit, o)] → s.gives (.syncAck t obj) (fun u =>
      (u.tile t).ackDue = [] ∧ (u.tile t).acks = (s.tile t).acks ++ [(unit, o)] ∧ s.tilesKept u t ∧ u.regs = s.regs ∧ s.inTiles u)) ∧
    (∀ x, (s.syncWaits = [x] ∧ x.op = opWait ∧ x.obj = o) → s.gives (.syncObjWrite obj word) (fun u =>
      if x.value ≤ word.toNat then u.getR (R.syncObj o) = word - BitVec.ofNat 32 x.value ∧ u.syncWaits = []
      else u.getR (R.syncObj o) = word ∧ u.syncWaits = [x]))


/-! ## The vector unit -/

/-- R146, R178, Table 6.6: the integer operations write each active lane of VD from the same lanes of VA, VB and VC, modulo 2^32; every
other lane keeps its value. (The words of a true and a false comparison, SEL's test and a shift by 32 or more are free values: log 20.) -/
def Obligations.VectorIntegerLanes : Prop :=
  ∀ (t : TileN) (o : VuArgs) (s : State), s.vuRuns t o →
    let a := fun l => (s.tile t).lane o.va l
    let b := fun l => (s.tile t).lane o.vb l
    let c := fun l => (s.tile t).lane o.vc l
    s.lanesGive (.vuIadd t o) t o (fun l => BitVec.ofNat 32 ((a l).toNat + (b l).toNat)) ∧
    s.lanesGive (.vuIsub t o) t o (fun l => BitVec.ofInt 32 ((a l).toInt - (b l).toInt)) ∧
    s.lanesGive (.vuAnd t o) t o (fun l => a l &&& b l) ∧
    s.lanesGive (.vuOr t o) t o (fun l => a l ||| b l) ∧
    s.lanesGive (.vuXor t o) t o (fun l => a l ^^^ b l) ∧
    s.lanesGive (.vuShl t o) t o (fun l => if (b l).toNat < 32 then BitVec.ofNat 32 ((a l).toNat * 2 ^ (b l).toNat)
      else Config.vuOpen 0x15 (a l) (b l)) ∧
    s.lanesGive (.vuShr t o) t o (fun l => if (b l).toNat < 32 then BitVec.ofNat 32 ((a l).toNat / 2 ^ (b l).toNat)
      else Config.vuOpen 0x16 (a l) (b l)) ∧
    s.lanesGive (.vuSra t o) t o (fun l => if (b l).toNat < 32 then BitVec.ofInt 32 ((a l).toInt / 2 ^ (b l).toNat)
      else Config.vuOpen 0x17 (a l) (b l)) ∧
    s.lanesGive (.vuCmplt t o) t o (fun l => Config.cmpWord (decide ((a l).toInt < (b l).toInt))) ∧
    s.lanesGive (.vuCmpeq t o) t o (fun l => Config.cmpWord (decide ((a l).toNat = (b l).toNat))) ∧
    s.lanesGive (.vuSel t o) t o (fun l => if Config.selTakes (c l) = true then a l else b l) ∧
    s.lanesGive (.vuImul t o) t o (fun l => BitVec.ofNat 32 ((a l).toNat * (b l).toNat))

/-- R146, R147, R178, R89, R93: the floating-point operations and the functions work lane by lane on elements of the format, a bf16
element being the upper half of its lane, with one rounding; a bf16 result has a zero lower half; a bf16 function is the binary32
function rounded to bf16. -/
def Obligations.VectorFloatLanes : Prop :=
  ∀ (t : TileN) (o : VuArgs) (s : State), s.vuRuns t o →
    let a := fun l => elemOf o.bf ((s.tile t).lane o.va l)
    let b := fun l => elemOf o.bf ((s.tile t).lane o.vb l)
    let c := fun l => elemOf o.bf ((s.tile t).lane o.vc l)
    let raw := fun l => (s.tile t).lane o.va l
    let func := fun (f : Word → Word) (l : Nat) => if o.bf then cvt16 (f (cvt32 (raw l))) else f (raw l)
    s.lanesGive (.vuFma t o) t o (fun l => fmaF o.bf (a l) (b l) (c l)) ∧
    s.lanesGive (.vuAdd t o) t o (fun l => addF o.bf (a l) (b l)) ∧
    s.lanesGive (.vuMul t o) t o (fun l => mulF o.bf (a l) (b l)) ∧
    s.lanesGive (.vuMin t o) t o (fun l => minF o.bf (a l) (b l)) ∧
    s.lanesGive (.vuMax t o) t o (fun l => maxF o.bf (a l) (b l)) ∧
    s.lanesGive (.vuSub t o) t o (fun l => subF o.bf (a l) (b l)) ∧
    s.lanesGive (.vuCvt16 t o) t o (fun l => cvt16 (raw l)) ∧
    s.lanesGive (.vuCvt32 t o) t o (fun l => cvt32 (raw l)) ∧
    s.lanesGive (.vuCvti2f t o) t o (fun l => roundF o.bf false ⟨(raw l).toInt, 0⟩) ∧
    s.lanesGive (.vuCvtf2i t o) t o (fun l => cvtF2I (if o.bf then cvt32 (raw l) else raw l)) ∧
    s.lanesGive (.vuExp2 t o) t o (func exp2F) ∧ s.lanesGive (.vuLog2 t o) t o (func log2F) ∧
    s.lanesGive (.vuRecip t o) t o (func recipF) ∧ s.lanesGive (.vuRsqrt t o) t o (func rsqrtF) ∧
    s.lanesGive (.vuSqrt t o) t o (func sqrtF) ∧ s.lanesGive (.vuSin t o) t o (func sinF) ∧
    s.lanesGive (.vuCos t o) t o (func cosF) ∧ s.lanesGive (.vuTanh t o) t o (func tanhF)

/-- R148, Table 6.6, R323: RSUM gives every active lane the sum of VA's lanes by the pairwise tree, RMAX and RMIN the largest and the
smallest element (over one lane: that element, a NaN as the quiet NaN, a bf16 subnormal as zero), PSUM lane i the sum of lanes 0 to i, one add at a time; PERM takes the lane that VB names; SORT writes the active lane
numbers in descending order of key; RAND draws from the generator keyed by VA and counted by VB. (A PERM index beyond 1,023 gives a
free value: log 20.) -/
def Obligations.VectorCrossLane : Prop :=
  ∀ (t : TileN) (o : VuArgs) (s : State), s.vuRuns t o →
    let x := s.tile t
    let els := (List.range (o.lanes + 1)).map (fun l => elemOf o.bf (x.lane o.va l))
    let key := fun (l : Nat) => sortKey o.bf (elemOf o.bf (x.lane o.va l))
    let sums := fun (l : Nat) => (List.range l).foldl (fun w k => addF false w (asF32 o.bf (x.lane o.va (k + 1)))) (asF32 o.bf (x.lane o.va 0))
    s.lanesGive (.vuRsum t o) t o (fun _ => fromF32 o.bf (treeSum 10 (x.sumLanes o))) ∧
    s.lanesGive (.vuRmax t o) t o (fun _ => (els.drop 1).foldl (maxF o.bf) (passF o.bf (els.headD 0))) ∧
    s.lanesGive (.vuRmin t o) t o (fun _ => (els.drop 1).foldl (minF o.bf) (passF o.bf (els.headD 0))) ∧
    s.lanesGive (.vuPsum t o) t o (fun l => fromF32 o.bf (passF false (sums l))) ∧
    s.lanesGive (.vuPerm t o) t o (fun l => if (x.lane o.vb l).toNat < 1024 then x.lane o.va (x.lane o.vb l).toNat
      else Config.vuOpen 0x44 (x.lane o.va l) (x.lane o.vb l)) ∧
    (∃ p : List Nat, p.Perm (List.range (o.lanes + 1)) ∧ p.Pairwise (fun i j => key j ≤ key i) ∧
      s.lanesGive (.vuSort t o) t o (fun l => BitVec.ofNat 32 (p.getD l 0))) ∧
    s.lanesGive (.vuRand t o) t o (fun l => if l % 2 = 0 then fromF32 o.bf (draw (x.pair o.va l) (x.pair o.vb l)) else 0)

/-- R126, R130, R178: LD fills the active lanes with elements of the store, LDB with one element; a load that R130 suppresses delivers
zeros and is counted; ST writes the active lanes as elements and no other byte, and no vector register. -/
def Obligations.VectorLoadsAndStores : Prop :=
  ∀ (t : TileN) (o : VuArgs) (off : Nat) (s : State), s.vuRuns t o →
    let n := elemBytes o.bf * (o.lanes + 1)
    ((s.actOk t off n = true ∧ (s.tile t).sound off n = true) →
      s.lanesGive (.vuLd t o off) t o (fun l => elemAt o.bf ((s.tile t).bytes off n) l)) ∧
    ((s.actOk t off (elemBytes o.bf) = true ∧ (s.tile t).sound off (elemBytes o.bf) = true) →
      s.lanesGive (.vuLdb t o off) t o (fun _ => elemAt o.bf ((s.tile t).bytes off (elemBytes o.bf)) 0)) ∧
    (s.actOk t off n = false → s.gives (.vuLd t o off) (fun u =>
      (∀ l ≤ o.lanes.val, (u.tile t).lane o.vd l = 0) ∧
      u.getF (F.tileStoreErrAccess t) = (s.getF (F.tileStoreErrAccess t) + 1) % 2 ^ 16 ∧
      (u.tile t).store = (s.tile t).store ∧ s.tilesKept u t ∧ u.arrays = s.arrays ∧ s.inTiles u)) ∧
    ((s.actOk t off n = true ∧ (partialWords off n).all (s.soundAt t) = true) →
      s.gives (.vuSt t o off) (fun u =>
        (u.tile t).bytes off n = (List.range (o.lanes + 1)).flatMap (fun l => elemOut o.bf ((s.tile t).lane o.va l)) ∧
        (∀ b, (b < off ∨ off + n ≤ b) → (u.tile t).byte b = (s.tile t).byte b) ∧ (u.tile t).vregs = (s.tile t).vregs ∧
        s.regsKept u [(R.ctrTileStatus t).addr, (R.vuChkCnt t).addr, R.logLost.addr] ∧
        s.tilesKept u t ∧ u.arrays = s.arrays ∧ s.inTiles u)) ∧
    ((s.actOk t off n = false ∧ (partialWords off n).all (s.soundAt t) = true) →
      s.gives (.vuSt t o off) (fun u => (u.tile t).store = (s.tile t).store ∧ (u.tile t).vregs = (s.tile t).vregs ∧
        s.tilesKept u t ∧ u.arrays = s.arrays ∧ s.inTiles u))

/-- R83 to R88, R120, R123, R124, R179: QA4 writes the elements, the scale codes, the descriptor counts, the residual mask and, where a
residual exists, the residual elements of its blocks as an operand record, and counts its events for the layer slot and its clamps for
the partition's running request; no byte outside the record changes. (A block coded 0x00 holds 0 elements: log 68.) R473: QA8 writes sixteen runs of 64 elements and a scale, each a record of 128 bytes. -/
def Obligations.QuantisersWriteTheirRecords : Prop :=
  ∀ (t : TileN) (o : VuArgs) (q : QuantArgs) (s : State), s.vuRuns t o →
    let ys := (s.tile t).products o
    let size := qaSeg q.seg
    let bs := (List.range (1024 / size)).map (fun k => quantA4 q.l.toNat q.k q.rr (k * size) ((ys.drop (k * size)).take size))
    let runs := (List.range 16).map (fun r => quantA8 ((ys.drop (64 * r)).take 64))
    let sums := fun (u : State) (sat under clamps toDe : Nat) =>
      u.getF (F.vuQeventSat t q.lslot) = min (s.getF (F.vuQeventSat t q.lslot) + sat) (2 ^ 16 - 1) ∧
      u.getF (F.vuQeventUnder t q.lslot) = min (s.getF (F.vuQeventUnder t q.lslot) + under) (2 ^ 16 - 1) ∧
      u.getF (F.vuOeventClamped t q.lslot) = min (s.getF (F.vuOeventClamped t q.lslot) + clamps) (2 ^ 16 - 1) ∧
      u.getF (F.vuOeventToDe t q.lslot) = min (s.getF (F.vuOeventToDe t q.lslot) + toDe) (2 ^ 16 - 1) ∧
      (∀ n, u.prt n = if n = s.ownerOf t then { s.prt n with clamps := (s.prt n).clamps + clamps } else s.prt n)
    ((s.actOk t q.off 2560 = true ∧ q.off % 512 = 0 ∧ q.k ≤ 16) → s.gives (.qa4 t o q) (fun u =>
      (u.tile t).bytes q.off 512 = nibbles (bs.flatMap (·.elems)) ∧
      (∀ k < bs.length, (u.tile t).byte (q.off + 512 + k) = BitVec.ofNat 8 (bs.getD k {}).code ∧
        (u.tile t).byte (q.off + 528 + k) = BitVec.ofNat 8 (bs.getD k {}).descs.length) ∧
      (∀ k < 16, (fieldAt ((u.tile t).bytes (q.off + 560) 2) 0 2).testBit k = (bs.getD k {}).resid) ∧
      ((∃ b ∈ bs, b.resid = true) → (u.tile t).bytes (q.off + 1024) 512 = nibbles (bs.flatMap (·.relems))) ∧
      ((∀ b ∈ bs, b.resid = false) → (u.tile t).bytes (q.off + 1024) 512 = (s.tile t).bytes (q.off + 1024) 512) ∧
      (u.tile t).bytes (q.off + 1536) (4 * (bs.flatMap (·.descs)).length) =
        (bs.flatMap (·.descs)).flatMap (fun d => leBytes 2 d.1 ++ leBytes 2 d.2) ∧
      sums u (bs.map (·.sat)).sum (bs.map (·.under)).sum (bs.map (·.clamps)).sum (bs.map (·.toDe)).sum ∧
      (∀ b, (b < q.off ∨ q.off + 2560 ≤ b) → (u.tile t).byte b = (s.tile t).byte b) ∧ (u.tile t).vregs = (s.tile t).vregs ∧
      s.tilesKept u t ∧ u.arrays = s.arrays ∧ State.inTiles { s with parts := u.parts } u)) ∧
    ((s.actOk t q.off 2048 = true ∧ q.off % 8 = 0) → s.gives (.qa8 t o q.lslot q.off) (fun u =>
      (∀ r < 16, (u.tile t).bytes (q.off + 128 * r) 128 = (runs.getD r ([], 0, 0, 0)).1) ∧
      sums u (runs.map (fun r => r.2.2.1)).sum (runs.map (fun r => r.2.1)).sum (runs.map (fun r => r.2.2.2)).sum 0 ∧
      (∀ b, (b < q.off ∨ q.off + 2048 ≤ b) → (u.tile t).byte b = (s.tile t).byte b) ∧ (u.tile t).vregs = (s.tile t).vregs ∧
      s.tilesKept u t ∧ u.arrays = s.arrays ∧ State.inTiles { s with parts := u.parts } u))


/-! ## Tile cores -/

/-- R180, Table 6.7: the register operations write rd from rs1 and rs2 or the immediate, modulo 2^32; shifts use rs2[4:0]; MUL and MULH
give the low and the high half of the signed product; ANDI and ORI zero-extend, ADDI sign-extends; LUI shifts by 16; x0 stays 0; NOP
writes nothing. A core in free mode goes on to the next word of its program; a fetch outside the program buffer delivers zeros, which is NOP, and is
counted (R130, R149). -/
def Obligations.TileCoreRegisterOperations : Prop :=
  ∀ (r : TcArgs) (s : State),
    let a := s.tcRs1 r
    let b := s.tcRs2 r
    (s.tcRuns r 0x00 → s.gives (.tcNop r) (fun u => (∀ n : Fin 32, (u.tcore r).reg n = (s.tcore r).reg n) ∧
      (u.tcore r).pc = s.pcAfter r ∧ s.inCore u r.t r.c)) ∧
    ((s.tcLive r.t r.c = true ∧ s.tcInside r.t r.c = false ∧ (r.chk = .pass ∨ r.chk = .replayPassed)) →
      s.gives (.tcNop r) (fun u => (∀ n : Fin 32, (u.tcore r).reg n = (s.tcore r).reg n) ∧
        (u.tcore r).pc = ((s.tcore r).pc + 4) % 2 ^ 32 ∧
        u.getF (F.tileStoreErrAccess r.t) = (s.getF (F.tileStoreErrAccess r.t) + 1) % 2 ^ 16)) ∧
    (s.tcRuns r 0x01 → s.tcSets (.tcAdd r) r (BitVec.ofNat 32 (a.toNat + b.toNat))) ∧
    (s.tcRuns r 0x02 → s.tcSets (.tcSub r) r (BitVec.ofInt 32 (a.toInt - b.toInt))) ∧
    (s.tcRuns r 0x03 → s.tcSets (.tcAnd r) r (a &&& b)) ∧
    (s.tcRuns r 0x04 → s.tcSets (.tcOr r) r (a ||| b)) ∧
    (s.tcRuns r 0x05 → s.tcSets (.tcXor r) r (a ^^^ b)) ∧
    (s.tcRuns r 0x06 → s.tcSets (.tcShl r) r (BitVec.ofNat 32 (a.toNat * 2 ^ (b.toNat % 32)))) ∧
    (s.tcRuns r 0x07 → s.tcSets (.tcShr r) r (BitVec.ofNat 32 (a.toNat / 2 ^ (b.toNat % 32)))) ∧
    (s.tcRuns r 0x08 → s.tcSets (.tcSra r) r (BitVec.ofInt 32 (a.toInt / 2 ^ (b.toNat % 32)))) ∧
    (s.tcRuns r 0x09 → s.tcSets (.tcSlt r) r (if a.toInt < b.toInt then 1 else 0)) ∧
    (s.tcRuns r 0x0A → s.tcSets (.tcSltu r) r (if a.toNat < b.toNat then 1 else 0)) ∧
    (s.tcRuns r 0x0B → s.tcSets (.tcMul r) r (BitVec.ofInt 32 (a.toInt * b.toInt))) ∧
    (s.tcRuns r 0x0C → s.tcSets (.tcMulh r) r (BitVec.ofInt 32 (a.toInt * b.toInt / 2 ^ 32))) ∧
    (s.tcRuns r 0x10 → s.tcSets (.tcAddi r) r (BitVec.ofInt 32 (a.toInt + r.imm.toInt))) ∧
    (s.tcRuns r 0x11 → s.tcSets (.tcAndi r) r (a &&& BitVec.ofNat 32 r.imm.toNat)) ∧
    (s.tcRuns r 0x12 → s.tcSets (.tcOri r) r (a ||| BitVec.ofNat 32 r.imm.toNat)) ∧
    (s.tcRuns r 0x13 → s.tcSets (.tcLui r) r (BitVec.ofNat 32 (r.imm.toNat * 2 ^ 16)))

/-- Table 6.7, R149: on a core in free mode a branch goes to PC + 4 × imm when rd and rs1 compare and to the next word otherwise; JAL
writes PC + 4 to rd and goes to PC + 4 × imm, JR to rs1; HALT stops the core. An op value that Table 6.7 does not name stops it and is
logged. (That BLT and BGE compare signed numbers is the model's reading: log 24.)
R149, R180: a write of TILE_TC_ENTRYk starts a free core at the offset written, with no other effect on it or on any other core. -/
def Obligations.TileCoreControlFlowAndStart : Prop :=
  (
    ∀ (r : TcArgs) (s : State), (s.tcore r).free = true →
      let pc := (s.tcore r).pc
      let next := (pc + 4) % 2 ^ 32
      let target := (((pc : Int) + 4 * r.imm.toInt) % 2 ^ 32).toNat
      let a := s.tcRd r
      let b := s.tcRs1 r
      (s.tcRuns r 0x20 → s.tcGoes (.tcBeq r) r a (if a = b then target else next)) ∧
      (s.tcRuns r 0x21 → s.tcGoes (.tcBne r) r a (if a = b then next else target)) ∧
      (s.tcRuns r 0x22 → s.tcGoes (.tcBlt r) r a (if a.toInt < b.toInt then target else next)) ∧
      (s.tcRuns r 0x23 → s.tcGoes (.tcBge r) r a (if b.toInt ≤ a.toInt then target else next)) ∧
      (s.tcRuns r 0x24 → s.tcGoes (.tcJal r) r (BitVec.ofNat 32 (pc + 4)) target) ∧
      (s.tcRuns r 0x25 → s.tcGoes (.tcJr r) r a b.toNat) ∧
      (s.tcRuns r 0x26 → s.gives (.tcHalt r) (fun u =>
        (u.tcore r).run = false ∧ (∀ n : Fin 32, (u.tcore r).reg n = (s.tcore r).reg n) ∧ s.inCore u r.t r.c)) ∧
      ((s.tcLive r.t r.c = true ∧ tcFormat (bitsOf (s.tcFetch r.t r.c) 31 26) = none ∧
          (s.tcInside r.t r.c = true → (s.tile r.t).sound (s.tcore r).pc 4 = true)) →
        s.gives (.tcRefusedOp r.t r.c) (fun u =>
          (u.tcore r).run = false ∧ (∀ n : Fin 32, (u.tcore r).reg n = (s.tcore r).reg n) ∧
          (s.log.ingest.length < 256 → ∃ e : Entry, u.log.ingest = s.log.ingest ++ [e] ∧ e.source = srcTile r.t (0x82 + r.c)) ∧
          s.inCore u r.t r.c))) ∧ (
    ∀ (t : TileN) (c : Fin 4) (w : Word) (s : State), s.tileOn t = true →
      s.gives (.tileTcEntryWrite t c w) (fun u =>
        u.getR (R.tileTcEntry t c) = w &&& 0x7FFFFC ∧
        (((s.tile t).core c).free = true → ((u.tile t).core c).run = true ∧ ((u.tile t).core c).pc = bitsOf w 22 2 * 4 ∧
          ((u.tile t).core c).regs = ((s.tile t).core c).regs) ∧
        (∀ k, k ≠ c.val → (u.tile t).core k = (s.tile t).core k) ∧ (u.tile t).store = (s.tile t).store ∧
        s.regsKept u [(R.tileTcEntry t c).addr] ∧ s.tilesKept u t ∧ u.arrays = s.arrays ∧ s.inTiles u))

/-- Table 6.7, R126, R130, R180: LD reads the store word that holds rs1 + imm and ST writes it, no other byte of the store and no
register; RDR reads the own-tile register at rs1 + imm, and 0 where the core reaches none; WRR writes a descriptor register and nothing
where it reaches none; PFPUSH queues the descriptor at rs1; SYNOP does its operation at the object's home, goes there as a flit on
VC3 in compatibility mode (R215), and goes to another module as SYNC_REMOTE when rs1[31] is 1. (Which bits of rs1 name the word is the model's reading: log 24.) -/
def Obligations.TileCoreStoreAndRegisters : Prop :=
  ∀ (r : TcArgs) (g : Reg) (s : State),
    let o := (s.tcRs1 r + r.imm.signExtend 32).toNat / 4 * 4
    ((s.tcRuns r 0x18 ∧ s.actOk r.t o 4 = true ∧ (s.tile r.t).sound o 4 = true) →
      s.tcSets (.tcLd r) r (BitVec.ofNat 32 (leNat ((s.tile r.t).bytes o 4)))) ∧
    ((s.tcRuns r 0x18 ∧ s.actOk r.t o 4 = false) → s.gives (.tcLd r) (fun u => s.coreHas u r 0 (s.pcAfter r))) ∧
    ((s.tcRuns r 0x19 ∧ s.actOk r.t o 4 = true ∧ (partialWords o 4).all (s.soundAt r.t) = true) → s.gives (.tcSt r) (fun u =>
      (u.tile r.t).bytes o 4 = leBytes 4 (s.tcRd r).toNat ∧
      (∀ b, (b < o ∨ o + 4 ≤ b) → (u.tile r.t).byte b = (s.tile r.t).byte b) ∧
      (∀ n : Fin 32, (u.tcore r).reg n = (s.tcore r).reg n) ∧ (u.tcore r).pc = s.pcAfter r ∧
      s.regsKept u [(R.ctrTileStatus r.t).addr, R.logLost.addr] ∧ s.tilesKept u r.t ∧ u.arrays = s.arrays ∧ s.inTiles u)) ∧
    ((s.tcRuns r 0x1A ∧ r.chk = .pass ∧ s.tcReg r = some g) → s.gives (.tcRdr r) (fun u =>
      s.coreHas u r (s.regValue g false) (s.pcAfter r) ∧ s.tilesKept u r.t ∧ u.arrays = s.arrays)) ∧
    ((s.tcRuns r 0x1A ∧ s.tcReg r = none) → s.tcSets (.tcRdr r) r 0) ∧
    ((s.tcRuns r 0x1B ∧ g.kind = .pfDesc ∧ s.tcReg r = some g) → s.gives (.tcWrr r) (fun u =>
      u.getR g = writeFields g.kind.fields (s.getR g) (s.tcRd r) ∧ s.coreHas u r (s.tcRd r) (s.pcAfter r) ∧
      s.regsKept u [g.addr, (R.ctrTileStatus r.t).addr, R.logLost.addr] ∧ s.tilesKept u r.t ∧ u.arrays = s.arrays ∧ s.inTiles u)) ∧
    ((s.tcRuns r 0x1B ∧ s.tcReg r = none) → s.tcSets (.tcWrr r) r (s.tcRd r)) ∧
    (let p := r.imm.toNat % 16
     let d := (s.tcRs1 r).toNat
     (s.tcRuns r 0x1D ∧ s.pfOpen r p = true ∧ s.actOk r.t d 28 = true ∧ (s.tile r.t).sound d 28 = true ∧
        ((s.tile r.t).pfSt p).queue.length < 4) → s.gives (.pfpush r) (fun u =>
      ((u.tile r.t).pfSt p).queue = ((s.tile r.t).pfSt p).queue ++ [pfDescOf ((s.tile r.t).bytes d 28)] ∧
      u.getF (F.pfStatusQueued r.t p) = ((s.tile r.t).pfSt p).queue.length + 1 ∧ (u.tile r.t).store = (s.tile r.t).store ∧
      s.coreHas u r (s.tcRd r) (s.pcAfter r) ∧ s.tilesKept u r.t ∧ u.arrays = s.arrays ∧ s.inTiles u)) ∧
    (let ob := (s.tcRs1 r).toNat
     let w := s.getR (R.syncObj ob)
     ((s.tcRuns r 0x1C ∧ r.rd.val % 16 = opSignal ∧ ob < 16384 ∧ (s.tcRs2 r).toNat < 16384 ∧
        s.opOk (s.ownerOf r.t) opSignal ob = true ∧ s.compat (s.ownerOf r.t) = false ∧ (∀ x ∈ s.syncWaits, x.obj ≠ ob)) → s.gives (.synop r) (fun u =>
      u.getR (R.syncObj ob) = BitVec.ofNat 32 (min (w.toNat + (s.tcRs2 r).toNat) 0xFFFFFFFF) ∧
      s.coreHas u r (s.tcRd r) (s.pcAfter r) ∧ s.tilesKept u r.t ∧ u.arrays = s.arrays ∧ s.inTiles u)) ∧
     ((s.tcRuns r 0x1C ∧ r.rd.val % 16 = opSignal ∧ ob < 16384 ∧ s.compat (s.ownerOf r.t) = true) → s.gives (.synop r) (fun u =>
      (u.router r.t).inj = (s.router r.t).inj ++ [s.compatFlit (s.ownerOf r.t) 0x20 (homeOf ob) r.t
        (BitVec.ofNat 32 (opSignal * 2 ^ 28 + ob * 2 ^ 14 + (s.tcRs2 r).toNat % 16384))] ∧
      u.getR (R.syncObj ob) = w ∧ s.coreHas u r (s.tcRd r) (s.pcAfter r) ∧ s.tilesKept u r.t ∧ u.arrays = s.arrays)) ∧
     ((s.tcRuns r 0x1C ∧ r.rd.val % 16 = opSignal ∧ (s.tcRs1 r).getLsbD 31 = true) → s.gives (.synop r) (fun u =>
      (∃ m : LinkMsg, u.linkOut = s.linkOut ++ [m] ∧ m.cls = 7 ∧ m.stream = 0x0010 ∧ m.part = s.ownerOf r.t ∧
        m.dest = s.redirect (bitsOf (s.tcRs1 r) 25 16) ∧
        m.payload = leBytes 2 (bitsOf (s.tcRs1 r) 13 0) ++ leBytes 1 opSignal ++ leBytes 1 0 ++ leBytes 4 (s.tcRs2 r).toNat) ∧
      s.coreHas u r (s.tcRd r) (s.pcAfter r) ∧ s.regsKept u [(R.ctrTileStatus r.t).addr, R.logLost.addr] ∧ s.tilesKept u r.t ∧
      u.syncWaits = s.syncWaits ∧ u.arrays = s.arrays)))


/-! ## The beat program and the cadence -/

/-- R163, R164, R165, R174, R459: a sequencer that the cadence has not released does nothing; in locked cadence an idle run goes on one
position, a slack run of n beats min(λ, n) positions at once where the tile lags, an IDLE record and a beat word without actions do the same and move past their word; a beat word whose word is not in the
program buffer, or one of whose actions cannot issue, waits with none of its actions and stays at its position; a beat word whose
actions can all issue (no synchronisation and no tile core among them) issues them all, each with its effect, and moves past its word. -/
def Obligations.SequencerStepsThroughItsWindow : Prop :=
  ∀ (t : TileN) (s : State),
    let q := (s.tile t).seq
    let stays := fun (u : State) => u.getF (F.tileSeqPosPos t) = s.getF (F.tileSeqPosPos t) ∧ (u.tile t).seq.off = q.off ∧
      (u.tile t).seq.waits = q.waits + 1 ∧ (u.tile t).seq.paced = true ∧ (u.tile t).store = (s.tile t).store
    let moves := fun (u : State) (off left : Nat) => u.getF (F.tileSeqPosPos t) = s.getF (F.tileSeqPosPos t) + 1 ∧
      (u.tile t).seq.off = off ∧ (u.tile t).seq.runLeft = left ∧ (u.tile t).seq.paced = true ∧ (u.tile t).seq.ended = false ∧
      (u.tile t).store = (s.tile t).store ∧ (u.tile t).vregs = (s.tile t).vregs ∧ u.arrays = s.arrays ∧ s.tilesKept u t ∧ s.inTiles u
    let masks := q.masks
    (s.tileRuns t = false → exec (.beatWordIssue t) s = .next s) ∧
    ((s.tileRuns t = true ∧ (s.tile t).deRun = none ∧ (s.seqReleased t = false ∨ s.seqRuns t = false)) →
      exec (.beatWordIssue t) s = .next (if s.locked then s else s.serveFabric)) ∧
    ((s.locked = true ∧ s.tileRuns t = true ∧ (s.tile t).deRun = none ∧ s.seqRuns t = true ∧ s.seqReleased t = true ∧ q.ended = false ∧
        s.getF (F.tileSeqPosPos t) + 1 < min s.winLen (2 ^ 16)) →
      (∀ k, q.runLeft = k + 1 → s.gives (.beatWordIssue t) (fun u => moves u q.off k)) ∧
      (∀ w, (q.runLeft = 0 ∧ s.seqWord t q.off = some w) →
        (bitsOf w 31 30 = 1 → s.gives (.beatWordIssue t) (fun u => moves u (q.off + 4) (bitsOf w 15 0))) ∧
        (bitsOf w 31 30 = 2 →
          let n := bitsOf w 15 0 + 1
          let c := min (s.lag t) n
          (c = 0 → s.gives (.beatWordIssue t) (fun u => moves u (q.off + 4) (n - 1))) ∧
          ((0 < c ∧ s.getF (F.tileSeqPosPos t) + c < min s.winLen (2 ^ 16)) → s.gives (.beatWordIssue t) (fun u =>
            u.getF (F.tileSeqPosPos t) = s.getF (F.tileSeqPosPos t) + c ∧ (u.tile t).seq.off = q.off + 4 ∧
            (u.tile t).seq.runLeft = n - c ∧ (u.tile t).seq.paced = false ∧ (u.tile t).store = (s.tile t).store ∧
            u.arrays = s.arrays ∧ s.tilesKept u t ∧ s.inTiles u))) ∧
        ((bitsOf w 31 30 = 0 ∧ bitsOf w 10 0 = 0) → s.gives (.beatWordIssue t) (fun u => moves u (q.off + 4) 0)) ∧
        (∀ ws sl r, (bitsOf w 31 30 = 0 ∧ s.seqWords t (q.off + 4) ((slotUnits 0 (bitsOf w 10 0)).map slotWords).sum = some ws ∧
            takeSlots (slotUnits 0 (bitsOf w 10 0)) ws = some (sl, r)) →
          (Ready.all (sl.map (fun x => s.actReady t (s.slotAct t masks x))) ≠ .ok → s.gives (.beatWordIssue t) stays) ∧
          ((Ready.all (sl.map (fun x => s.actReady t (s.slotAct t masks x))) = .ok ∧ (∀ x ∈ sl, x.unit ≠ 9 ∧ x.isTc = false)) →
            let v := sl.foldl (fun v x => let a := s.slotAct t masks x; (a.run v).issued t a.unit a.occ) s
            s.gives (.beatWordIssue t) (fun u =>
              u.arrays = v.arrays ∧ u.hbm = v.hbm ∧ u.routers = v.routers ∧ u.ports = v.ports ∧ (u.tile t).store = (v.tile t).store ∧
              (u.tile t).vregs = (v.tile t).vregs ∧ (u.tile t).deWide = (v.tile t).deWide ∧ v.tilesKept u t ∧
              (u.tile t).seq.off = q.off + 4 + 4 * ws.length ∧ (u.tile t).seq.paced = true ∧ (u.tile t).seq.waits = 0 ∧
              (v.pos t + 1 < min v.winLen (2 ^ 16) → u.getF (F.tileSeqPosPos t) = v.pos t + 1 ∧ (u.tile t).seq.ended = false) ∧
              (v.winLen ≤ v.pos t + 1 → u.getF (F.tileSeqPosPos t) = 0 ∧ (u.tile t).seq.ended = true))))) ∧
      ((q.runLeft = 0 ∧ s.seqWord t q.off = none) → s.gives (.beatWordIssue t) (fun u =>
        stays u ∧ (u.tile t).seq.waitLast = 1 ∧ u.regs = s.regs ∧ u.arrays = s.arrays ∧ s.tilesKept u t ∧ s.inTiles u)))

/-- R159, R163, R168: in locked cadence a release counts one beat and nothing else of the cadence, and while the boundary of a new window
has not taken place it waits (the beat's flits and RUNs are left out here: no router holds a flit, no DE a RUN). R158, R168: at a boundary the window goes on by one: in locked cadence at the beat, in free cadence once
every tile has reached the window's end, and the beat count then stands at the new window's first beat.
R186: ARM is set when the staged map passes its checks, ERR otherwise and the map is not armed, and clearing ARM disarms it; the map in force does not change.
R185: a grant of a link engine in the owner's turn, in locked cadence, is the stream's grant of the beat; a grant of an HBM engine adds
its bursts to the partition's. -/
def Obligations.CadenceWindowsMapsAndGrants : Prop :=
  (
    ∀ (margin : Nat) (s : State),
      ((s.locked = true ∧ s.pwr.stopped = false ∧ s.beatOpen = true ∧ s.routers = [] ∧ (∀ t, (s.tile t).deRun = none)) →
        s.gives .cadenceRelease (fun u =>
        u.cad = { s.cad with beat := s.cad.beat + 1, ps := s.cad.ps + ((s.cad.beat + 1).toNat - s.cad.beat.toNat) * s.period } ∧
        u.arrays = s.arrays ∧ u.hbm = s.hbm)) ∧
      ((s.locked = false ∨ s.pwr.stopped = true ∨ s.beatOpen = false) → exec .cadenceRelease s = .next s) ∧
      ((s.pwr.stopped = true ∨ (s.locked = true ∧ s.beatOpen = true) ∨
          (s.locked = false ∧ (s.runTiles.all (fun t => s.reachedEnd t s.progNow)) = false)) → exec (.windowBoundary margin) s = .next s) ∧
      ((s.pwr.stopped = false ∧ s.pwr.running ≠ some .warm ∧ s.pwr.ejecting = false) →
        ((s.locked = true ∧ s.beatOpen = false) → s.gives (.windowBoundary margin) (fun u =>
          u.cad.edge = s.win ∧ u.cad.beat = s.cad.beat)) ∧
        ((s.locked = false ∧ s.runTiles.all (fun t => s.reachedEnd t s.progNow) = true) → s.gives (.windowBoundary margin) (fun u =>
          u.cad.edge = s.cad.edge + 1 ∧ u.cad.beat = BitVec.ofNat 64 ((s.cad.edge + 1) * s.winLen))))) ∧ (
    ∀ (w : Word) (p : PortN) (stream : BitVec 16) (flits : BitVec 8) (c : Fin 2) (n : PartN) (bursts : BitVec 12) (s : State),
      s.gives (.glbTmapCtrlArm w) (fun u =>
        (w.getLsbD 0 = false → u.flag F.glbTmapCtrlArm = false) ∧
        ((w.getLsbD 0 = true ∧ s.tmapOk = true) → u.flag F.glbTmapCtrlArm = true) ∧
        ((w.getLsbD 0 = true ∧ s.tmapOk = false) → u.flag F.glbTmapCtrlErr = true ∧ u.flag F.glbTmapCtrlArm = false) ∧
        s.regsKept u [R.glbTmapCtrl.addr] ∧ u = { s with regs := u.regs }) ∧
      s.gives (.linkEngineGrant p stream flits n) (fun u =>
        ((s.locked = true ∧ s.portOwner p (s.cad.beat.toNat % s.winLen) = n) →
          Sparse.get (fun _ => 0) (u.port p).grant (16 * stream.toNat + n) = flits.toNat) ∧
        ((s.locked = false ∨ s.portOwner p (s.cad.beat.toNat % s.winLen) ≠ n) → u = s) ∧
        (u.port p).rxBuf = (s.port p).rxBuf ∧ s.portsKept u p ∧ u = { s with ports := u.ports }) ∧
      s.gives (.hbmEngineGrant c n bursts) (fun u =>
        (u.prt n).hbmGrantW = (s.prt n).hbmGrantW + (if c = 0 then bursts.toNat else 0) ∧
        (u.prt n).hbmGrantE = (s.prt n).hbmGrantE + (if c = 0 then 0 else bursts.toNat) ∧
        s.partsKept u n ∧ u = { s with parts := u.parts }))

/-- R188, R189, R190, R175: PROG_START of a loaded program names the start window and answers later; in that window, once the buffers
hold what they must, the program runs: STATE is 2, PART_PROG_START the window, and SEQ_RUN is set in every tile of the program; PROG_STOP
stops it at the end of the current window and answers later; PROG_VARIANT writes VARIANT_NEXT; each is refused in the wrong state. -/
def Obligations.ProgramsStartAndStop : Prop :=
  ∀ (h : CmdHdr) (window : BitVec 64) (n : PartN) (v : Byte) (s : State),
    let p := h.part.val
    (s.accepts h true false →
      ((s.partState p = 1 ∧ s.progState p = 1 ∧ (s.prt p).startWin = none ∧ (s.prt p).hold = none ∧ s.arraysLoaded p = true ∧
          (s.locked = true → s.cad.running = true) ∧ (window = 0 ∨ s.startEarliest ≤ window.toNat)) → s.gives (.progStart h window) (fun u =>
        s.started u h 0x0402 0 ∧
        (u.prt p).startWin = some (if window = 0 ∨ s.locked = false then s.startEarliest else window.toNat) ∧
        u.progState p = 1 ∧ u.hbm = s.hbm ∧ u.arrays = s.arrays)) ∧
      ((s.partState p = 1 ∧ s.progState p = 0 ∧ (window = 0 ∨ s.startEarliest ≤ window.toNat)) → s.gives (.progStart h window) (fun u =>
        s.answered u h stWrongState 0 [] ∧ s.dataKept u)) ∧
      (2 ≤ s.progState p → s.gives (.progStop h) (fun u =>
        s.started u h 0x0403 0 ∧ (u.prt p).stopWin = some s.cad.edge ∧ u.progState p = 3 ∧ s.dataKept u)) ∧
      (s.progState p < 2 → s.gives (.progStop h) (fun u => s.answered u h stWrongState 0 [] ∧ s.dataKept u)) ∧
      (∀ g, (2 ≤ s.progState p ∧ (s.prt p).prog = some g ∧ v.toNat < g.variants ∧ v.toNat < 4) → s.gives (.progVariant h v) (fun u =>
        s.started u h 0x0404 0 ∧ u.getF (F.partProgCtrlVariantNext p) = v.toNat ∧ s.regsKept u [(R.partProgCtrl p).addr] ∧
        u.parts = s.parts ∧ s.dataKept u))) ∧
    (∀ z, ((s.prt n).startWin = some z ∧ s.progState n = 1 ∧ s.cad.held = 0 ∧ (s.locked = true → s.cad.running = true) ∧
        (s.prt n).wgt.loading = []) →
      ((s.progTiles n).all (fun e => (s.tile e.1).seq.part = n.val && s.firstHeld e.1 e.2) = true →
        (z ≤ s.cad.edge → s.gives (.programStart n) (fun u =>
          u.progState n = 2 ∧ u.getR (R.partProgStart n) = BitVec.ofNat 32 z ∧ (u.prt n).startWin = none ∧ (u.prt n).progWin = 0 ∧
          (∀ e ∈ s.progTiles n, u.flag (F.tileStatusSeqRun e.1) = true ∧ (u.tile e.1).seq.progWin = 0 ∧
            (u.tile e.1).store = (s.tile e.1).store) ∧ u.hbm = s.hbm ∧ u.arrays = s.arrays)) ∧
        (s.cad.edge < z → exec (.programStart n) s = .next s)))


/-! ## The fabric and the rime net -/

/-- R192, R194, R196, R197, R200, R202, R203, R211: a flit that fails its parity check is discarded with every later one of its channel until it
comes again, and counted; one to no fabric endpoint sets BAD_DEST; one of a partition in reset is discarded; at the hub a flit to an edge endpoint leaves for it at
once, and a port where its partition has no share refuses it with BAD_DEST; a sound flit goes on to the
next node of its route when its output has a credit, and waits in its buffer when it has none. A flit that its sender has
not sent, or for which an injection queue or edge input has no place, is not received. -/
def Obligations.FabricFlitsArriveAndGo : Prop :=
  ∀ (node : NodeN) (dir : Fin 5) (f : Flit) (s : State),
    let n := node.val
    let i := inputOf n dir.val f
    let key := 4 * i + f.vc
    ((s.nodeOn n = false ∨ s.mayArrive n i f = false) → ∀ ok, exec (.flitReceive node dir f ok) s = .next s) ∧
    ((s.nodeOn n = true ∧ s.mayArrive n i f = true) →
    ((Sparse.get (fun _ => 0) (s.router n).retries key < 2 ∧
        (∀ e, (s.router n).discarding.find? (fun e => e.1 = key) = some e → e.2 = f)) → s.gives (.flitReceive node dir f false) (fun u =>
      (u.router n).bufs = (s.router n).bufs ∧ (u.router n).sent = (s.router n).sent ∧ (key, f) ∈ (u.router n).discarding ∧
      Sparse.get (fun _ => 0) (u.router n).retries key = Sparse.get (fun _ => 0) (s.router n).retries key + 1 ∧
      ((n < 96 ∧ seamInput n i = none) → u.getF (F.netRstatReplays n) = (s.getF (F.netRstatReplays n) + 1) % 2 ^ 16) ∧
      (∀ k, k ≠ n → u.router k = s.router k) ∧ u.tiles = s.tiles ∧ u.arrays = s.arrays ∧ u.hbm = s.hbm)) ∧
    (∀ g, ((s.router n).discarding.find? (fun e => e.1 = key) = some (key, g) ∧ g ≠ f) →
      ∀ ok, exec (.flitReceive node dir f ok) s = .next s) ∧
    (f.sound = false → exec (.flitReceive node dir f true) s = exec (.flitReceive node dir f false) s) ∧
    (((s.router n).discarding.find? (fun e => e.1 = key) = none ∧ f.sound = true) →
      (route n f = none → s.gives (.flitReceive node dir f true) (fun u =>
        u.flag F.netStatusBadDest = true ∧ (u.router n).bufs = (s.router n).bufs ∧ u.tiles = s.tiles ∧ u.arrays = s.arrays ∧
        u.hbm = s.hbm)) ∧
      ((route n f ≠ none ∧ s.discards f.part = true) → s.gives (.flitReceive node dir f true) (fun u =>
        (u.router n).bufs = (s.router n).bufs ∧ u.tiles = s.tiles ∧ u.arrays = s.arrays ∧ u.hbm = s.hbm ∧
        (n < 96 → u.getF (F.netRstatDiscards n) = min (s.getF (F.netRstatDiscards n) + 1) (2 ^ 8 - 1)))) ∧
      (∀ o, (route n f = some o ∧ 128 ≤ o ∧ s.discards f.part = false ∧ (s.router n).bufs = [] ∧ f.vc ≠ 3 ∧
          (f.vc ≠ 2 ∨ s.adds n f.rid = false)) → s.gives (.flitReceive node dir f true) (fun u =>
        (u.router n).bufs = [] ∧ (u.router n).sent = (s.router n).sent ∧ u.tiles = s.tiles ∧ u.arrays = s.arrays ∧ u.hbm = s.hbm ∧
        ((f.part ≠ 0 ∧ f.dest ≤ 0x6F ∧ s.getF (F.partLinkShareEntries f.part (f.dest - 0x60)) = 0) →
          u.flag F.netStatusBadDest = true))) ∧
      (∀ o, (route n f = some o ∧ o ≠ 0 ∧ o < 128 ∧ s.discards f.part = false ∧ (s.router n).bufs = [] ∧ (f.vc ≠ 2 ∨ s.adds n f.rid = false) ∧
          (∀ k, (k, f) ∉ (s.router n).sent)) →
        (s.hasCredit n o f.vc = true → s.gives (.flitReceive node dir f true) (fun u =>
          (o, f) ∈ (u.router n).sent ∧ (u.router n).bufs = [] ∧
          ((n < 96 ∧ o ≤ 4) → u.getF (credField n o f.vc) = s.getF (credField n o f.vc) - 1) ∧
          u.tiles = s.tiles ∧ u.arrays = s.arrays ∧ u.hbm = s.hbm)) ∧
        (s.hasCredit n o f.vc = false → s.gives (.flitReceive node dir f true) (fun u =>
          (u.router n).buf i f.vc = [f] ∧ (u.router n).sent = (s.router n).sent ∧ u.tiles = s.tiles ∧ u.arrays = s.arrays ∧
          u.hbm = s.hbm ∧ u.regs = s.regs)))))

/-- R182, R193, R205, R206, R208: RSEND and RSENDI send the flits of their lines, or of a result entry, the first of them behind those
that wait in the injection queue, the others as it empties, and name the landing line at the destination; a router that has one flit of the round at every input its context names
adds them in the order local, west, north, east, south, and sends the one sum once its output has a credit; a flit that lands once its object is 0 is in the store
where an action may write, and nowhere else, and LAST signals the object. -/
def Obligations.ReductionsAreSentAddedAndLanded : Prop :=
  ∀ (t : TileN) (a : NetArgs) (rid : BitVec 8) (s : State), s.tileRuns t = true →
    (∀ d, (a.fromArr = none ∧ a.queue = none ∧ s.phys a.dest = some d ∧ ((s.router t).buf 0 2).length < 4 ∧
        (∀ f ∈ (s.router t).inj, f.vc ≠ 2) ∧ s.actOk t (512 * a.addr.val) (512 * (a.lines.val + 1)) = true ∧
        (s.tile t).sound (512 * a.addr.val) (512 * (a.lines.val + 1)) = true) →
      let sent := fun (u : State) (int : Bool) =>
        let fs := netFlits (s.ownerOf t) d t a.rid.toNat int s.win ((s.tile t).bytes (512 * a.addr.val) (512 * (a.lines.val + 1)))
        (u.router t).buf 0 2 = (s.router t).buf 0 2 ++ fs.take 1 ∧ (u.router t).inj.filter (fun f => f.vc = 2) = fs.drop 1 ∧
        Sparse.get (fun _ => 0) (u.router d).landing a.rid.toNat = a.addr.val ∧ (u.tile t).store = (s.tile t).store ∧
        u.arrays = s.arrays ∧ s.tilesKept u t ∧ u.hbm = s.hbm
      s.gives (.rsend t a) (fun u => sent u false) ∧ s.gives (.rsendi t a) (fun u => sent u true)) ∧
    (∀ k d r, (a.fromArr = some k ∧ s.phys a.dest = some d ∧ ((s.router t).buf 0 2).length < 4 ∧
        (∀ f ∈ (s.router t).inj, f.vc ≠ 2) ∧ s.netResult t k = some r) →
      s.gives (.rsend t a) (fun u =>
        (u.arr t k).resQ = ((s.arr t k).resQ).drop 1 ∧
        ((u.router t).buf 0 2).length + ((u.router t).inj.filter (fun f => f.vc = 2)).length =
          ((s.router t).buf 0 2).length + (4 * r.vals.length + 127) / 128 ∧
        s.arraysKept u [128 * t.val + k.val] ∧ s.tilesKept u t ∧ u.hbm = s.hbm)) ∧
    (∀ i f j g hs o, (s.redHeads t rid.toNat = some ((i, f) :: (j, g) :: hs) ∧ route t f = some o ∧ o ≠ 0 ∧
        (∀ e ∈ (i, f) :: (j, g) :: hs, e.2.vc = 2) ∧ (s.router t).added = [] ∧
        (∀ e ∈ (s.router t).bufs, ∃ h ∈ (i, f) :: (j, g) :: hs, e = (4 * h.1 + 2, [h.2]))) →
      let q := (redSum f (g :: hs.map Prod.snd)).1
      (s.hasCredit t o 2 = true → s.gives (.reductionAdd t rid .pass) (fun u =>
        (o, q) ∈ (u.router t).sent ∧ (u.router t).bufs = [] ∧ u.arrays = s.arrays ∧ u.hbm = s.hbm)) ∧
      (s.hasCredit t o 2 = false → s.gives (.reductionAdd t rid .pass) (fun u =>
        (u.router t).buf i 2 = [q] ∧ (∀ e ∈ (j, g) :: hs, (u.router t).buf e.1 2 = []) ∧ (u.router t).sent = (s.router t).sent ∧
        u.arrays = s.arrays ∧ u.hbm = s.hbm))) ∧
    (∀ f, (roundFlits ((s.router t).eject.filter (fun f => f.rid = rid.toNat)) = [f] ∧ f.last = true ∧ f.part < 16 ∧
        s.compat (s.ownerOf t) = false ∧ s.getR (R.syncObj (s.landingObj f.part rid.toNat)) = 0 ∧ s.opOk 0 opSignal (s.landingObj f.part rid.toNat) = true ∧
        (∀ x ∈ s.syncWaits, x.obj ≠ s.landingObj f.part rid.toNat)) →
      let at_ := 512 * Sparse.get (fun _ => 0) (s.router t).landing rid.toNat + 128 * f.seq
      s.gives (.reductionLanding t rid) (fun u =>
        (if s.actOk t at_ 128 = true then (u.tile t).bytes at_ 128 = leBytes 128 f.payload.toNat
         else (u.tile t).store = (s.tile t).store) ∧
        (∀ b, (b < at_ ∨ at_ + 128 ≤ b) → (u.tile t).byte b = (s.tile t).byte b) ∧
        u.getR (R.syncObj (s.landingObj f.part rid.toNat)) = 1 ∧ (u.router t).eject = (s.router t).eject.erase f ∧
        s.tilesKept u t ∧ u.arrays = s.arrays ∧ u.hbm = s.hbm))

/-- R213, R243, R255, R365: FAULT logs its code, EVENT an information entry, an unknown rime type one discard and a log entry, an
unknown management subtype a log entry, and nothing else changes; LATE sends one report for a window to each master, with the lag and the supply's part
that the deadline check kept; CADENCE puts the
stretch of a mark in force, STRETCH a request in free cadence, and at its announced beat the next stretch takes effect.
R214, R416, R462: a rime message with an apply beat is kept until that beat, once, but a TILE_RESET while a module reset or one of the
tile's partition runs; at it FREEZE stops the counters, UNFREEZE starts them
and SNAPSHOT takes them into their shadows; no message takes effect before its beat. -/
def Obligations.RimeMessagesAndApplyBeats : Prop :=
  (
    ∀ (src : Byte) (n : PartN) (code dtl : BitVec 16) (type : BitVec 6) (slot : SlotN) (t : TileN) (window : Word) (b : BitVec 64)
        (pct : Byte) (s : State),
      s.gives (.fault src n code dtl) (fun u => s.logs u (src.toNat * 256 + 0xFF) code.toNat n dtl.toNat ∧ s.onlyLogs u) ∧
      s.gives (.event src n code) (fun u => s.logs u (src.toNat * 256 + 0xFF) 0x1502 n code.toNat ∧ s.onlyLogs u) ∧
      s.gives (.rimeUnknownType src type) (fun u =>
        u.getF F.rimeStatusDiscards = (s.getF F.rimeStatusDiscards + 1) % 2 ^ 16 ∧
        s.logs u (src.toNat * 256 + 0xFF) (code14 7) 0xFF type.toNat ∧ s.regsKept u [R.rimeStatus.addr, R.logLost.addr] ∧
        u = { s with log := u.log, regs := u.regs }) ∧
      s.gives (.managementUnknownSubtype slot code) (fun u =>
        s.logs u srcCtl (code14 7) 0xFF (detail (code14 7) [slot.val, code.toNat]) ∧ s.onlyLogs u) ∧
      ((s.locked = true ∧ (s.win / 2 ^ 32 * 2 ^ 32 + window.toNat) ∉ s.cad.lateSent) → s.gives (.late t window) (fun u =>
        (∃ l : List LinkMsg, u.linkOut = s.linkOut ++ l ∧ l.length = s.masters.length ∧
          ∀ m ∈ l, m.cls = 4 ∧ m.stream = 2 ∧ m.payload.take 8 = leBytes 8 (s.win / 2 ^ 32 * 2 ^ 32 + window.toNat) ∧
            ∀ w lag supply, s.cad.lateNotes.find? (fun e => e.1 = s.win / 2 ^ 32 * 2 ^ 32 + window.toNat) = some (w, lag, supply) →
              m.payload.drop 8 = leBytes 4 lag ++ leBytes 1 (bit supply) ++ leBytes 3 0) ∧
        (s.win / 2 ^ 32 * 2 ^ 32 + window.toNat) ∈ u.cad.lateSent ∧ u.regs = s.regs ∧ s.dataKept u)) ∧
      ((s.locked = false ∨ (s.win / 2 ^ 32 * 2 ^ 32 + window.toNat) ∈ s.cad.lateSent) → exec (.late t window) s = .next s) ∧
      (s.locked = true → s.gives (.cadence b pct) (fun u =>
        u.getF F.cadStretchInForce = pct.toNat ∧ s.regsKept u [R.cadStretch.addr] ∧ u = { s with regs := u.regs })) ∧
      (s.locked = false → s.gives (.stretch pct) (fun u =>
        u.getF F.cadStretchInForce = pct.toNat ∧ u.getF F.cadStretchLocalReq = pct.toNat ∧ s.regsKept u [R.cadStretch.addr] ∧
        u = { s with regs := u.regs })) ∧
      (∀ k, s.cad.stretchAt = some k →
        (k ≤ s.cad.beat.toNat → s.gives .stretchChange (fun u =>
          u.getF F.cadStretchInForce = s.cad.nextStretch % 256 ∧ u.flag F.cadStretchPending = false ∧ u.cad.stretchAt = none ∧
          s.regsKept u [R.cadStretch.addr] ∧ s.dataKept u)) ∧
        (s.cad.beat.toNat < k → exec .stretchChange s = .next s))) ∧ (
    ∀ (t : TileN) (n : PartN) (b : BitVec 64) (s : State),
      let kept := fun (c : Instr) (m : RimeMsg) => ((b, m) ∉ s.rime → exec c s = .next { s with rime := s.rime ++ [(b, m)] }) ∧
        ((b, m) ∈ s.rime → exec c s = .next s)
      kept (.freeze b) ⟨0x01, 0xFF, 0x72, 0, []⟩ ∧ kept (.snapshot b) ⟨0x02, 0xFF, 0x72, 0, []⟩ ∧
      kept (.unfreeze b) ⟨0x03, 0xFF, 0x72, 0, []⟩ ∧ kept (.partBegin n b) ⟨0x08, 0xFF, 0x72, n, []⟩ ∧
      kept (.partEnd n b) ⟨0x09, 0xFF, 0x72, n, []⟩ ∧ 
      ((s.pwr.running = none ∧ (s.prt (s.ownerOf t)).resetting = false) → kept (.tileReset t b) ⟨0x0A, t, 0x72, 0, []⟩) ∧
      ((s.pwr.running ≠ none ∨ (s.prt (s.ownerOf t)).resetting = true) → exec (.tileReset t b) s = .next s) ∧
      ((∀ e ∈ s.rime, s.cad.beat.toNat < e.1.toNat) → s.gives .applyBeat (fun u => u = s)) ∧
      (∀ type rest, (s.rime = (b, ⟨type, 0xFF, 0x72, 0, []⟩) :: rest ∧ b.toNat ≤ s.cad.beat.toNat ∧
          (∀ e ∈ rest, s.cad.beat.toNat < e.1.toNat)) →
        (type = 1 → s.gives .applyBeat (fun u => u.frozen = true ∧ u.rime = rest ∧ u.ctr = s.ctr ∧
          s.regsKept u [R.ctrSnapCause.addr] ∧ s.dataKept u)) ∧
        (type = 2 → s.gives .applyBeat (fun u => u.ctrGet R.ctrSnapBeatLo.addr = b ∧ u.flag F.ctrSnapCauseCause = false ∧
          u.frozen = s.frozen ∧ u.rime = rest ∧ s.dataKept u)) ∧
        (type = 3 → s.gives .applyBeat (fun u => u.frozen = false ∧ u.rime = rest ∧ u.ctr = s.ctr ∧
          s.regsKept u [R.ctrSnapCause.addr] ∧ s.dataKept u))))

/-! ## Links -/

/-- R220, R222, R223, R227, R230, R231, R235, R255: a port that is up keeps an accepted data flit of a running partition in its buffer
and expects the next number; one of a partition without a running program is discarded; a single-flit message of another class is handed
to its unit, a management message shorter than its layout discarded and logged; a flit whose parity is wrong, that has a word in an
uncorrectable codeword, or that comes after a missing one, makes the port ask once for the number it expects; a class that Table 8.3 does
not name sets BAD_CLASS; codewords are counted; a port that is not up takes nothing. -/
def Obligations.LinkFlitsArrive : Prop :=
  ∀ (p : PortN) (f : LFlit) (e : FecNote) (s : State),
    let x := s.port p
    let asks := fun (u : State) => (u.port p).control = x.control ++ [(1, leBytes 2 x.rxSeq.toNat)] ∧ (u.port p).gap = true ∧
      (u.port p).rxSeq = x.rxSeq ∧ (u.port p).rxBuf = x.rxBuf ∧
      u.getF (F.portReplayRequested p) = (s.getF (F.portReplayRequested p) + 1) % 2 ^ 16
    let rest := fun (u : State) => s.portsKept u p ∧ u.hbm = s.hbm ∧ u.arrays = s.arrays ∧ u.tiles = s.tiles
    let good := f.sound = true ∧ e.hit = false
    (s.portUp p = false → exec (.linkFlitReceive p f e) s = .next s) ∧
    (s.portUp p = true → s.gives (.linkFlitReceive p f e) (fun u =>
      u.getF (F.portFecUncorrectable p) = (s.getF (F.portFecUncorrectable p) + e.bad.length) % 2 ^ 16 ∧
      u.getF (F.portFecCorrected p) = (s.getF (F.portFecCorrected p) + e.fixed.length) % 2 ^ 16 ∧ rest u)) ∧
    ((s.portUp p = true ∧ s.failingLanes p = 0 ∧ e.bad = [] ∧ e.fixed = [] ∧ e.markers = []) →
      ((¬ good ∧ f.cls ≠ 0 ∧ f.cls ≠ 8 ∧ x.gap = false) → s.gives (.linkFlitReceive p f e) (fun u =>
        asks u ∧ u.parts = s.parts ∧ rest u)) ∧
      ((good ∧ f.cls ≠ 0 ∧ f.cls ≤ 7 ∧ later f.seq x.rxSeq = true ∧ x.gap = false) → s.gives (.linkFlitReceive p f e) (fun u =>
        asks u ∧ u.parts = s.parts ∧ rest u)) ∧
      ((good ∧ 9 ≤ f.cls) → s.gives (.linkFlitReceive p f e) (fun u =>
        u.flag (F.portStatusBadClass p) = true ∧ (u.port p).rxSeq = x.rxSeq ∧ (u.port p).rxBuf = x.rxBuf ∧ u.parts = s.parts ∧ rest u)) ∧
      ((good ∧ (f.cls = 1 ∨ f.cls = 2) ∧ f.seq = x.rxSeq ∧ s.running f.part = true ∧ s.discards f.part = false) →
        s.gives (.linkFlitReceive p f e) (fun u =>
          (u.port p).rxBuf = x.rxBuf ++ [f] ∧ (u.port p).rxSeq = x.rxSeq + 1 ∧ (u.port p).gap = false ∧ (u.port p).freed = x.freed ∧
          ((f.cls = 1 ∧ s.getF (F.portStatusLanes p) ≠ 4) → (u.prt f.part).slow = true) ∧
          ((f.cls = 2 ∨ s.getF (F.portStatusLanes p) = 4) → u.parts = s.parts) ∧ rest u)) ∧
      ((good ∧ (f.cls = 1 ∨ f.cls = 2 ∨ f.cls = 5 ∨ f.cls = 6) ∧ f.seq = x.rxSeq ∧ s.running f.part = false) →
        s.gives (.linkFlitReceive p f e) (fun u =>
          (u.port p).rxBuf = x.rxBuf ∧ (u.port p).rxSeq = x.rxSeq + 1 ∧ u.flag (F.portStatusBadPart p) = true ∧ u.parts = s.parts ∧
          rest u)) ∧
      ((good ∧ (f.cls = 3 ∨ f.cls = 4 ∨ f.cls = 7) ∧ f.seq = x.rxSeq ∧ f.index = 0 ∧ f.fill ≠ 0) →
        s.gives (.linkFlitReceive p f e) (fun u =>
          ((f.cls = 7 ∧ (mgmtSize f.stream f.bytes).any (fun n => f.bytes.length < n) = true) →
            u.linkIn = s.linkIn ∧ s.logs u srcCtl (code14 7) 0xFF (detail (code14 7) [f.src, f.stream])) ∧
          ((f.cls ≠ 7 ∨ (mgmtSize f.stream f.bytes).any (fun n => f.bytes.length < n) = false) → u.linkIn = s.linkIn ++
            [(f.src, { cls := f.cls, part := f.part, dest := f.dest, stream := f.stream, payload := f.bytes })]) ∧
          (u.port p).rxSeq = x.rxSeq + 1 ∧ (u.port p).rxBuf = x.rxBuf ∧ u.parts = s.parts ∧ rest u)))

/-- R221 to R223, R225 to R229, R182, R371: a port with nothing to send sends an idle flit; a flit that has its credit and grant leaves
with the next sequence number, towards the slot its traffic is redirected to, and stays in the retry buffer; one without stays in the
queue; a flit that is sent again goes ahead of new ones and is counted; every flit that leaves carries its parity bits, and its words go
to the lanes in use by turns; a message of the module becomes the flits of its queue, one to the module itself arrives; LSEND and LSENDC
append the flits of their lines, of class 1 and 2, to the queue of their port, and those of a partition without a share there are
discarded with BAD_DEST (R211). (The destination slot of a stream and the port of a
message are free values: log 26.) -/
def Obligations.LinkFlitsLeave : Prop :=
  ∀ (p : PortN) (t : TileN) (line : Fin 16384) (lines : Fin 64) (stream : BitVec 16) (s : State),
    let x := s.port p
    let rest := fun (u : State) => s.portsKept u p ∧ u.hbm = s.hbm ∧ u.arrays = s.arrays ∧ u.tiles = s.tiles
    let sends := fun (u : State) (h : BitVec 64) (b : BitVec 1920) (q : BitVec 16) => ∃ g : LFlit,
      (u.port p).laneOut = (x.spread g).laneOut ∧ g.hdr = h ∧ g.payload = b ∧ g.seq = q ∧ g.sound = true
    ((s.pwr.stopped = false ∧ s.portUp p = true ∧ s.flag (F.portCfgLoopback p) = false ∧ x.control = [] ∧ x.drainWait = false) →
      ((s.linkOut = [] ∧ x.txQ = [] ∧ x.resending = 0) → s.gives (.linkFlitSend p) (fun u =>
        sends u (linkHdr 0 0 0 s.slot 0 0 0 0) 0 x.txSeq ∧ (u.port p).txSeq = x.txSeq ∧ (u.port p).retry = x.retry ∧ u.regs = s.regs ∧
        u.parts = s.parts ∧ rest u)) ∧
      (∀ f, (s.linkOut = [] ∧ x.txQ = [f] ∧ x.resending = 0 ∧ x.retry.length < 512 ∧ 1 ≤ f.cls ∧ f.cls ≤ 7) →
        (s.mayLeave p f = true → s.gives (.linkFlitSend p) (fun u =>
          sends u (s.toward f).hdr f.payload x.txSeq ∧
          (u.port p).txQ = [] ∧ (u.port p).retry = x.retry ++ [{ f with seq := x.txSeq }] ∧ (u.port p).txSeq = x.txSeq + 1 ∧
          ((f.cls = 1 ∧ s.getF (F.portStatusLanes p) ≠ 4) → (u.prt f.part).slow = true) ∧
          ((f.cls ≠ 1 ∨ s.getF (F.portStatusLanes p) = 4) → u.parts = s.parts) ∧ rest u)) ∧
        (s.mayLeave p f = false → s.gives (.linkFlitSend p) (fun u =>
          (u.port p).txQ = [f] ∧ (u.port p).retry = x.retry ∧ (u.port p).txSeq = x.txSeq ∧ u.parts = s.parts ∧ rest u))) ∧
      (∀ m : LinkMsg, (s.linkOut = [m] ∧ x.txQ = [] ∧ x.resending = 0 ∧ x.retry.length < 512) →
        (m.dest = s.slot → s.gives (.linkFlitSend p) (fun u =>
          u.linkIn = s.linkIn ++ [(s.slot, m)] ∧ u.linkOut = [] ∧ (u.port p).retry = x.retry ∧ rest u)) ∧
        (∀ f, (m.dest ≠ s.slot ∧ Config.portFor m.dest m.cls = p ∧ 1 ≤ m.cls ∧ m.cls ≤ 7 ∧ m.part < 16 ∧
            linkFlits m.cls m.part m.dest s.slot m.stream s.win m.payload = [f] ∧ s.mayLeave p f = true) →
          s.gives (.linkFlitSend p) (fun u =>
            sends u (s.toward f).hdr f.payload x.txSeq ∧ (u.port p).retry = x.retry ++ [{ f with seq := x.txSeq }] ∧
            u.linkOut = [] ∧ u.linkIn = s.linkIn ∧ rest u))) ∧
      (∀ k f, (s.linkOut = [] ∧ x.resending = k + 1 ∧ x.retry[x.retry.length - (k + 1)]? = some f) → s.gives (.linkFlitSend p) (fun u =>
        sends u (s.toward f).hdr f.payload f.seq ∧
        (u.port p).resending = k ∧ (u.port p).retry = x.retry ∧ (u.port p).txQ = x.txQ ∧
        u.getF (F.portReplayResent p) = (s.getF (F.portReplayResent p) + 1) % 2 ^ 16 ∧ rest u))) ∧
    (∀ g : LFlit, ∀ j < (laneList x.lanesOn).length,
      Sparse.get (fun _ => []) (x.spread g).laneOut ((laneList x.lanesOn).getD j 0) =
        Sparse.get (fun _ => []) x.laneOut ((laneList x.lanesOn).getD j 0) ++ g.onLane (laneList x.lanesOn).length j) ∧
    (s.pwr.stopped = true → exec (.linkFlitSend p) s = .next s) ∧
    ((s.tileRuns t = true ∧ s.actOk t (512 * line.val) (512 * (lines.val + 1)) = true ∧
        (s.tile t).sound (512 * line.val) (512 * (lines.val + 1)) = true) →
      let n := s.ownerOf t
      let refused := fun (u : State) => u.flag F.netStatusBadDest = true ∧ u.ports = s.ports ∧ (u.tile t).store = (s.tile t).store ∧
        s.tilesKept u t ∧ u.arrays = s.arrays ∧ u.hbm = s.hbm
      let queued := fun (u : State) (cls : Nat) =>
        (u.port p).txQ = x.txQ ++ linkFlits cls (s.ownerOf t) (s.redirect (Config.streamDest p stream.toNat)) s.slot stream.toNat s.win
          ((s.tile t).bytes (512 * line.val) (512 * (lines.val + 1))) ∧
        (u.tile t).store = (s.tile t).store ∧ s.portsKept u p ∧ s.tilesKept u t ∧ u.arrays = s.arrays ∧ u.hbm = s.hbm
      ((n = 0 ∨ s.getF (F.partLinkShareEntries n p) ≠ 0) →
        s.gives (.lsend t (.line line) lines p stream) (fun u => queued u 1) ∧
        s.gives (.lsendc t (.line line) lines p stream) (fun u => queued u 2)) ∧
      ((n ≠ 0 ∧ s.getF (F.partLinkShareEntries n p) = 0) →
        s.gives (.lsend t (.line line) lines p stream) refused ∧ s.gives (.lsendc t (.line line) lines p stream) refused))

/-- R225 to R228, R233, R247, R248, Table 8.4: training that found lanes makes the port send INIT, or after a retrain go on with the
lanes that had not failed and ask for its expected flit; an INIT of the same N and L brings the port up with the peer's pools and 64 ECHOs to send, at a port that is up also after
the peer's DRAIN (R256), another one takes it down;
REPLAY goes back to the flit it names; the repeat timer asks again while a flit is missing; ECHO is answered with its value and
residence; the smallest round trip of a hop is kept and half of it is the one-way latency.
The rounding of the half round trip is the model's choice (log 29). -/
def Obligations.LinkPortsTrainAndMeasure : Prop :=
  ∀ (p : PortN) (slot : SlotN) (pools : List Nat) (n l : Nat) (seq : BitVec 16) (count res arrival : BitVec 64) (lanes : BitVec 4)
      (s : State),
    let x := s.port p
    let rest := fun (u : State) => s.portsKept u p ∧ u.hbm = s.hbm ∧ u.arrays = s.arrays ∧ u.tiles = s.tiles ∧ u.parts = s.parts
    ((s.getF (F.portStatusState p) = 1 ∧ lanes ≠ 0 ∧ x.retraining = false) → s.gives (.linkTrainingDone p lanes) (fun u =>
      u.getF (F.portStatusState p) = 2 ∧ u.getF (F.portStatusLaneOk p) = lanes.toNat ∧
      u.getF (F.portStatusLanes p) = lanesFor lanes.toNat 4 ∧ (u.port p).lanesOn = activeLanes lanes.toNat (lanesFor lanes.toNat 4) ∧
      (u.port p).control = x.control ++ [(0, s.initBytes)] ∧
      s.regsKept u [(R.portStatus p).addr] ∧ rest u)) ∧
    ((s.getF (F.portStatusState p) = 1 ∧ lanes ≠ 0 ∧ x.retraining = true) →
      let old := s.getF (F.portStatusLaneOk p)
      let ok := if old = 0 then lanes.toNat else old &&& lanes.toNat
      (ok ≠ 0 → s.gives (.linkTrainingDone p lanes) (fun u =>
        u.portUp p = true ∧ (u.port p).retraining = false ∧ u.getF (F.portStatusLaneOk p) = ok ∧
        (u.port p).control = x.control ++ [(1, leBytes 2 x.rxSeq.toNat)] ∧ (u.port p).retry = x.retry ∧
        ((old ≠ 0 ∧ x.lanesOn &&& ok = x.lanesOn) → (u.port p).lanesOn = x.lanesOn ∧ u.parts = s.parts ∧ u.linkOut = s.linkOut) ∧
        s.portsKept u p ∧ u.hbm = s.hbm ∧ u.arrays = s.arrays ∧ u.tiles = s.tiles)) ∧
      (ok = 0 → s.gives (.linkTrainingDone p lanes) (fun u =>
        u.getF (F.portStatusState p) = 1 ∧ u.getF (F.portStatusLaneOk p) = 0 ∧ u.getF (F.portStatusLanes p) = 0 ∧
        (u.port p).control = x.control ∧ rest u))) ∧
    (((s.getF (F.portStatusState p) = 2 ∨ s.portUp p = true) ∧ s.cad.waitPorts = false) →
      ((n = s.getF F.cadCfgPeriod ∧ l = s.getF F.cadCfgWindow ∧ (s.portUp p = true → x.drained = true)) →
        s.gives (.init p slot pools n l) (fun u =>
        u.portUp p = true ∧ (∀ k < 6, u.getF (F.portCredDepth p k) = pools.getD k 0 % 2 ^ 16) ∧ (u.port p).rxSeq = 0 ∧
        (u.port p).txSeq = 0 ∧ (u.port p).retry = [] ∧
        (u.port p).control.length = x.control.length + 64 + (if s.portUp p = true then 1 else 0) ∧
        (u.port p).txQ = x.retry ++ x.txQ ∧ (u.port p).rxBuf = x.rxBuf ∧ ((s.cad.masterNow = false ∨ x.lanesOn = x.lanesTold) → u.parts = s.parts) ∧
        s.portsKept u p ∧ u.hbm = s.hbm ∧ u.arrays = s.arrays ∧ u.tiles = s.tiles)) ∧
      ((n = s.getF F.cadCfgPeriod ∧ l = s.getF F.cadCfgWindow ∧ s.portUp p = true ∧ x.drained = false) →
        exec (.init p slot pools n l) s = .next s) ∧
      ((n ≠ s.getF F.cadCfgPeriod ∨ l ≠ s.getF F.cadCfgWindow) → s.gives (.init p slot pools n l) (fun u =>
        u.getF (F.portStatusState p) = 0 ∧ s.logs u (srcPort p) (code14 14) 0xFF slot ∧ u.ports = s.ports ∧
        s.regsKept u [(R.portStatus p).addr, R.logLost.addr] ∧ u = { s with regs := u.regs, log := u.log }))) ∧
    (s.portUp p = true →
      (∀ i f, ((List.range x.retry.length).find? (fun i => (x.retry[i]?).elim false (fun f => f.seq = seq)) = some i ∧
          x.retry[i]? = some f ∧ (x.replaySeq ≠ seq ∨ x.replayCnt = 0)) → s.gives (.replay p seq) (fun u =>
        (u.port p).resending = x.retry.length - i ∧ (u.port p).retry = x.retry ∧ u.regs = s.regs ∧ rest u)) ∧
      (((∀ f ∈ x.retry, f.seq ≠ seq) ∧ seq = x.txSeq) → exec (.replay p seq) s = .next s) ∧
      (x.gap = true → s.gives (.replayRepeatTimer p) (fun u =>
        (u.port p).control = x.control ++ [(1, leBytes 2 x.rxSeq.toNat)] ∧ (u.port p).rxSeq = x.rxSeq ∧
        s.regsKept u [(R.portReplay p).addr] ∧ rest u)) ∧
      (x.gap = false → exec (.replayRepeatTimer p) s = .next s) ∧
      s.gives (.echo p count res) (fun u =>
        (u.port p).control = x.control ++ [(3, leBytes 8 count.toNat ++ leBytes 8 res.toNat)] ∧ u.regs = s.regs ∧ rest u) ∧
      (x.ecCount < 63 → s.gives (.echoReply p count res arrival) (fun u =>
        let rtt := arrival.toNat - count.toNat - res.toNat / 50
        let m := match x.ecMin with | some m => min m rtt | none => rtt
        (u.port p).ecMin = some m ∧ (u.port p).ecCount = x.ecCount + 1 ∧ u.getF (F.portLatRtt p) = min m 65535 ∧
        u.getF (F.portLatOneWay p) = min (m / 2) 65535 ∧ s.regsKept u [(R.portLat p).addr] ∧ rest u)))

/-- R232, R233, R234, R236, R256, Table 8.4: a lane that fails leaves the set and, when it was in use, the port changes lanes and
proposes the set that is left; a port without a lane trains again; LANES and LANES_ACK put in force what of the set is in use; a port that does not come up again goes down and the module is failed; a port that is up drains before it resets, and at the
end of the wait it trains with its numbers, credits and retry buffer cleared and what was not acknowledged at the head of the queue. -/
def Obligations.LinkLanesAndPortResets : Prop :=
  ∀ (p : PortN) (lanes mask : BitVec 4) (s : State),
    let x := s.port p
    let rest := fun (u : State) => s.portsKept u p ∧ u.hbm = s.hbm ∧ u.arrays = s.arrays ∧ u.tiles = s.tiles ∧ u.parts = s.parts
    let ok := s.getF (F.portStatusLaneOk p)
    let n := s.getF (F.portStatusLanes p)
    let left := ok &&& (15 - lanes.toNat)
    let own := if n = 4 then left else left &&& x.lanesOn
    let m := s.lanesOffered p mask
    (s.portUp p = true →
      ((left = 0 ∨ (own = 0 ∧ x.lanesOn &&& lanes.toNat ≠ 0)) → s.gives (.laneFail p lanes) (fun u =>
        u.getF (F.portStatusState p) = 1 ∧ u.getF (F.portStatusLaneOk p) = 0 ∧ u.getF (F.portStatusLanes p) = 0 ∧
        (u.port p).retraining = true ∧ s.regsKept u [(R.portStatus p).addr] ∧ rest u)) ∧
      ((left ≠ 0 ∧ x.lanesOn &&& lanes.toNat = 0) → s.gives (.laneFail p lanes) (fun u =>
        u.getF (F.portStatusLaneOk p) = left ∧ u.portUp p = true ∧ u.getF (F.portStatusLanes p) = n ∧ u.ports = s.ports ∧
        s.regsKept u [(R.portStatus p).addr] ∧ rest u)) ∧
      ((left ≠ 0 ∧ own ≠ 0 ∧ x.lanesOn &&& lanes.toNat ≠ 0) → s.gives (.laneFail p lanes) (fun u =>
        u.getF (F.portStatusState p) = 4 ∧ u.getF (F.portStatusLaneOk p) = left ∧
        u.getF (F.portStatusLanes p) = (if n = 4 then lanesFor left 4 else 1) ∧
        (u.port p).control = x.control ++ [(4, leBytes 1 (activeLanes own (if n = 4 then lanesFor left 4 else 1)))] ∧
        s.regsKept u [(R.portStatus p).addr] ∧ rest u)) ∧
      s.gives (.linkDrain p) (fun u => (u.port p).drained = true ∧ u.regs = s.regs ∧ rest u) ∧
      ((s.flag (F.portCfgEnable p) = true ∧ s.domOn (48 + p) = true) → s.gives (.portReset p) (fun u =>
        (u.port p).drainWait = true ∧ (u.port p).control = x.control ++ [(6, [])] ∧ (u.port p).retry = x.retry ∧ u.regs = s.regs ∧
        rest u))) ∧
    (((s.portUp p = true ∨ s.getF (F.portStatusState p) = 4) ∧ m ≠ 0) → s.gives (.lanes p mask) (fun u =>
      u.portUp p = true ∧ u.getF (F.portStatusLaneOk p) = ok ∧ u.getF (F.portStatusLanes p) = ones4 m ∧
      (u.port p).lanesOn = m ∧ (u.port p).control = x.control ++ [(5, leBytes 1 m)] ∧
      (s.cad.masterNow = false → u.parts = s.parts) ∧ s.portsKept u p ∧ u.hbm = s.hbm ∧ u.arrays = s.arrays ∧ u.tiles = s.tiles)) ∧
    (m = 0 → exec (.lanes p mask) s = .next s ∧ exec (.lanesAck p mask) s = .next s) ∧
    ((s.getF (F.portStatusState p) = 4 ∧ m ≠ 0) → s.gives (.lanesAck p mask) (fun u =>
      u.portUp p = true ∧ u.getF (F.portStatusLanes p) = ones4 m ∧ u.getF (F.portStatusLaneOk p) = ok ∧
      u.port p = { x with lanesOn := m, lanesTold := m } ∧ (s.cad.masterNow = false → u.parts = s.parts) ∧
      s.portsKept u p ∧ u.hbm = s.hbm ∧ u.arrays = s.arrays ∧ u.tiles = s.tiles)) ∧
    ((s.getF (F.portStatusState p) = 1 ∧ x.retraining = true) → s.gives (.lastLaneRetrainTimeout p) (fun u =>
      u.getF (F.portStatusState p) = 0 ∧ u.pwr.failedModule = true ∧ u.ports = s.ports ∧ rest u)) ∧
    ((x.drainWait = true ∧ s.log.ingest.length < 256) → s.gives (.drainWaitEnd p) (fun u =>
      (u.port p).txQ = x.retry ++ x.txQ ∧ (u.port p).retry = [] ∧ (u.port p).txSeq = 0 ∧ (u.port p).rxSeq = 0 ∧
      (u.port p).drainWait = false ∧ u.getF (F.portStatusState p) = 1 ∧ rest u))


/-! ## Weights -/

/-- R261, R262: a piece of a manifest is kept, and the last piece has the whole checked: the reply tells the verdict, and only a
manifest that stands replaces the one before; that of the service's epoch starts a staging at once on a module whose restored epoch is
behind (R288). R263, R267, R268: STAGE begins the staging of that manifest and answers later; SHARD_PUT
sends its segment on to the module that uses the shard. -/
def Obligations.ManifestsAndStaging : Prop :=
  ∀ (h : CmdHdr) (off total ms shard : Word) (data : Bytes) (s : State), s.accepts h true false →
    let n := h.part.val
    let w := s.wgt n
    let b := putPiece (if off = 0 then [] else w.collect) off.toNat data
    ((s.partState n ≠ 0 ∧ (s.prt n).usable = true ∧ s.wgtBusy n = false ∧ data ≠ []) →
      (off.toNat + data.length < total.toNat → s.gives (.manifestPut h off total data) (fun u =>
        s.answered u h stOK 0 [] ∧ u.wgt n = { w with collect := b } ∧ s.partsKept u n ∧ s.dataKept u)) ∧
      ((off.toNat + data.length = total.toNat ∧ w.behind = none) → s.gives (.manifestPut h off total data) (fun u =>
        s.answered u h (s.judgeManifest n b) 0 [] ∧
        u.wgt n = { w with collect := [], manifest := if s.judgeManifest n b = stOK then some (manifestOf b) else w.manifest } ∧
        s.partsKept u n ∧ s.dataKept u)) ∧
      ((off.toNat + data.length = total.toNat ∧ s.judgeManifest n b = stOK ∧ w.behind = some (manifestOf b).epoch) →
        s.gives (.manifestPut h off total data) (fun u =>
          s.answered u h stOK 0 [] ∧ u.getF (F.partWgtStatusStage n) = 1 ∧ (u.wgt n).staging.man = some (manifestOf b) ∧
          (u.wgt n).shards = s.wantedShards (manifestOf b) ∧ (u.wgt n).resident = w.resident ∧ (u.wgt n).epoch = w.epoch ∧
          s.partsKept u n ∧ s.dataKept u)) ∧
      (total.toNat < off.toNat + data.length → s.gives (.manifestPut h off total data) (fun u =>
        s.answered u h stBadParam 0 [] ∧ u.wgt n = w ∧ s.partsKept u n ∧ s.dataKept u))) ∧
    (∀ m, (w.manifest = some m ∧ s.partState n ≠ 0 ∧ (s.getF (F.partWgtStatusStage n) ≠ 2 ∨ w.staging.man ≠ some m) ∧ s.wgtBusy n = false ∧
        m.layersOn s.placeSlot ≠ [] ∧ (∀ l ∈ m.layersOn s.placeSlot, m.shardsOf l s.placeSlot ≠ [])) →
      ((ms = 0 ∨ (100 ≤ ms.toNat ∧ ms.toNat ≤ 60000)) → s.gives (.stage h ms) (fun u =>
        s.started u h 0x0301 ms.toNat ∧ u.getF (F.partWgtStatusStage n) = 1 ∧ (u.wgt n).staging.man = some m ∧
        (u.wgt n).shards = s.wantedShards m ∧ (u.wgt n).resident = w.resident ∧ (u.wgt n).epoch = w.epoch ∧ s.partsKept u n ∧
        s.dataKept u)) ∧
      ((ms ≠ 0 ∧ (ms.toNat < 100 ∨ 60000 < ms.toNat)) → s.gives (.stage h ms) (fun u =>
        s.answered u h stBadParam 0 [] ∧ u.wgt n = w ∧ s.partsKept u n ∧ s.dataKept u))) ∧
    (∀ m d, (w.staging.man = some m ∧ s.staging n = true ∧ s.partState n ≠ 0 ∧ m.shards[shard.toNat]? = some d ∧ d.slot ≠ s.slot ∧
        (∀ e ∈ s.firn.topo.slots, e.buddy = d.slot → e.slot ≠ s.slot) ∧ data.length ≤ 61400 ∧
        off.toNat + data.length ≤ shardWire m shard.toNat) → s.gives (.shardPut h shard off data) (fun u =>
      s.answered u h stOK 0 [] ∧ u.wgt n = w ∧ s.dataKept u ∧
      ∃ g ∈ u.linkOut, g.cls = 7 ∧ g.stream = 0x0300 ∧ g.part = n ∧ g.dest = s.redirect d.slot ∧
        g.payload = segBytes shard.toNat off.toNat m.epoch data))

/-- R264, R265, R266, R267: a segment of a shard that is staged is kept until the shard is whole; a whole shard that fails its checks is
dropped and asked for again, up to three times at its source; SHARD_REQ is answered with the verified shard; at the deadline the layers
that are not settled fail, STAGE shows the failure, and what is resident stays. -/
def Obligations.ShardsArriveOrFail : Prop :=
  ∀ (slot : SlotN) (n : PartN) (shard epoch : Word) (off : Nat) (data : Bytes) (m : Manifest) (s : State),
    let w := s.wgt n
    ((s.staging n = true ∧ w.staging.man = some m) →
      (∀ x, (w.shards.find? (fun x => x.num = shard.toNat) = some x ∧ x.verified = false ∧ epoch.toNat = m.epoch % 2 ^ 32) →
        let y := { x with segs := x.segs ++ [(off, data)] }
        let put := fun (z : ShardSt) => w.shards.map (fun v => if v.num = shard.toNat then z else v)
        (off + data.length < shardWire m shard.toNat → s.gives (.shardSeg n shard off epoch data) (fun u =>
          u.wgt n = { w with shards := put y } ∧ s.partsKept u n ∧
          u.regs = s.regs ∧ u.linkOut = s.linkOut ∧ s.dataKept u)) ∧
        ((off + data.length = shardWire m shard.toNat ∧ s.shardOpen n m y = none ∧ x.asked < 3) →
          s.gives (.shardSeg n shard off epoch data) (fun u =>
            u.wgt n = { w with shards := put { y with segs := [], asked := x.asked + 1 } } ∧
            u.linkOut = s.linkOut ++ [s.mgmt s.shardSource 0x0301
              (leBytes 4 x.num ++ leBytes 4 0 ++ leBytes 4 0 ++ leBytes 4 m.epoch)] ∧
            u.getF (F.partWgtCntRerequests n) = (s.getF (F.partWgtCntRerequests n) + 1) % 2 ^ 16 ∧ s.partsKept u n ∧ s.dataKept u))) ∧
      s.gives (.loadDeadline n) (fun u =>
        u.getF (F.partWgtStatusStage n) = 3 ∧ (u.wgt n).resident = w.resident ∧ (u.wgt n).epoch = w.epoch ∧
        (∀ l ∈ m.layersOn s.placeSlot, (u.wgt n).settled l.layer = true) ∧ s.dataKept u)) ∧
    (s.staging n = false → exec (.loadDeadline n) s = .next s) ∧
    (∀ x, (w.staging.man = none ∧ (w.resShards ++ w.shards).find? (fun x => x.num = shard.toNat && x.verified) = some x ∧
        (x.segs.map Prod.snd).flatten ≠ [] ∧ (x.segs.map Prod.snd).flatten.length ≤ 61424) →
      s.gives (.shardReq slot n shard off 0 epoch) (fun u =>
        u.linkOut = s.linkOut ++
          [LinkMsg.mk 7 n (s.redirect slot) 0x0300 (segBytes shard.toNat 0 epoch.toNat (x.segs.map Prod.snd).flatten)] ∧
        u = { s with linkOut := u.linkOut }))

/-- R269, R270, R271, R276, R286: the loader writes a line of an image into its array or its DE region and goes on to the next when it
reads back as written; a first mismatch is counted and the line is written again, a third one fails the rewrite (it waits for the
array's repairs); a line waits for the two bursts of its read (R339, R340), and one that is not due is not written; a layer that has drained is
queued for the loader; a verified rewrite changes at the next boundary; the firn takes an image record whole, and
the active one before becomes inactive. -/
def Obligations.LoaderRewritesLayers : Prop :=
  ∀ (n : PartN) (place line : Nat) (attempt : Fin 3) (readback : BitVec 1024) (layer : Word) (m : Manifest) (p : Place) (l : ManLayer)
      (t : Nat) (s : State),
    let w := s.wgt n
    let img := Sparse.get (fun _ => []) w.loadFrom.images place
    ((w.loadFrom.man = some m ∧ m.places[place]? = some p ∧ m.layerOf place = some l ∧ s.phys p.ltile = some t ∧
        s.mayLoad n t m l p place line = true ∧ w.triesOf place = attempt.val ∧
        (attempt = 2 → l.kind = 1 ∨ (s.arr t p.array).fills = []) ∧ s.linesGood (s.loadAddr n place line) 128 = true) →
      (s.hbmServed n (s.loadAddr n place line) 2 (loadKey place) = false →
        exec (.loaderRowWrite n place line attempt readback) s = .next (s.hbmPay n (s.loadAddr n place line) 2 (loadKey place))) ∧
      (s.hbmServed n (s.loadAddr n place line) 2 (loadKey place) = true →
      ((readback = loadWant l img line ∧ line + 1 < placeLines l p) →
        ((l.kind ≠ 1 ∧ 0 < line ∧ line < 1024) → s.gives (.loaderRowWrite n place line attempt readback) (fun u =>
          (u.arr t p.array).row line = writeRow (s.mode t p.array) (s.spares t p.array) ((s.arr t p.array).row line) (imageRow img line) ∧
          (∀ i, i ≠ line → (u.arr t p.array).row i = (s.arr t p.array).row i) ∧ (place, line + 1) ∈ (u.wgt n).loading ∧
          (u.wgt n).staging = w.staging ∧ (u.wgt n).resident = w.resident ∧ s.arraysKept u [128 * t + p.array] ∧ u.hbm = s.hbm)) ∧
        (l.kind = 1 → s.gives (.loaderRowWrite n place line attempt readback) (fun u =>
          (∀ b, (b < s.pbEnd t + p.dest + 128 * line ∨ s.pbEnd t + p.dest + 128 * line + 128 ≤ b) →
            (u.tile t).byte b = (s.tile t).byte b) ∧
          (128 * line + 128 ≤ img.length → (u.tile t).bytes (s.pbEnd t + p.dest + 128 * line) 128 = (img.drop (128 * line)).take 128) ∧
          (place, line + 1) ∈ (u.wgt n).loading ∧ u.arrays = s.arrays ∧ u.hbm = s.hbm))) ∧
      ((readback ≠ loadWant l img line ∧ attempt = 0) → s.gives (.loaderRowWrite n place line attempt readback) (fun u =>
        u.getF (F.partWgtCntReadbackErr n) = (s.getF (F.partWgtCntReadbackErr n) + 1) % 2 ^ 16 ∧
        u.wgt n = { w with tries := (place, 1) :: w.tries.filter (fun x => x.1 ≠ place) })) ∧
      ((readback ≠ loadWant l img line ∧ attempt = 1 ∧ l.kind = 1) → s.gives (.loaderRowWrite n place line attempt readback) (fun u =>
        u.wgt n = { w with tries := (place, 2) :: w.tries.filter (fun x => x.1 ≠ place) })) ∧
      ((readback ≠ loadWant l img line ∧ attempt = 2) → s.gives (.loaderRowWrite n place line attempt readback) (fun u =>
        u.wgt n = { w with rewriteFail := true })))) ∧
    ((w.loadFrom.man = some m ∧ m.places[place]? = some p ∧ m.layerOf place = some l ∧ s.phys p.ltile = some t ∧
        (s.mayLoad n t m l p place line = false ∨ w.triesOf place ≠ attempt.val ∨ s.linesGood (s.loadAddr n place line) 128 = false)) →
      exec (.loaderRowWrite n place line attempt readback) s = .next s) ∧
    (∀ sw, (w.swap = some sw ∧ w.staging.man = some m ∧ (m.layersOn s.placeSlot).find? (fun l => l.layer = layer.toNat) = some l ∧
        sw.rolling = false ∧ l.layer ∉ sw.drained ∧
        (m.layersOn s.placeSlot).any (fun k => k.order < l.order && !sw.drained.contains k.layer) = false ∧ s.fed n m sw l = true) →
      s.gives (.layerDrained n layer) (fun u =>
        (∃ sw', (u.wgt n).swap = some sw' ∧ sw'.drained = sw.drained ++ [l.layer] ∧ sw'.rewriting = sw.rewriting ++ [l.layer]) ∧
        (u.wgt n).loading = w.loading ++ (if l.kind ≤ 1 then (m.placesAt l s.placeSlot).map (fun i => (i, 0)) else []) ∧
        (u.wgt n).resident = w.resident ∧ u.regs = s.regs ∧ s.partsKept u n ∧ s.dataKept u)) ∧
    (∀ sw, (w.swap = some sw ∧ w.loadFrom.man = some m ∧ layer.toNat ∈ sw.rewriting ∧ w.rewriteFail = false ∧
        w.loading.any (fun x => ((m.layerOf x.1).map ManLayer.layer) = some layer.toNat) = false) →
      s.gives (.layerRewriteDone n layer) (fun u =>
        (∃ sw', (u.wgt n).swap = some sw' ∧ sw'.change = sw.change ++ [layer.toNat] ∧ layer.toNat ∉ sw'.rewriting) ∧
        (u.wgt n).resident = w.resident ∧ (u.wgt n).staging = w.staging ∧ u.regs = s.regs ∧ s.partsKept u n ∧ s.dataKept u)) ∧
    ((w.resident.man = some m ∧ m.persistent ≠ [] ∧ w.swap = none ∧
        s.firn.images.any (fun r => r.active && r.slot.man.map Manifest.bytes = some m.bytes) = false) →
      s.gives (.firnImageWriteDone n) (fun u =>
        (∃ r : FirnImage, u.firn.images = (s.firn.images.filter (fun r => r.active)).map (fun r => ({ r with active := false } : FirnImage)) ++ [r] ∧
          r.active = true ∧ r.part = n.val ∧ r.tenant = s.tenantOf n ∧ r.slot.man = some m) ∧
        u.parts = s.parts ∧ u.regs = s.regs ∧ s.dataKept u))

/-- R273, R274, R276, R278, R279: SWAP of a staged manifest asks every module of the service whether it is staged; the cutover is fixed
once all have said so; a front is noted; COMMIT and the last report make the staging slot resident under the new epoch; a module that is
not staged, LIMIT and ROLLBACK end the swap with the resident slot and the epoch as they were; a module without a swap answers ROLLBACK at
once. -/
def Obligations.SwapsCommitOrRollBack : Prop :=
  ∀ (h : CmdHdr) (limit : Word) (slot : SlotN) (n : PartN) (epoch win : BitVec 64) (status : BitVec 16) (dtl layer : Word)
      (m : Manifest) (s : State),
    let w := s.wgt n
    let kept := fun (u : State) => (u.wgt n).resident = w.resident ∧ (u.wgt n).epoch = w.epoch ∧ u.hbm = s.hbm ∧ u.arrays = s.arrays
    ((s.accepts h true false ∧ h.part = n ∧ s.running n = true ∧ (s.prt n).svcs.any s.isFront = true ∧ s.wgtBusy n = false ∧
        (limit = 0 ∨ (10 ≤ limit.toNat ∧ limit.toNat ≤ 60000)) ∧ w.staging.man = some m) →
      ((s.stagedFor n m.epoch = true ∧ s.modulesOf n ≠ []) → s.gives (.swap h limit) (fun u =>
        s.started u h 0x0303 m.epoch ∧ u.getF (F.partWgtStatusSwap n) = 1 ∧
        (∃ sw, (u.wgt n).swap = some sw ∧ sw.epoch = m.epoch ∧ sw.coord = true ∧ sw.cutover = false) ∧
        u.linkOut = s.linkOut ++ (s.modulesOf n).map (fun d => s.mgmt d 0x0302 (swapBytes 0 n 0 0 m.epoch)) ∧ kept u)) ∧
      (s.stagedFor n m.epoch = false → s.gives (.swap h limit) (fun u =>
        s.answered u h (s.stageStatus n).1 (s.stageStatus n).2 [] ∧ (u.wgt n).swap = none ∧ kept u))) ∧
    ((s.stagedFor n epoch.toNat = true ∧ w.swap = none) → s.gives (.swapCtrlQuery slot n epoch) (fun u =>
      u.linkOut = s.linkOut ++ [s.mgmt slot 0x0302 (swapBytes 1 n 0 0 epoch.toNat)] ∧ u.getF (F.partWgtStatusSwap n) = 2 ∧
      (∃ sw, (u.wgt n).swap = some sw ∧ sw.epoch = epoch.toNat ∧ sw.coord = false) ∧ kept u)) ∧
    (s.stagedFor n epoch.toNat = false → s.gives (.swapCtrlQuery slot n epoch) (fun u =>
      u.linkOut = s.linkOut ++ [s.mgmt slot 0x0302 (swapBytes 2 n (s.stageStatus n).1 (s.stageStatus n).2 epoch.toNat)] ∧
      u.regs = s.regs ∧ (u.wgt n).swap = w.swap ∧ kept u)) ∧
    (w.swap = none → s.gives (.swapCtrlRollback slot n epoch) (fun u =>
      u.linkOut = s.linkOut ++ [s.mgmt slot 0x0302 (swapBytes 6 n 0 0 epoch.toNat)] ∧ u = { s with linkOut := u.linkOut })) ∧
    (∀ sw, w.swap = some sw →
      (sw.epoch = epoch.toNat →
        ((sw.coord = true ∧ (s.slot :: s.modulesOf n).all (fun d => d = slot.val || sw.reports.contains d) = true) →
          s.gives (.swapCtrlStaged slot n epoch) (fun u =>
            u.getF (F.partWgtStatusSwap n) = 2 ∧ (∃ sw', (u.wgt n).swap = some sw' ∧ sw'.cutover = true) ∧ kept u)) ∧
        ((sw.coord = true ∧ sw.cutover = false) → s.gives (.swapCtrlStageFailed slot n epoch status dtl) (fun u =>
          (u.wgt n).swap = none ∧ u.getF (F.partWgtStatusSwap n) = 0 ∧
          u.getF (F.partWgtStatusFail n) = status.toNat % 256 ∧ kept u)) ∧
        (sw.rolling = false → s.gives (.swapFront slot n layer win epoch) (fun u =>
          u.getF (F.partWgtStatusSwap n) = 3 ∧ (∃ sw', (u.wgt n).swap = some sw' ∧ sw'.cutover = true ∧
            frontKey slot layer.toNat ∈ sw'.fronts ∧ ∃ z, sw'.frontWin = some z ∧ win.toNat ≤ z) ∧ kept u)) ∧
        ((sw.coord = true ∧ sw.rolling = false ∧ w.staging.man = some m ∧
            (s.slot :: s.modulesOf n).all (fun d => d = slot.val || sw.done.contains d) = true) →
          s.gives (.swapCtrlLayersDone slot n epoch) (fun u =>
            (u.wgt n).swap = none ∧ (u.wgt n).resident = w.staging ∧ (u.wgt n).epoch = BitVec.ofNat 64 m.epoch ∧
            u.getF (F.partWgtStatusSwap n) = 0 ∧ u.hbm = s.hbm ∧ u.arrays = s.arrays)) ∧
        ((sw.coord = false ∧ w.staging.man = some m) → s.gives (.swapCtrlCommit n epoch) (fun u =>
          (u.wgt n).swap = none ∧ (u.wgt n).resident = w.staging ∧ (u.wgt n).epoch = BitVec.ofNat 64 m.epoch ∧
          u.getF (F.partWgtEpochLoEpoch n) = m.epoch % 2 ^ 32 ∧ u.getF (F.partWgtStatusSwap n) = 0 ∧ u.hbm = s.hbm ∧
          u.arrays = s.arrays)) ∧
        ((sw.rolling = false ∧ w.resident.man = some m) → s.gives (.swapCtrlRollback slot n epoch) (fun u =>
          u.getF (F.partWgtStatusSwap n) = 5 ∧ (∃ sw', (u.wgt n).swap = some sw' ∧ sw'.rolling = true ∧ sw'.drained = []) ∧
          (u.wgt n).fromResident = true ∧ (u.wgt n).coordSlot = slot ∧ kept u)) ∧
        ((sw.coord = true ∧ sw.rolling = true ∧ (s.slot :: s.modulesOf n).all (fun d => d = slot.val || sw.done.contains d) = true) →
          s.gives (.swapCtrlRolledBack slot n epoch) (fun u =>
            (u.wgt n).swap = none ∧ u.getF (F.partWgtStatusSwap n) = 0 ∧ kept u))) ∧
      ((sw.coord = true ∧ sw.rolling = false ∧ sw.committed = false ∧ sw.frontWin ≠ none ∧ w.resident.man = some m) →
        s.gives (.swapLimitExpiry n) (fun u =>
          u.getF (F.partWgtStatusSwap n) = 5 ∧ u.getF (F.partWgtStatusFail n) = Config.abortStatus 0 % 256 ∧
          (∃ sw', (u.wgt n).swap = some sw' ∧ sw'.rolling = true ∧ sw'.cause = Config.abortStatus 0) ∧ kept u)) ∧
      ((sw.coord = false ∨ sw.frontWin = none) → exec (.swapLimitExpiry n) s = .next s))

/-! ## Services, requests and KV pages -/

/-- R310, R320: SVC_OPEN at the front module reserves the service's pool; with no other module in the partition it answers OK at once,
otherwise it goes on to each of them and answers later. SVC_CLOSE at the front module tells the other modules and moves the requests
to FINISH, with END 8; the service goes at once when it has none, and otherwise stays, closing, until they have ended. -/
def Obligations.ServicesOpenAndClose : Prop :=
  ∀ (h : CmdHdr) (desc : Bytes) (svc : Word) (s : State), s.accepts h true false →
    let n := h.part.val
    let id := fieldAt desc 0 4
    let v := s.svcOf n desc
    let told := fun (u : State) (opcode i : Nat) (p : Bytes) => ∀ d ∈ s.modulesOf n, ∃ g ∈ u.linkOut, g.cls = 3 ∧ g.part = n ∧
      g.dest = s.redirect d ∧ g.payload = cmdBytes opcode 0 (s.tenantOf n) n (svcTag n i).toNat d p
    ((s.svcDescOk n desc = true ∧ fieldAt desc 6 2 = s.placeSlot) →
      ((s.running n = true ∧ (s.prt n).usable = true ∧ (s.wgt n).behind = none ∧ (s.prt n).svcs.length < 16 ∧
          s.poolFits n (fieldAt desc 32 8) = true) →
        (s.modulesOf n = [] → s.gives (.svcOpen h desc) (fun u =>
          s.answered u h stOK 0 [] ∧ (u.prt n).svcs = (s.prt n).svcs ++ [{ v with opening := false }] ∧
          (u.prt n).kv.pages = (s.prt n).kv.pages + fieldAt desc 32 8 / pageBytes (s.svcBase n).kvW ∧ s.partsKept u n ∧ s.dataKept u)) ∧
        (s.modulesOf n ≠ [] → s.gives (.svcOpen h desc) (fun u =>
          s.started u h 0x0500 id ∧ (u.prt n).svcs = (s.prt n).svcs ++ [{ v with opening := true }] ∧ told u 0x0500 id desc ∧
          (u.prt n).kv.pages = (s.prt n).kv.pages + fieldAt desc 32 8 / pageBytes (s.svcBase n).kvW ∧ s.partsKept u n ∧ s.dataKept u))) ∧
      (s.running n = false → s.gives (.svcOpen h desc) (fun u =>
        s.answered u h stWrongState 0 [] ∧ (u.prt n).svcs = (s.prt n).svcs ∧ s.partsKept u n ∧ s.dataKept u))) ∧
    (∀ w, (s.svc n svc.toNat = some w ∧ svc ≠ 0) →
      ((w.closing = false ∧ (s.isFront w = false ∨ w.reqs = [])) → s.gives (.svcClose h svc) (fun u =>
        (u.prt n).svcs = (s.prt n).svcs.filter (fun x => x.id ≠ svc.toNat) ∧ s.partsKept u n ∧ s.dataKept u ∧
        s.answered u h stOK 0 [] ∧ (s.isFront w = true → told u 0x0501 svc.toNat (leBytes 4 svc.toNat)))) ∧
      ((w.closing = false ∧ s.isFront w = true ∧ w.reqs ≠ []) → s.gives (.svcClose h svc) (fun u =>
        s.started u h 0x0501 svc.toNat ∧ told u 0x0501 svc.toNat (leBytes 4 svc.toNat) ∧ s.partsKept u n ∧ s.dataKept u ∧
        ∃ x, u.svc n svc.toNat = some x ∧ x.closing = true ∧ x.reqs.map (·.tag) = w.reqs.map (·.tag) ∧
          (∀ r ∈ x.reqs, r.state = .finish ∨ r.state = .done) ∧
          (∀ r ∈ w.reqs, r.state ≠ .finish ∧ r.state ≠ .done →
            ∃ q ∈ x.reqs, q.tag = r.tag ∧ q.state = .finish ∧ q.endCode = some 8))) ∧
      (w.closing = true → s.gives (.svcClose h svc) (fun u =>
        s.answered u h stWrongState 0 [] ∧ (u.prt n).svcs = (s.prt n).svcs ∧ s.partsKept u n ∧ s.dataKept u))) ∧
    (s.svc n svc.toNat = none → s.gives (.svcClose h svc) (fun u =>
      s.answered u h stWrongState 0 [] ∧ (u.prt n).svcs = (s.prt n).svcs ∧ s.partsKept u n ∧ s.dataKept u))

/-- R312, R317, R325: REQ_SUBMIT queues a request while the service's queue has room and answers later; with a full queue it
answers HELD; the queue's first request, when it is admitted, has its prompt tokenised and takes the epoch in force (R274). REQ_CANCEL notes the cancellation for the next boundary; STREAM_CFG sets the ring with nothing written or read; the bridge
writes the next record and the count after it, and a FINAL record ends its request. -/
def Obligations.RequestsAndStreams : Prop :=
  ∀ (h : CmdHdr) (desc prompt : Bytes) (us : Nat) (reqTag svc size : Word) (addr : BitVec 64) (p : PartN) (id read : Nat) (s : State),
    (s.accepts h true false →
      let n := h.part.val
      (∀ v, (s.svc n (fieldAt desc 0 4) = some v ∧ v.id ≠ 0 ∧ reqDescOk v desc = true ∧ v.opening = false ∧ v.closing = false ∧
          s.isFront v = true ∧ v.ringSize ≠ 0) →
        ((v.reqs.filter (fun r => r.state = .queued)).length < v.queueDepth → s.gives (.reqSubmit h desc prompt us) (fun u =>
          s.started u h 0x0502 (v.id * 2 ^ 32 + fieldAt desc 4 4) ∧ s.partsKept u n ∧ s.dataKept u ∧
          ∃ r : Request, u.svc n v.id = some { v with reqs := v.reqs ++ [r] } ∧ r.tag = fieldAt desc 4 4 ∧ r.cmdTag = h.tag ∧
            r.state = .queued ∧ r.maxTokens = fieldAt desc 12 4 ∧ r.seed = fieldAt desc 32 8 ∧
            r.start = us ∧ r.deadline = (if fieldAt desc 8 4 = 0 then v.deadline else fieldAt desc 8 4) ∧ r.outBytes = [] ∧
            r.prompt = (if fieldAt desc 40 8 = 0 then (desc.drop 192).take (fieldAt desc 28 4) else prompt.take (fieldAt desc 28 4)))) ∧
        (v.queueDepth ≤ (v.reqs.filter (fun r => r.state = .queued)).length → s.gives (.reqSubmit h desc prompt us) (fun u =>
          s.answered u h stHeld 0 [] ∧ (u.prt n).svcs = (s.prt n).svcs ∧ s.partsKept u n ∧ s.dataKept u))) ∧
      (let has := fun (v : Svc) => s.isFront v && v.reqs.any (fun r => r.tag = reqTag.toNat)
       ((s.prt n).svcs.any has = true → s.gives (.reqCancel h reqTag) (fun u =>
          s.answered u h stOK 0 [] ∧ (u.prt n).svcs = (s.prt n).svcs.map (fun v =>
            if has v then { v with cancels := v.cancels ++ [reqTag.toNat] } else v) ∧ s.partsKept u n ∧ s.dataKept u)) ∧
       ((s.prt n).svcs.any has = false → s.gives (.reqCancel h reqTag) (fun u =>
          s.answered u h stBadParam 0 [] ∧ (u.prt n).svcs = (s.prt n).svcs ∧ s.partsKept u n ∧ s.dataKept u))) ∧
      (∀ v, (s.svc n svc.toNat = some v ∧ svc ≠ 0 ∧ v.closing = false) →
        ((size.toNat % 64 = 0 ∧ 4096 ≤ size.toNat ∧ size.toNat ≤ 2 ^ 30) → s.gives (.streamCfg h svc addr size) (fun u =>
          s.answered u h stOK 0 [] ∧ s.partsKept u n ∧ s.dataKept u ∧
          u.svc n svc.toNat = some { v with ringAddr := addr.toNat, ringSize := size.toNat, ringWrite := 0, ringRead := 0 })) ∧
        ((size.toNat % 64 ≠ 0 ∨ size.toNat < 4096 ∨ 2 ^ 30 < size.toNat) → s.gives (.streamCfg h svc addr size) (fun u =>
          s.answered u h stBadParam 0 [] ∧ (u.prt n).svcs = (s.prt n).svcs ∧ s.partsKept u n ∧ s.dataKept u)))) ∧
    (∀ (v : Svc) (r : Request) (rest : List Request) (now : Nat),
      (v.reqs = r :: rest ∧ r.state = .queued ∧ r.tokens = [] ∧
        (v.reqs.filter Request.admittedNow).length < v.maxActive) →
      ∃ q, (v.takeIn (s.wgt p).admitEpoch now).reqs.head? = some q ∧ q.tag = r.tag ∧ q.state = .prefill ∧ q.admitted = now ∧
        q.epoch = (s.wgt p).admitEpoch ∧ q.tokens = v.tokenise r.prompt) ∧
    (∀ v, s.svc p id = some v →
      (v.outReady = [] → s.gives (.streamRecordWrite p id read us) (fun u =>
        u.svc p id = some { v with ringRead := read } ∧ u.hostOut = s.hostOut ∧ u.regs = s.regs ∧ s.partsKept u p ∧ s.dataKept u)) ∧
      (∀ tag flags data rest,
        let len := 16 + (data.length + 15) / 16 * 16
        (v.outReady = (tag, flags, data) :: rest ∧ (s.isBridge = true → s.bridge.linkUp = true) ∧ (s.prt p).resetting = false ∧ v.ringSize ≠ 0 ∧
            v.ringWrite % max 1 (v.ringSize - 64) + len ≤ v.ringSize - 64 ∧ v.ringWrite - read + len ≤ v.ringSize - 64) →
          s.gives (.streamRecordWrite p id read us) (fun u => s.partsKept u p ∧ s.dataKept u ∧
            ((flags % 2 = 0 ∨ v.closing = false ∨ ∃ q ∈ v.reqs, q.tag ≠ tag) →
              ∃ w, u.svc p id = some w ∧ w.outReady = rest ∧ w.ringWrite = v.ringWrite + len ∧ w.ringRead = read ∧
                (flags % 2 = 1 → w.reqs = v.reqs.filter (fun q => q.tag ≠ tag))) ∧
            ((flags % 2 = 1 ∧ v.closing = true ∧ ∀ q ∈ v.reqs, q.tag = tag) → u.svc p id = none) ∧
            (flags % 2 = 0 → u.hostOut = s.hostOut ++
              [(v.ringAddr + 64 + v.ringWrite % max 1 (v.ringSize - 64),
                recordBytes tag flags ((v.reqs.find? (fun r => r.tag = tag)).getD { tag := tag }).records data),
               (v.ringAddr, leBytes 8 (v.ringWrite + len))]))))

/-- R328, R329: KV_ALLOC of another module gets as many pages as are free, up to COUNT, and holds them; with none free status 1, with a
COUNT out of range or no such partition status 2. KV_FREE, KV_READ and KV_WRITE act on pages that the requester holds and refuse others
with status 2 and a log entry; a read or write waits for its bursts (R339, R340); of a page that a request here has borrowed they go to the
lender; a reply with pages gives them to the request that asked, and the data of a read waits at its port. -/
def Obligations.KvPagesAreLentAndReturned : Prop :=
  ∀ (slot : SlotN) (n : PartN) (tag status : BitVec 16) (count page off len : Nat) (data : Bytes) (pages : List Nat) (s : State),
    let back := fun (u : State) (st : Nat) (ps : List Nat) (d : Bytes) => u.linkOut = s.linkOut ++
      [LinkMsg.mk 6 n (s.redirect slot) tag.toNat (leBytes 2 st ++ leBytes 2 0 ++ leBytes 4 ps.length ++ ps.flatMap (leBytes 4) ++ d)]
    let refused := fun (u : State) => back u 2 [] [] ∧ u.parts = s.parts ∧ s.dataKept u
    let own := s.kvFree n count
    let held := s.kvHeld slot n tag.toNat page
    let remote := s.kvRemote slot n tag.toNat page
    let asks := fun (u : State) (d op o l : Nat) (b : Bytes) => u.linkOut = s.linkOut ++ [LinkMsg.mk 5 n (s.redirect d) tag.toNat
      (leBytes 1 op ++ leBytes 1 0 ++ leBytes 2 0 ++ leBytes 4 page ++ leBytes 4 o ++ leBytes 4 l ++ b)]
    (slot.val ≠ s.slot →
      ((s.partState n = 0 ∨ count = 0 ∨ 1024 < count) → s.gives (.kvAlloc slot n tag count) (fun u =>
        refused u ∧ s.logs u srcCtl (code14 0) n tag.toNat)) ∧
      ((s.partState n ≠ 0 ∧ 1 ≤ count ∧ count ≤ 1024) →
        (own = [] → s.gives (.kvAlloc slot n tag count) (fun u => back u 1 [] [] ∧ u = { s with linkOut := u.linkOut })) ∧
        (own ≠ [] → s.gives (.kvAlloc slot n tag count) (fun u => back u 0 own [] ∧ own.length ≤ count ∧
          (∀ q, u.kvHeld slot n tag.toNat q = (own.contains q || s.kvHeld slot n tag.toNat q)) ∧ s.partsKept u n ∧ s.dataKept u)))) ∧
    ((slot.val = s.slot ∧ own.length = count) → s.gives (.kvAlloc slot n tag count) (fun u =>
      (∀ q ∈ own, u.kvHeld slot n tag.toNat q = true) ∧ u.linkOut = s.linkOut ∧ s.partsKept u n ∧ s.dataKept u)) ∧
    (∀ d, remote = some d →
      s.gives (.kvFree slot n tag page) (fun u => asks u d 1 0 0 [] ∧
        (u.prt n).kv.borrowed = (s.prt n).kv.borrowed.erase (d * 65536 + tag.toNat, page) ∧ s.partsKept u n ∧ s.dataKept u) ∧
      s.gives (.kvRead slot n tag page off len) (fun u => asks u d 2 off len [] ∧ u = { s with linkOut := u.linkOut }) ∧
      s.gives (.kvWrite slot n tag page off data) (fun u => asks u d 3 off data.length data ∧ u = { s with linkOut := u.linkOut })) ∧
    ((held = false ∧ remote = none) →
      s.gives (.kvFree slot n tag page) (fun u => refused u ∧ s.logs u srcCtl (code14 0) n page) ∧
      s.gives (.kvRead slot n tag page off len) (fun u => refused u ∧ s.logs u srcCtl (code14 0) n page) ∧
      (s.pwr.serves = none →
        s.gives (.kvWrite slot n tag page off data) (fun u => refused u ∧ s.logs u srcCtl (code14 0) n page))) ∧
    (held = true →
      s.gives (.kvFree slot n tag page) (fun u => back u 0 [] [] ∧
        (∀ q, u.kvHeld slot n tag.toNat q = (decide (q ≠ page) && s.kvHeld slot n tag.toNat q)) ∧ s.partsKept u n ∧ s.dataKept u) ∧
      (s.kvRange n off len = true → s.gives (.kvRead slot n tag page off len) (fun u =>
        let v := s.kvPay slot n tag.toNat page off len
        if s.kvBursts slot n tag.toNat page off len = true then
          back u 0 [] ((s.prt n).kv.page page off len) ∧ u = { v with linkOut := u.linkOut }
        else u = v)) ∧
      ((s.kvRange n off data.length = true ∧ s.kvBursts slot n tag.toNat page off data.length = false) →
        exec (.kvWrite slot n tag page off data) s = .next (s.kvPay slot n tag.toNat page off data.length)) ∧
      ((s.kvRange n off data.length = true ∧ s.kvBursts slot n tag.toNat page off data.length = true) →
        s.gives (.kvWrite slot n tag page off data) (fun u =>
        back u 0 [] [] ∧ (u.prt n).kv.page page off data.length = data ∧ (u.prt n).kv.used = (s.prt n).kv.used ∧
        (∀ q o k, (q ≠ page ∨ o + k ≤ off ∨ off + data.length ≤ o) → (u.prt n).kv.page q o k = (s.prt n).kv.page q o k) ∧
        s.partsKept u n ∧ u.regs = s.regs ∧ s.dataKept u))) ∧
    ((status = 0 ∧ pages = [] ∧ data ≠ []) → s.gives (.kvPageReply slot n tag status pages data) (fun u =>
      let p := Config.portFor slot 6
      (u.port p).rxBuf = (s.port p).rxBuf ++ linkFlits 6 n s.slot slot tag.toNat s.win data ∧ s.portsKept u p ∧
      u = { s with ports := u.ports })) ∧
    (∀ q, ((s.prt n).kv.asking.find? (fun a => a.1 = tag.toNat) = some q ∧ status = 0 ∧ q.2 / 65536 = pages.length ∧
        (pages ≠ [] ∨ data = [])) →
      s.gives (.kvPageReply slot n tag status pages data) (fun u =>
        (u.prt n).kv.borrowed = (s.prt n).kv.borrowed ++ pages.map (fun a => (slot.val * 65536 + tag.toNat, a)) ∧
        (∀ a ∈ (u.prt n).kv.asking, a.1 ≠ tag.toNat) ∧ (u.prt n).kv.used = (s.prt n).kv.used ∧ u.linkOut = s.linkOut ∧
        s.partsKept u n ∧ s.dataKept u))

/-! ## The bridge and the simplest commands -/

/-- R293, R297 to R299: while it may not fetch, the bridge fetches nothing; otherwise it moves HEAD on and takes the entry: an opcode that
is not listed ends with BAD_OPCODE, a command for this module becomes outstanding, one for another slot goes there under a relay tag. A
relayed command's reply reaches the host with the host's tag, or sets ERR while the PCIe link is down (the model's choice, log entry 77);
without a relay of that tag it is dropped. A local command whose parameters are out of form, or whose tag is outstanding, ends with
BAD_PARAM. An entry that arrives shorter
than its 128 bytes stays and sets ERR (the model's choice, log entry 77). -/
def Obligations.BridgeFetchesAndRelays : Prop :=
  ∀ (f : Fin 64) (entry payload : Bytes) (rtag status : BitVec 16) (source : SlotN) (dtl : Word) (s : State),
    let opcode := fieldAt entry 0 2
    let flags := fieldAt entry 2 2
    let target := fieldAt entry 12 2
    let rbuf := fieldAt entry 32 8
    let len := fieldAt entry 28 4
    let params := if flags / 2 % 2 = 1 then (entry.drop 128).take len else (entry.drop 48).take len
    let h : CmdHdr := ⟨.host f, Fin.ofNat 64 (fieldAt entry 4 1), Fin.ofNat 16 (fieldAt entry 5 1), BitVec.ofNat 32 (fieldAt entry 8 4),
      BitVec.ofNat 16 flags, fieldAt entry 40 4⟩
    let inForm := fieldAt entry 4 1 = f.val ∧ flags < 4 ∧ fieldAt entry 6 2 = 0 ∧ fieldAt entry 14 14 = 0 ∧
      len ≤ 61408 ∧ (len ≤ 80 ∨ flags / 2 % 2 = 1) ∧ fieldAt entry 44 4 = 0 ∧ (target ≤ 1023 ∨ target = 0xFFFF)
    let moved := fun (u : State) => u.getF (F.ringCmdHeadHead f) = (s.getF (F.ringCmdHeadHead f) + 1) % ringSize (s.getF (F.ringCmdSizeLog2 f)) ∧
      u.parts = s.parts ∧ s.dataKept u
    (s.canFetch f = false → s.gives (.commandFetch f entry) (fun u =>
      u = { s with bridge := { s.bridge with linkUp := s.bridge.linkUp || s.flag F.glbBridgeEnabled } })) ∧
    ((s.canFetch f = true ∧ entry.length < 128) → s.gives (.commandFetch f entry) (fun u =>
      u.flag (F.ringStatusErr f) = true ∧ u.getF (F.ringCmdHeadHead f) = s.getF (F.ringCmdHeadHead f) ∧ u.replies = s.replies ∧
      u.bridge.outst = s.bridge.outst ∧ u.parts = s.parts ∧ s.dataKept u)) ∧
    ((s.canFetch f = true ∧ 128 ≤ entry.length) →
      (opcodes.find? (fun o => o.1 = opcode) = none → s.gives (.commandFetch f entry) (fun u => moved u ∧
        u.replies = s.replies ++ [⟨.host f, h.tag, stBadOpcode, s.slot, 0, []⟩] ∧ u.bridge.outst = s.bridge.outst ∧
        u.bridge.relays = s.bridge.relays ∧
        u.getF (F.ringRplTailTail f) = (s.getF (F.ringRplTailTail f) + 1) % ringSize (s.getF (F.ringRplSizeLog2 f)))) ∧
      (∀ any w, (opcodes.find? (fun o => o.1 = opcode) = some (opcode, any, w) ∧ inForm ∧
          (wholeCmd opcode w params = true ∨ fieldAt entry 5 1 ≤ 15)) →
        (((target = 0xFFFF ∨ target = s.slot) ∧ s.permitted h (wholeCmd opcode w params) any = true ∧
            (paramsOk opcode len params = false ∨ s.tagTaken f h.tag = true)) → s.gives (.commandFetch f entry) (fun u =>
          u.getF (F.ringCmdHeadHead f) = (s.getF (F.ringCmdHeadHead f) + 1) % ringSize (s.getF (F.ringCmdSizeLog2 f)) ∧
          u.replies = s.replies ++ [⟨.host f, h.tag, stBadParam, s.slot, 0, []⟩] ∧ u.bridge.outst = s.bridge.outst ∧ s.dataKept u)) ∧
        (((target = 0xFFFF ∨ target = s.slot) ∧ s.permitted h (wholeCmd opcode w params) any = true ∧
            paramsOk opcode len params = true ∧ s.tagTaken f h.tag = false) → s.gives (.commandFetch f entry) (fun u => moved u ∧
          u.bridge.outst = s.bridge.outst ++ [⟨.host f, h.tag, h.part, h.tenant, opcode, rbuf, false, 0, false⟩] ∧
          u.replies = s.replies ∧ u.bridge.relays = s.bridge.relays ∧ u.linkOut = s.linkOut)) ∧
        ((target ≠ 0xFFFF ∧ target ≠ s.slot ∧ s.slotServed target = true ∧ s.tagTaken f h.tag = false) → s.gives (.commandFetch f entry) (fun u => moved u ∧
          u.bridge.outst = s.bridge.outst ∧ u.replies = s.replies ∧
          ∃ t, u.bridge.relays = s.bridge.relays ++ [Relay.mk t f h.tag target rbuf false] ∧
            u.linkOut = s.linkOut ++ [LinkMsg.mk 3 h.part (s.redirect target) t (entry.take 32 ++ params)])))) ∧
    (s.bridge.relays.find? (fun r => r.rtag = rtag.toNat) = none → exec (.relayReply rtag status source dtl payload) s = .next s) ∧
    (∀ r, (s.bridge.relays.find? (fun r => r.rtag = rtag.toNat) = some r ∧ r.fn < 64) →
      ((r.dropped = false ∧ s.bridge.linkUp = false) → s.gives (.relayReply rtag status source dtl payload) (fun u =>
        u.replies = s.replies ++ [⟨.host r.fn, r.tag, status.toNat, source, dtl.toNat, payload⟩] ∧
        u.bridge = { s.bridge with relays := s.bridge.relays.erase r } ∧ u.hostOut = s.hostOut ∧
        u.flag (F.ringStatusErr r.fn) = true ∧ u.hbm = s.hbm ∧ u.parts = s.parts)) ∧
      ((r.dropped = false ∧ s.bridge.linkUp = true) → s.gives (.relayReply rtag status source dtl payload) (fun u =>
        u.replies = s.replies ++ [⟨.host r.fn, r.tag, status.toNat, source, dtl.toNat, payload⟩] ∧
        u.bridge = { s.bridge with relays := s.bridge.relays.erase r } ∧ u.hbm = s.hbm ∧ u.parts = s.parts ∧
        ∃ e : Nat × Bytes, u.hostOut = s.hostOut ++ (if payload.length ≤ 48 then [] else [(r.rbuf, payload)]) ++ [(e.1, leBytes 4 r.tag.toNat ++
          leBytes 2 status.toNat ++ leBytes 2 source ++ leBytes 4 dtl.toNat ++ leBytes 4 payload.length ++ e.2)] ∧
          e.1 = (s.getR (R.ringRplBaseLo r.fn)).toNat + (s.getR (R.ringRplBaseHi r.fn)).toNat * 2 ^ 32 +
            64 * (s.getF (F.ringRplTailTail r.fn) % ringSize (s.getF (F.ringRplSizeLog2 r.fn))) ∧ e.2.length = 48)) ∧
      (r.dropped = true → s.gives (.relayReply rtag status source dtl payload) (fun u =>
        u.replies = s.replies ∧ u.hostOut = s.hostOut ∧ u.bridge = { s.bridge with relays := s.bridge.relays.erase r } ∧
        u.getF F.glbBridgeCntDropped = (s.getF F.glbBridgeCntDropped + 1) % 2 ^ 16 ∧ s.regsKept u [R.glbBridgeCnt.addr])))

/-- R252, R253, R345: a function level reset returns the function's rings to reset, drops the replies it owes and its pending vectors, and
of function 0 does so for all; the link's fall stops delivery alone; IRQ_RAISE adds its causes and delivers the vector, or keeps it while
the host has it masked or the link is down, and for a function that is not enabled it logs once; MSIX_UNMASK delivers what is pending. -/
def Obligations.FunctionsResetAndInterrupts : Prop :=
  ∀ (f g vec : Fin 64) (slot : SlotN) (n : PartN) (v : Fin 16) (classes : BitVec 6) (s : State),
    s.gives (.functionLevelReset f) (fun u =>
      ((f = 0 ∨ g = f) →
        u.getR (R.ringCmdHead g) = 0 ∧ u.getR (R.ringCmdTail g) = 0 ∧ u.getR (R.ringRplHead g) = 0 ∧ u.getR (R.ringRplTail g) = 0 ∧
        u.flag (F.ringStatusEnable g) = false ∧ u.getR (R.funcIrqCause g v) = 0 ∧ (∀ p ∈ u.bridge.msixPend, p.1 ≠ g) ∧
        (∀ o ∈ u.bridge.outst, o.sender = .host g → o.started = true ∧ o.dropped = true) ∧
        (∀ r ∈ u.bridge.relays, r.fn = g → r.dropped = true)) ∧
      ((f ≠ 0 ∧ g ≠ f ∧ s.regsWf) → u.getR (R.ringCmdHead g) = s.getR (R.ringCmdHead g) ∧
        u.getR (R.ringRplTail g) = s.getR (R.ringRplTail g) ∧ u.getR (R.ringStatus g) = s.getR (R.ringStatus g)) ∧
      (f = 0 → u.flag F.secSessCtrlOpen = false) ∧ u.replies = s.replies ∧ u.parts = s.parts ∧ s.dataKept u ∧
      (s.regsWf → u.getF F.glbBridgeCntFlr = (s.getF F.glbBridgeCntFlr + 1) % 2 ^ 16)) ∧
    s.gives .pcieLinkDown (fun u => u = { s with bridge := { s.bridge with linkUp := false } }) ∧
    (s.fnEnabled g = true → s.gives (.irqRaise slot g n v classes) (fun u =>
      u.getF (F.funcIrqCauseClass g v) = s.getF (F.funcIrqCauseClass g v) ||| classes.toNat ∧
      u.getF (F.funcIrqCauseSlot g v) = slot ∧
      u.flag (F.funcIrqCauseMulti g v) = (s.flag (F.funcIrqCauseMulti g v) ||
        decide (s.getF (F.funcIrqCauseClass g v) ≠ 0 ∧ s.getF (F.funcIrqCauseSlot g v) ≠ slot)) ∧
      ((s.bridge.msixMask.contains (g.val, v.val) = true ∧ s.bridge.linkUp = true) → u.msix = s.msix ++ [(g.val, v.val)] ∧ u.bridge = s.bridge) ∧
      ((s.bridge.msixMask.contains (g.val, v.val) = false ∨ s.bridge.linkUp = false) →
        u.msix = s.msix ∧ (g.val, v.val) ∈ u.bridge.msixPend ∧ u.bridge.outst = s.bridge.outst) ∧
      s.regsKept u [(R.funcIrqCause g v).addr] ∧ u = { s with regs := u.regs, msix := u.msix, bridge := u.bridge })) ∧
    (s.fnEnabled g = false →
      (s.bridge.irqLogged.contains g.val = true → exec (.irqRaise slot g n v classes) s = .next s) ∧
      (s.bridge.irqLogged.contains g.val = false → s.gives (.irqRaise slot g n v classes) (fun u =>
        s.logs u srcBridge (code14 13) n g ∧ u.msix = s.msix ∧ u.bridge = { s.bridge with irqLogged := g.val :: s.bridge.irqLogged }))) ∧
    s.gives (.msixUnmask g vec) (fun u =>
      (g.val, vec.val) ∈ u.bridge.msixMask ∧ u = { s with bridge := u.bridge, msix := u.msix } ∧ u.bridge.outst = s.bridge.outst ∧
      ((s.bridge.msixPend.contains (g.val, vec.val) = true ∧ s.bridge.linkUp = true) → u.msix = s.msix ++ [(g.val, vec.val)] ∧
        u.bridge.msixPend = s.bridge.msixPend.erase (g.val, vec.val)) ∧
      ((s.bridge.msixPend.contains (g.val, vec.val) = false ∨ s.bridge.linkUp = false) → u.msix = s.msix ∧
        u.bridge.msixPend = s.bridge.msixPend))

/-- R293, R300, R382, R436, R445, Tables 10.4 and 10.7: an opcode that is not listed answers BAD_OPCODE; PING the beat count and the
module's identity; QUERY the item's words, or BAD_PARAM for another item; SYNC_OP operates on an object of its partition and answers with
its value; LOG_READ, NV_READ, TOPO_GET, CERT_GET and ATTEST answer with what they name. A payload longer than 48 bytes that the sender's
buffer does not hold is refused with its length.
The layout of QUERY's payloads beyond the tables is free or the model's reading (log 39). -/
def Obligations.ReadingCommandsAnswer : Prop :=
  ∀ (h : CmdHdr) (opcode obj : BitVec 16) (item value max index count : Word) (op : Byte) (fromBeat : BitVec 64) (nonce : BitVec 256)
      (s : State),
    let answers := fun (c : Instr) (p : Bytes) => (State.fits h p → s.answersWith c h stOK 0 p) ∧
      (¬ State.fits h p → s.answersWith c h stBadParam p.length [])
    ((s.intake = true ∧ s.tooMany h = false ∧ s.tagUsed h = false) → s.answersWith (.commandBadOpcode h opcode) h stBadOpcode 0 []) ∧
    (s.accepts h true true →
      s.answersWith (.ping h) h stOK (s.cad.beat.toNat % 2 ^ 32)
        (leBytes 2 s.slot ++ leBytes 1 s.firn.cfg.grade ++ leBytes 1 s.firn.cfg.reserve ++ leBytes 4 Config.fwVersion.toNat) ∧
      ((item.toNat ≤ 5 ∧ item.toNat ≠ 2 ∧ item.toNat ≠ 3) → answers (.query h item) (s.queryPayload h.part item.toNat)) ∧
      (5 < item.toNat → s.answersWith (.query h item) h stBadParam 0 []) ∧
      answers (.certGet h) (s.firn.certs.map (fun c => leBytes 4 c.length ++ c)).flatten ∧
      ((s.flag F.secStatusKeysValid = true ∧ s.flag F.secDbgOpen = false) →
        answers (.attest h nonce) (s.attestBody h nonce ++ Config.sign Config.identity (s.attestBody h nonce))) ∧
      ((s.flag F.secStatusKeysValid = false ∨ s.flag F.secDbgOpen = true) → s.answersWith (.attest h nonce) h stWrongState 0 [])) ∧
    ((s.accepts h true false ∧ (item.toNat = 2 ∨ item.toNat = 3)) → answers (.query h item) (s.queryPayload h.part item.toNat)) ∧
    (s.accepts h false true →
      ((index.toNat + count.toNat ≤ 4096 ∧ count.toNat * 128 ≤ 61424) → answers (.nvRead h index count)
        ((List.range count.toNat).map (fun k => nvChecked (Sparse.get (fun _ => []) s.firn.nv (index.toNat + k)))).flatten) ∧
      (4096 < index.toNat + count.toNat → s.answersWith (.nvRead h index count) h stBadParam 0 []) ∧
      (s.topoOk = true → answers (.topoGet h) s.firn.topo.bytes) ∧
      ((s.topoOk = false ∧ State.fits h s.firn.topo.bytes) → s.answersWith (.topoGet h) h s.topoStatus 0 [])) ∧
    (let p := ((s.logFrom h fromBeat max.toNat).map Entry.bytes).flatten
     (s.accepts h true (h.tenant.val = 0) ∧ p.length ≤ 61424) → answers (.logRead h fromBeat max) p) ∧
    (let o := obj.toNat
     let k := op.toNat
     let w := s.getR (R.syncObj o)
     let z := if k = 0 then signalWord w value.toNat else if k = 2 then arriveWord w value.toNat else if k = 4 then w ||| 1
       else w &&& 0xFFFFFFFE
     (s.accepts h true false ∧ o < 16384 ∧ value.toNat ≤ 16383) →
      ((k = 8 ∧ s.objOwned h.part o = true) → s.answersWith (.syncOp h obj op value) h stOK w.toNat []) ∧
      (((k = 0 ∨ k = 2 ∨ k = 4 ∨ k = 5) ∧ s.opOk h.part k o = true ∧ (∀ x ∈ s.syncWaits, x.obj ≠ o)) →
        s.gives (.syncOp h obj op value) (fun u => s.answered u h stOK z.toNat [] ∧ u.getR (R.syncObj o) = z ∧
          u.syncWaits = s.syncWaits ∧ s.dataKept u ∧ s.partsKept u h.part)) ∧
      ((k = 1 ∨ k = 3 ∨ k = 6 ∨ k = 7 ∨ 8 < k) → s.answersWith (.syncOp h obj op value) h stBadParam 0 []))

/-! ## Partitions, HBM4, mailboxes and keys -/

/-- R334, R335, R346: PART_CREATE of a free partition from a descriptor whose values stand and whose resources are free makes it;
PART_RESET and PART_DESTROY of a tenant partition start it with PART_BEGIN 128 beats ahead and answer later; when the stores are zero
PART_END goes out; when regions and arrays are zero too, a destroyed partition is gone. -/
def Obligations.PartitionsComeAndGo : Prop :=
  ∀ (h : CmdHdr) (desc : Bytes) (n : PartN) (s : State),
    (s.accepts h false false →
      let k := h.part.val
      ((s.partDescOk k desc = true ∧ s.partState k = 0 ∧ (s.flag F.secDbgOpen = false ∨ fieldAt desc 1 1 = 0) ∧ s.partFree desc = true) →
        s.gives (.partCreate h desc) (fun u =>
          s.answered u h stOK 0 [] ∧ u.partState k = 1 ∧ u.tenantOf k = fieldAt desc 1 1 ∧ (u.prt k).desc = desc ∧
          (∀ i < 3, u.getR (R.partTiles k i) = BitVec.ofNat 32 (fieldAt desc (4 + 4 * i) 4)) ∧
          u.hbmRegions k = [(fieldAt desc 16 4 * 0x1000000, fieldAt desc 20 4 * 0x1000000),
            (48000000000 + fieldAt desc 24 4 * 0x1000000, fieldAt desc 28 4 * 0x1000000)] ∧
          (∀ j, j ≠ k → j ≠ 0 → u.prt j = s.prt j) ∧ u.hbm = s.hbm ∧ u.ports = s.ports)) ∧
      (s.partDescOk k desc = false → s.answersWith (.partCreate h desc) h stBadParam 0 []) ∧
      ((s.partDescOk k desc = true ∧ s.partState k ≠ 0) → s.answersWith (.partCreate h desc) h stWrongState 0 []) ∧
      ((s.partDescOk k desc = true ∧ s.partState k = 0 ∧ s.flag F.secDbgOpen = false ∧ s.partFree desc = false) →
        s.answersWith (.partCreate h desc) h stNoResource 0 [])) ∧
    (let k := h.part.val
     let begins := fun (u : State) (st opcode : Nat) => u.partState k = st ∧ (u.prt k).resetting = true ∧ u.hbm = s.hbm ∧
       u.rimeOut = rimeQueue s.rimeOut ⟨0x08, 0xFF, 0x72, k, [BitVec.ofNat 32 s.applyAhead, BitVec.ofNat 32 (s.applyAhead / 2 ^ 32)]⟩ ∧
       (BitVec.ofNat 64 s.applyAhead, (⟨0x08, 0xFF, 0x72, k, []⟩ : RimeMsg)) ∈ u.rime ∧
       (((∀ o ∈ s.bridge.outst, o.part ≠ k ∨ o.started = false ∨ wholeOp o.opcode = true) ∧ (s.wgt k).swap = none) → s.started u h opcode 0)
     (s.accepts h true false →
       ((k ≠ 0 ∧ s.partState k ≠ 0 ∧ s.pwr.running = none) → s.gives (.partReset h) (fun u => begins u 2 0x0102)) ∧
       ((k ≠ 0 ∧ s.partState k ≠ 0 ∧ s.pwr.running ≠ none) → s.answersWith (.partReset h) h stCancelled 0 []) ∧
       (k = 0 → s.answersWith (.partReset h) h stBadParam 0 [])) ∧
     (s.accepts h false false →
       ((k ≠ 0 ∧ s.partState k ≠ 0 ∧ s.progState k = 0 ∧ s.pwr.running = none) → s.gives (.partDestroy h) (fun u => begins u 3 0x0101)) ∧
       ((k ≠ 0 ∧ s.progState k ≠ 0) → s.answersWith (.partDestroy h) h stWrongState 0 []))) ∧
    (let x := s.prt n
     ((x.resetting = false ∨ x.discard = false ∨ x.endAt ≠ none) → exec (.partResetZeroDone n) s = .next s) ∧
     ((x.resetting = true ∧ x.discard = true ∧ x.endAt = none) → s.gives (.partResetZeroDone n) (fun u =>
       (∀ t ∈ s.tilesOf n, (u.tile t).store = [] ∧ (u.tile t).writers = [] ∧ (u.tile t).scrubLine = 0) ∧ (∀ t, t ∉ s.tilesOf n → u.tile t = s.tile t) ∧
       (u.prt n).endAt = some s.applyAhead ∧ (u.prt n).svcs = [] ∧ (u.prt n).kv.used = [] ∧ (∀ k ∈ u.sec.manKeys, k.1 ≠ n.val) ∧
       u.rimeOut = rimeQueue s.rimeOut ⟨0x09, 0xFF, 0x72, n, [BitVec.ofNat 32 s.applyAhead, BitVec.ofNat 32 (s.applyAhead / 2 ^ 32)]⟩ ∧
       s.partsKept u n ∧ u.hbm = s.hbm ∧ u.arrays = s.arrays)) ∧
     ((s.partState n ≠ 3 ∨ x.resetting = true) → exec (.partDestroyZeroDone n) s = .next s) ∧
     ((s.partState n = 3 ∧ x.resetting = false ∧ n ≠ 0) → s.gives (.partDestroyZeroDone n) (fun u =>
       u.partState n = 0 ∧ u.prt n = {} ∧ (∀ t ∈ s.tilesOf n, ∀ a < 128, (u.arr t a).rows = [] ∧ (u.arr t a).scale = []) ∧
       (∀ a, ((∃ r ∈ s.hbmRegions n, r.1 ≤ a ∧ a < r.1 + r.2) → u.hbmByte a = 0) ∧
         ((∀ r ∈ s.hbmRegions n, a < r.1 ∨ r.1 + r.2 ≤ a) → u.hbmByte a = s.hbmByte a)) ∧
       (∀ j, j ≠ n.val → j ≠ 0 → u.prt j = s.prt j) ∧ u.tiles = s.tiles ∧ u.ports = s.ports)))

/-- R16, R185, R339, R341, R342, R344, R356: PART_QOS sets the override for the next window; PART_IRQ sets a vector's coalescing, whose timer
sends what it has collected; an HBM4 burst of a partition reads or writes 64 bytes of its own regions and takes one burst of its bucket in
locked cadence, a scheduled one a grant of the beat besides, or waits; one outside is counted and has no effect; a byte beyond the memory does not exist; a line whose parity fails is
bad until it is restored. -/
def Obligations.SharesInterruptsAndBursts : Prop :=
  ∀ (h : CmdHdr) (ovr : Bytes) (vector : Byte) (count : BitVec 16) (us : Word) (n : PartN) (v : Fin 16) (addr line : Nat)
      (d : BitVec 512) (b : BurstNote) (data : Bytes) (s : State),
    let k := h.part.val
    let share := fieldAt ovr 2 2
    let weight := fieldAt ovr 4 2
    let clear := fieldAt ovr 0 1 = 1
    let others := s.tenantSum k (fun j => (s.prt j).shareNext)
    let inForm := ovr.length = 16 ∧ fieldAt ovr 0 1 ≤ 1 ∧ fieldAt ovr 1 1 = 0 ∧ fieldAt ovr 6 10 = 0 ∧ k ≠ 0
    (s.accepts h false false →
      ((inForm ∧ s.partState k ≠ 0 ∧ clear ∧ others + (s.prt k).share ≤ 240) → s.gives (.partQos h ovr) (fun u =>
        s.answered u h stOK 0 [] ∧ (u.prt k).overrideNext = some none ∧ (u.prt k).override = (s.prt k).override ∧ s.partsKept u k ∧
        s.dataKept u)) ∧
      ((inForm ∧ s.partState k ≠ 0 ∧ fieldAt ovr 0 1 = 0 ∧ 1 ≤ share ∧ share ≤ 256 ∧ 1 ≤ weight ∧ weight ≤ 255 ∧ others + share ≤ 240 ∧
          (s.locked = false ∨ s.running k = false ∨
            ((s.prt k).prog.map Prog.hbmPeak).getD 0 ≤ share * s.burstsPerBeat * s.winLen / 256)) → s.gives (.partQos h ovr) (fun u =>
        s.answered u h stOK 0 [] ∧ (u.prt k).overrideNext = some (some ⟨share, weight⟩) ∧ (u.prt k).override = (s.prt k).override ∧
        s.partsKept u k ∧ s.dataKept u)) ∧
      ((¬ inForm ∨ (fieldAt ovr 0 1 = 0 ∧ 240 < others + share) ∨ (clear ∧ 240 < others + (s.prt k).share)) → s.answersWith (.partQos h ovr) h stBadParam 0 [])) ∧
    ((s.accepts h true false ∧ s.partState k ≠ 0) →
      ((vector.toNat ≤ 15 ∧ count.toNat ≤ 4095 ∧ us.toNat ≤ 1000000 ∧ (us ≠ 0 ∨ count.toNat ≤ 1)) →
        s.gives (.partIrq h vector count us) (fun u => s.answered u h stOK 0 [] ∧ u.getF (F.partIrqCfgCount k vector.toNat) = max 1 count.toNat ∧
          u.getF (F.partIrqCfgTimeUs k vector.toNat) = us.toNat ∧ s.partsKept u k ∧ s.dataKept u)) ∧
      ((15 < vector.toNat ∨ 4095 < count.toNat ∨ 1000000 < us.toNat ∨ (us = 0 ∧ 1 < count.toNat)) →
        s.answersWith (.partIrq h vector count us) h stBadParam 0 [])) ∧
    (let q := Sparse.get (fun _ => ({} : IrqSt)) (s.prt n).irq v.val
     ((q.timer = false ∨ q.count = 0) → exec (.irqCoalesceTimeout n v) s = .next s) ∧
     ((q.timer = true ∧ q.count ≠ 0) → s.gives (.irqCoalesceTimeout n v) (fun u =>
       u.linkOut = s.linkOut ++ [s.mgmt s.bridgeSlot 0x0020 (leBytes 1 (s.tenantOf n) ++ leBytes 1 n ++ leBytes 1 v ++ leBytes 1 q.classes)] ∧
       Sparse.get (fun _ => ({} : IrqSt)) (u.prt n).irq v.val = {} ∧ s.partsKept u n ∧ u = { s with linkOut := u.linkOut, parts := u.parts }))) ∧
    (let a := addr / 64 * 64
     let east := 48000000000 ≤ a
     let full := if east then (s.prt n).bucketE else (s.prt n).bucketW
     let grants := if east then (s.prt n).hbmGrantE else (s.prt n).hbmGrantW
     let one := if b.sched then 1 else 0
     let paid := fun (u : State) => s.partsKept u n ∧ u.prt n = (if s.locked then (if east then
         { s.prt n with bucketE := full - 256, hbmGrantE := grants - one } else { s.prt n with bucketW := full - 256, hbmGrantW := grants - one })
       else s.prt n)
     let waits := s.locked = true ∧ (full < 256 ∨ (b.sched = true ∧ grants = 0))
     ((n = 0 ∧ hbmSize ≤ a) → ∀ w, exec (.hbmBurst n addr w b) s = .fault .noSuchHbmAddress) ∧
     ((n ≠ 0 ∧ s.hbmOwns n a 64 = false) → ∀ w, s.gives (.hbmBurst n addr w b) (fun u =>
       u.getF (F.partIsoHbm n) = (s.getF (F.partIsoHbm n) + 1) % 2 ^ 16 ∧ u.flag F.netStatusBadDest = true ∧ u.hbm = s.hbm ∧
       u.hbmBad = s.hbmBad ∧ u = { s with regs := u.regs, parts := u.parts, log := u.log })) ∧
     (((n = 0 ∧ a < hbmSize) ∨ (n ≠ 0 ∧ s.hbmOwns n a 64 = true)) →
       (waits → ∀ w, exec (.hbmBurst n addr w b) s = .next s) ∧
       (¬ waits →
         s.gives (.hbmBurst n addr (some d) b) (fun u =>
           (∀ i < 64, u.hbmByte (a + i) = (leBytes 64 d.toNat).getD i 0) ∧ (∀ k, (k < a ∨ a + 64 ≤ k) → u.hbmByte k = s.hbmByte k) ∧
           paid u ∧ u = { s with hbm := u.hbm, parts := u.parts }) ∧
         (a / 4096 ∈ s.hbmBad → exec (.hbmBurst n addr none b) s = .next s) ∧
         ((a / 4096 ∉ s.hbmBad ∧ b.ok = true) → s.gives (.hbmBurst n addr none b) (fun u => paid u ∧ u = { s with parts := u.parts })) ∧
         ((a / 4096 ∉ s.hbmBad ∧ b.ok = false) → s.gives (.hbmBurst n addr none b) (fun u =>
           u.hbmBad = s.hbmBad ++ [a / 4096] ∧ u.arrays = s.arrays ∧ u.tiles = s.tiles ∧ u.routers = s.routers ∧ u.ports = s.ports ∧
           (s.log.spill = [] → u.hbm = s.hbm ∧ u.log = s.log) ∧
           ((s.log.spill = [] ∧ ∀ p < 16, (s.prt p).kv.used = [] ∧ (s.wgt p).resident.man = none ∧ (s.wgt p).staging.man = none ∧
               (s.wgt p).mirrorRes.man = none ∧ (s.wgt p).mirrorStg.man = none) → paid u ∧ u = { s with hbmBad := u.hbmBad, parts := u.parts })))))) ∧
    (line ∉ s.hbmBad → exec (.hbmLineRestored line data) s = .next s) ∧
    (line ∈ s.hbmBad → s.gives (.hbmLineRestored line data) (fun u =>
      (∀ i < 4096, u.hbmByte (4096 * line + i) = data.getD i 0) ∧
      (∀ k, (k < 4096 * line ∨ 4096 * line + 4096 ≤ k) → u.hbmByte k = s.hbmByte k) ∧ line ∉ u.hbmBad ∧ u.parts = s.parts ∧
      s.logs u (srcHbm (if 4096 * line < 48000000000 then 0 else 1)) 0x0F02 0xFF (4096 * line)))

/-- R301 to R303, R439 to R441: a write of GO sends the sixteen words to the other end and sets its FLAG, and is refused and counted while
GO is set or from a requester that may not; DONE clears FLAG and the sender's GO; a message of a module that is not the peer is logged;
key messages add, replace and remove keys when they pass, and a session opens on a signature over the nonce, which then changes. -/
def Obligations.MailboxesAndKeys : Prop :=
  ∀ (c : Fin 32) (slot : SlotN) (secure : Bool) (words : List Word) (payload : Bytes) (s : State),
    let may := c.val < 8 → secure = true
    let host := s.mbxHostPeer c = true
    let answer := fun (u : State) (op st : Nat) => if s.flag (F.mbxSendCtrlGo c) then (c.val, op, st) ∈ u.sec.answers
      else u.getR (R.mbxSendData c 0) = BitVec.ofNat 32 op ∧ u.getR (R.mbxSendData c 1) = BitVec.ofNat 32 st ∧ u.flag (F.mbxSendCtrlGo c) = true
    let quiet := fun (u : State) => u.parts = s.parts ∧ s.dataKept u
    let n := s.chanPart c
    let id := fieldAt payload 0 8
    ((may ∧ s.flag (F.mbxSendCtrlGo c) = false) → s.gives (.sendCtrlGo c false secure) (fun u =>
      u.flag (F.mbxSendCtrlGo c) = true ∧ quiet u ∧
      (host → (∀ k < 16, u.getR (R.mbxHostRecvData 0 c k) = s.getR (R.mbxSendData c k)) ∧ u.flag (F.mbxHostRecvCtrlFlag 0 c) = true ∧
        u.linkOut = s.linkOut) ∧
      (¬ host → u.linkOut = s.linkOut ++ [s.mgmt (s.getF (F.mbxCfgPeer c)) 0x0011 (leBytes 1 c ++ leBytes 3 0 ++
        ((List.range 16).map (fun k => leBytes 4 (s.getR (R.mbxSendData c k)).toNat)).flatten)]))) ∧
    ((¬ may ∨ s.flag (F.mbxSendCtrlGo c) = true) → s.gives (.sendCtrlGo c false secure) (fun u =>
      u.getF (F.mbxSendCtrlRefused c) = (s.getF (F.mbxSendCtrlRefused c) + 1) % 2 ^ 16 ∧ s.regsKept u [(R.mbxSendCtrl c).addr] ∧
      Sparse.get (fun _ => 0) u.sec.refused c.val = Sparse.get (fun _ => 0) s.sec.refused c.val + (if c.val < 8 ∧ secure = false then 1 else 0) ∧
      u = { s with regs := u.regs, sec := { s.sec with refused := u.sec.refused } })) ∧
    (¬ host → exec (.sendCtrlGo c true secure) s = .next s ∧ exec (.recvCtrlDone c true secure) s = .next s) ∧
    ((host ∧ may ∧ s.flag (F.mbxHostSendCtrlGo 0 c) = false) → s.gives (.sendCtrlGo c true secure) (fun u =>
      u.flag (F.mbxHostSendCtrlGo 0 c) = true ∧ u.flag (F.mbxRecvCtrlFlag c) = true ∧
      (∀ k < 16, u.getR (R.mbxRecvData c k) = s.getR (R.mbxHostSendData 0 c k)) ∧ quiet u)) ∧
    ((may ∧ s.flag (F.mbxRecvCtrlFlag c) = false) → exec (.recvCtrlDone c false secure) s = .next s) ∧
    ((may ∧ s.flag (F.mbxRecvCtrlFlag c) = true) → s.gives (.recvCtrlDone c false secure) (fun u =>
      u.flag (F.mbxRecvCtrlFlag c) = false ∧ quiet u ∧ (host → u.flag (F.mbxHostSendCtrlGo 0 c) = false ∧ u.linkOut = s.linkOut) ∧
      (¬ host → u.linkOut = s.linkOut ++ [s.mgmt (s.getF (F.mbxCfgPeer c)) 0x0012 (leBytes 1 c ++ leBytes 3 0)]))) ∧
    ((host ∧ may ∧ s.flag (F.mbxHostRecvCtrlFlag 0 c) = true ∧ (∀ a ∈ s.sec.answers, a.1 ≠ c.val)) →
      s.gives (.recvCtrlDone c true secure) (fun u =>
        u.flag (F.mbxHostRecvCtrlFlag 0 c) = false ∧ u.flag (F.mbxSendCtrlGo c) = false ∧ u = { s with regs := u.regs })) ∧
    (s.getF (F.mbxCfgPeer c) = slot.val →
      s.gives (.mbxMsg slot c words) (fun u => (∀ k < 16, u.getR (R.mbxRecvData c k) = words.getD k 0) ∧ u.flag (F.mbxRecvCtrlFlag c) = true ∧
        u.getF (F.mbxRecvCtrlReceived c) = (s.getF (F.mbxRecvCtrlReceived c) + 1) % 2 ^ 16 ∧ u = { s with regs := u.regs }) ∧
      ((s.flag (F.mbxSendCtrlGo c) = true ∧ (∀ a ∈ s.sec.answers, a.1 ≠ c.val)) → s.gives (.mbxDone slot c) (fun u =>
        u.flag (F.mbxSendCtrlGo c) = false ∧ s.regsKept u [(R.mbxSendCtrl c).addr] ∧ u = { s with regs := u.regs }))) ∧
    (s.getF (F.mbxCfgPeer c) ≠ slot.val → exec (.mbxDone slot c) s = .next s ∧
      s.gives (.mbxMsg slot c words) (fun u => s.onlyLogs u ∧ s.logs u srcCtl (code14 7) (s.getF (F.mbxCfgPart c)) c)) ∧
    ((193 ≤ payload.length ∧ s.staging n = false ∧ s.flag F.secStatusKeysValid = true ∧ s.flag F.secDbgOpen = false) →
      (let nonce := (payload.drop 133).take 12
       let r := Config.gcmOpen (Config.wrapKey Config.identity (payload.take 133) nonce n (s.tenantOf n)) nonce [] ((payload.drop 145).take 48)
       s.gives (.tenantKey c payload) (fun u => quiet u ∧
        (r = none → u.sec.tenantKeys = s.sec.tenantKeys ∧ answer u 0x01 stDigest) ∧
        (∀ b, r = some b → Sparse.get (fun _ => 0) u.sec.tenantKeys n = BitVec.ofNat 256 (leNat b) ∧ answer u 0x01 stOK)))) ∧
    ((141 ≤ payload.length ∧ s.staging n = false) → s.gives (.manifestKeyAdd c payload) (fun u => quiet u ∧
      ((s.manKeysOf n).length < 8 → u.sec.manKeys = s.sec.manKeys ++ [(n, id, (payload.drop 8).take 133)] ∧ answer u 0x02 stOK) ∧
      (8 ≤ (s.manKeysOf n).length → u.sec.manKeys = s.sec.manKeys ∧ answer u 0x02 stNoResource))) ∧
    ((8 ≤ payload.length ∧ s.staging n = false) → s.gives (.manifestKeyRemove c payload) (fun u => quiet u ∧
      u.sec.manKeys = s.sec.manKeys.filter (fun k => !(k.1 = n && k.2.1 = id)) ∧
      answer u 0x03 (if (s.manKeysOf n).any (fun k => k.2.1 = id) then stOK else stBadParam))) ∧
    (let rest := s.firn.opKeys.filter (fun k => k.id ≠ id)
     (8 ≤ c.val → s.gives (.operatorKeySet c payload) (fun u => u.firn = s.firn ∧ answer u 0x10 stNotPermitted) ∧
       s.gives (.operatorKeyRevoke c payload) (fun u => u.firn = s.firn ∧ answer u 0x11 stNotPermitted)) ∧
     ((c.val < 8 ∧ 282 ≤ payload.length ∧ fieldAt payload 8 1 < 4) → s.gives (.operatorKeySet c payload) (fun u => quiet u ∧
       ((s.opSigned payload 142 = true ∧ rest.length < 8) → u.firn.opKeys = rest ++ [OpKey.mk id (fieldAt payload 8 1) ((payload.drop 9).take 133)] ∧
         answer u 0x10 stOK) ∧
       (s.opSigned payload 142 = false → u.firn = s.firn ∧ answer u 0x10 stSignature))) ∧
     ((c.val < 8 ∧ 148 ≤ payload.length ∧ rest.length ≠ s.firn.opKeys.length) → s.gives (.operatorKeyRevoke c payload) (fun u => quiet u ∧
       ((s.opSigned payload 8 = true ∧ rest ≠ []) → u.firn.opKeys = rest ∧ answer u 0x11 stOK) ∧
       ((s.opSigned payload 8 = true ∧ rest = []) → u.firn = s.firn ∧ answer u 0x11 stNotPermitted) ∧
       (s.opSigned payload 8 = false → u.firn = s.firn ∧ answer u 0x11 stSignature)))) ∧
    (let key := s.opKeyFor (fieldAt s.respBytes 0 8) 1
     let signed := ∃ k, key = some k ∧ Config.verify k.key (s.nonceBytes R.secSessNonce ++ leBytes 2 s.slot) (s.respBytes.drop 8) = true
     s.gives .secSessCtrlGo (fun u => quiet u ∧ (signed → u.flag F.secSessCtrlOpen = true) ∧
      (¬ signed → u.flag F.secSessCtrlOpen = s.flag F.secSessCtrlOpen) ∧
      (∀ k < 8, u.getR (R.secSessNonce k) = Config.freeWord (s.free + k)))) ∧
    s.gives .secSessCtrlEnd (fun u => u.flag F.secSessCtrlOpen = false ∧ s.regsKept u [R.secSessCtrl.addr] ∧ u = { s with regs := u.regs })

/-! ## The cadence domain -/

/-- R243 to R246, R365, R366, R370: the master sends marks at multiples of 512 on every used port; a module that follows takes what a mark
says, is aligned after eight marks within four beats, and leaves the domain beyond sixteen, its own request the stretch in force from
then on (R156); the loss of marks leaves it too; the masters
keep requests and announce a larger one; the standby master takes over; LATE announces or raises an extension, and after the fourth hold
window of an episode, or in silence, the slot has failed. -/
def Obligations.MarksRequestsAndMasters : Prop :=
  ∀ (m : Mark) (arrivalPs : Int) (slot : SlotN) (pct : Byte) (beat window : BitVec 64) (lag : Word) (supply : Bool) (s : State),
    let left := fun (u : State) => u.locked = false ∧ u.flag F.cadAlignLeft = true ∧ u.flag F.cadAlignAligned = false ∧
      u.cad.running = false ∧ u.pwr.failedModule = true ∧ u.cad.stretchAt = none ∧
      u.getF F.cadStretchInForce = s.getF F.cadStretchLocalReq ∧ u.cad.beat = s.cad.beat ∧ u.parts = s.parts ∧ s.dataKept u
    let lat := if m.master.val = s.firn.topo.master then s.me.latMaster else s.me.latStandby
    let err := (arrivalPs - ((m.beat.toNat * s.period + m.corr.toNat + lat : Nat) : Int)).natAbs
    ((s.cad.masterNow = false ∨ s.locked = false ∨ s.cad.beat.toNat % 512 ≠ 0) → exec .markSend s = .next s) ∧
    ((s.cad.masterNow = true ∧ s.locked = true ∧ s.cad.beat.toNat % 512 = 0) → s.gives .markSend (fun u =>
      (∃ corr dest, ∀ p, (u.port p).txQ =
        (if p ∈ s.usedPorts then linkFlits 4 0 dest s.slot 0 s.win (s.markBytes corr) else []) ++ (s.port p).txQ) ∧
      u.rimeOut = rimeQueue s.rimeOut ⟨0x18, 0xFF, 0x72, 0, [BitVec.ofNat 32 s.cad.beat.toNat,
        BitVec.ofNat 32 (s.cad.beat.toNat / 2 ^ 32), BitVec.ofNat 32 (s.getF F.cadStretchInForce)]⟩ ∧
      u.cad = { s.cad with takeover := s.cad.takeover - 1 } ∧ u = { s with ports := u.ports, rimeOut := u.rimeOut, cad := u.cad, free := u.free })) ∧
    ((m.epoch.toNat < s.getF F.cadMasterEpoch ∨ (s.locked = false ∧ s.cad.joining = false)) → exec (.markReceive m arrivalPs) s = .next s) ∧
    ((s.locked = true ∧ s.getF F.cadMasterEpoch ≤ m.epoch.toNat ∧ (s.cad.masterNow = false ∨ s.getF F.cadMasterEpoch ≠ m.epoch.toNat)) →
      s.gives (.markReceive m arrivalPs) (fun u =>
        u.getF F.cadMasterEpoch = m.epoch.toNat ∧ u.getF F.cadMasterSlot = m.master ∧ u.cad.masterNow = false ∧
        (err ≤ 16 * s.period → u.cad.nextStretch = m.next.toNat ∧
          u.cad.stretchAt = (if m.at_.toNat = 2 ^ 64 - 1 then none else some m.at_.toNat)) ∧
        u.cad.ext = (if m.extend then some ⟨m.extWindow.toNat, m.extCount.toNat, 0⟩ else s.cad.ext) ∧ u.cad.beat = s.cad.beat ∧
        u.rimeOut = rimeQueue s.rimeOut ⟨0x18, 0xFF, 0x72, 0, [BitVec.ofNat 32 m.beat.toNat, BitVec.ofNat 32 (m.beat.toNat / 2 ^ 32),
          BitVec.ofNat 32 m.now.toNat]⟩ ∧ u.parts = s.parts ∧ s.dataKept u ∧
        ((err ≤ 4 * s.period ∧ 7 ≤ s.cad.alignedRun) → u.flag F.cadAlignAligned = true ∧ u.locked = true) ∧
        (16 * s.period < err → left u))) ∧
    ((s.locked = true ∧ s.cad.masterNow = false) → s.gives .markLoss left) ∧
    ((s.locked = false ∨ s.cad.masterNow = true) → exec .markLoss s = .next s) ∧
    s.gives (.reqReceive slot pct beat) (fun u =>
      u.cad.reqs = ⟨slot, pct.toNat⟩ :: s.cad.reqs.filter (fun r => r.slot ≠ slot.val) ∧ u.cad.beat = s.cad.beat ∧ u = { s with cad := u.cad, regs := u.regs } ∧
      (s.cad.masterNow = false → u.cad = { s.cad with reqs := u.cad.reqs } ∧ u.regs = s.regs) ∧
      ((s.cad.masterNow = true ∧ u.cad.maxReq ≠ s.cad.maxReq) → u.cad.nextStretch = u.cad.maxReq ∧
        u.cad.stretchAt = some (stretchBeat s.cad.beat.toNat) ∧ u.flag F.cadStretchPending = true)) ∧
    (s.locked = false → exec .reqKeepalive s = .next s) ∧
    (s.locked = true → s.gives .reqKeepalive (fun u => u.linkOut = s.linkOut ++ (s.masters.filter (· ≠ s.slot)).map (fun d =>
      LinkMsg.mk 4 0 (s.redirect d) 1 (leBytes 1 s.localReq ++ leBytes 7 0 ++ leBytes 8 s.cad.beat.toNat)) ∧
      u = { s with linkOut := u.linkOut, cad := u.cad, regs := u.regs })) ∧
    ((s.me.standbyMaster = false ∨ s.cad.masterNow = true ∨ s.locked = false) → exec .masterTakeover s = .next s) ∧
    ((s.me.standbyMaster = true ∧ s.cad.masterNow = false ∧ s.locked = true) → s.gives .masterTakeover (fun u =>
      u.cad = { s.cad with masterNow := true, takeover := 16 } ∧ u.getF F.cadMasterSlot = s.slot ∧
      u.getF F.cadMasterEpoch = (s.getF F.cadMasterEpoch + 1) % 2 ^ 8 ∧ u.parts = s.parts ∧ s.dataKept u)) ∧
    (s.actsAsMaster = false → exec (.cadenceLate slot window lag supply) s = .next s ∧ exec (.silentSlot slot) s = .next s) ∧
    (s.actsAsMaster = true →
      ((s.cad.ext = none ∧ s.cad.episode < 4) → s.gives (.cadenceLate slot window lag supply) (fun u =>
        u = { s with cad := { s.cad with ext := some ⟨s.extWindow, s.extCount lag.toNat, lag.toNat⟩ } })) ∧
      ((s.cad.ext = none ∧ 4 ≤ s.cad.episode) → s.gives (.cadenceLate slot window lag supply) (fun u =>
        slot.val ∈ u.cad.failedSlots ∧ s.dataKept u)) ∧
      (∀ x, (s.cad.ext = some x ∧ s.win < x.x ∧ window.toNat < x.x ∧ x.lag < lag.toNat) →
        s.gives (.cadenceLate slot window lag supply) (fun u =>
          u = { s with cad := { s.cad with ext := some ⟨x.x, s.extCount lag.toNat, lag.toNat⟩ } })) ∧
      ((s.cad.running = true ∧ slot.val ∈ s.others ∧ slot.val ∉ s.cad.leftOut ∧ slot.val ∉ s.cad.vacated) →
        s.gives (.silentSlot slot) (fun u => slot.val ∈ u.cad.failedSlots ∧ u.cad.running = true ∧ s.dataKept u)))

/-- R240, R241, R247, R300: the bridge answers TOPO_QUERY; a module that fetches joins with its own table when the bridge's is not newer or
the answer does not come, asks for the rest of a newer one, puts a whole newer one that passes in force, and stays out of every domain when it does not pass;
end-to-end echoes keep the
smallest round trip; the master runs the domain once every module has joined or is left out; TOPO_PUT collects a table for the next
reset; DOMAIN_JOIN trains the ports that have peers and goes on once they are up, and DOMAIN_LEAVE ends membership. -/
def Obligations.DomainBringUpAndMembership : Prop :=
  ∀ (h : CmdHdr) (slot : SlotN) (epoch off32 total32 : Word) (off max total : Nat) (data : Bytes) (count resPs arrival beat : BitVec 64)
      (leftOut : List Nat) (aligned mismatch : Bool) (s : State),
    let t := s.firn.topo
    let up := (List.range 16).all (fun p => !s.flag (F.portCfgEnable p) || s.portUp p)
    let joins := fun (u : State) => u.cad.fetch = none ∧ u.firn = s.firn ∧
      (s.me.master = true → u.locked = true ∧ u.cad.masterNow = true ∧ u.cad.beat = 0 ∧ u.cad.joining = false) ∧
      (s.me.master = false → u.cad.joining = true ∧ u.cad.beat = s.cad.beat)
    (s.me.bridge = true → s.gives (.topoQuery slot epoch off max) (fun u =>
      u.linkOut = s.linkOut ++ [s.mgmt slot 0x0201 (leBytes 4 t.epoch ++ leBytes 4 t.bytes.length ++ leBytes 4 off ++ leBytes 4 0 ++
        (t.bytes.drop off).take (min max 61000))] ∧ u = { s with linkOut := u.linkOut })) ∧
    (s.cad.fetch = none → exec (.topoInfo epoch total off data) s = .next s ∧ exec .topoInfoTimeout s = .next s) ∧
    (∀ a b old, s.cad.fetch = some (a, b, old) →
      s.gives .topoInfoTimeout joins ∧
      (epoch.toNat ≤ t.epoch → s.gives (.topoInfo epoch total off data) joins) ∧
      (let z := putPiece old off data
       t.epoch < epoch.toNat →
        ((z.length < total ∨ data = []) → s.gives (.topoInfo epoch total off data) (fun u =>
          u.cad = { s.cad with fetch := some (epoch.toNat, total, z) } ∧ u.linkOut = s.linkOut ++ [s.mgmt s.bridgeSlot 0x0200
            (leBytes 4 t.epoch ++ leBytes 4 z.length ++ leBytes 4 61000)] ∧ u = { s with linkOut := u.linkOut, cad := u.cad })) ∧
        (∀ q, (total ≤ z.length ∧ data ≠ [] ∧ (s.judgeTopo z).2 = some q) → s.gives (.topoInfo epoch total off data) (fun u =>
          u.firn.topo = q ∧ u.getF F.cadCfgPeriod = q.n ∧ u.getF F.cadCfgWindow = q.l256 ∧ u.hbm = s.hbm)) ∧
        ((total ≤ z.length ∧ data ≠ [] ∧ (s.judgeTopo z).2 = none) → s.gives (.topoInfo epoch total off data) (fun u =>
          u.firn = s.firn ∧ u.cad = { s.cad with fetch := none, topoFault := some (s.judgeTopo z).1 } ∧ u.locked = false ∧
          (∀ p : PortN, u.getF (F.portStatusState p) = 0) ∧ u.hbm = s.hbm)))) ∧
    s.gives (.echoE2e slot count resPs) (fun u => u.linkOut = s.linkOut ++ [s.mgmt slot 0x0203 (leBytes 8 count.toNat ++ leBytes 8 resPs.toNat)] ∧
      u = { s with linkOut := u.linkOut }) ∧
    s.gives (.echoE2eReply slot count resPs arrival) (fun u =>
      let n := Sparse.get (fun _ => 0) s.cad.pairCnt slot.val + 1
      let rt := 50 * (arrival.toNat - count.toNat) - resPs.toNat
      Sparse.get (fun _ => 0) u.cad.pairCnt slot.val = n ∧
      Sparse.get (fun _ => 0) u.cad.pairMin slot.val = (if n = 1 then rt else min rt (Sparse.get (fun _ => 0) s.cad.pairMin slot.val)) ∧
      u.linkOut = s.linkOut ∧ u.parts = s.parts ∧ s.dataKept u) ∧
    ((s.me.master = true ∨ s.me.standbyMaster = true) → s.gives (.join slot epoch aligned mismatch) (fun u =>
      slot.val ∈ u.cad.joined ∧ s.dataKept u ∧
      ((s.cad.masterNow = true ∧ s.cad.running = true ∧ slot.val ≠ s.slot) → u.linkOut = s.linkOut ++ [s.mgmt slot 0x0205
        (leBytes 8 s.cad.beat.toNat ++ leBytes 2 s.cad.leftOut.length ++ s.cad.leftOut.flatMap (leBytes 2))]) ∧
      ((s.cad.masterNow = true ∧ s.others.all (fun d => d = slot.val || s.cad.joined.contains d || s.cad.leftOut.contains d) = true) →
        u.cad.running = true))) ∧
    s.gives (.domainRun beat leftOut) (fun u => u.cad.running = true ∧ u.cad.leftOut = leftOut ∧ u.pwr.admitted = true ∧ s.dataKept u) ∧
    ((s.actsAsMaster = true ∧ s.cad.running = false ∧ slot.val ∉ s.cad.joined ∧ slot.val ∈ s.others) →
      s.gives (.domainJoinTimeout slot) (fun u => slot.val ∈ u.cad.leftOut ∧ u.cad.joined = s.cad.joined ∧ s.dataKept u)) ∧
    (s.accepts h false true →
      (let z := putPiece (if off32 = 0 then [] else s.firn.topoCollect) off32.toNat data
       (off32.toNat + data.length < total32.toNat → s.gives (.topoPut h off32 total32 data) (fun u =>
          s.answered u h stOK 0 [] ∧ u.firn = { s.firn with topoCollect := z } ∧ u.parts = s.parts ∧ s.dataKept u)) ∧
       (off32.toNat + data.length = total32.toNat →
        (∀ q, ((s.judgeTopo z).2 = some q ∧ t.epoch < q.epoch) → s.gives (.topoPut h off32 total32 data) (fun u =>
          s.answered u h stOK 0 [] ∧ u.firn = { s.firn with topoCollect := [], topoNext := some q } ∧ u.parts = s.parts ∧ s.dataKept u)) ∧
        ((s.judgeTopo z).2 = none → s.gives (.topoPut h off32 total32 data) (fun u =>
          s.answered u h (s.judgeTopo z).1 0 [] ∧ u.firn = { s.firn with topoCollect := [] } ∧ u.parts = s.parts ∧ s.dataKept u)))) ∧
      ((s.locked = false ∧ s.flag F.secDbgOpen = false) →
        (s.topoOk = false → s.answersWith (.domainJoin h) h s.topoStatus 0 []) ∧
        ((s.topoOk = true ∧ up = false) → s.gives (.domainJoin h) (fun u =>
          s.started u h 0x0202 0 ∧ u.cad.waitPorts = true ∧ u.cad.fetch = s.cad.fetch ∧ u.hbm = s.hbm ∧
          ∀ p < 16, (s.flag (F.portCfgEnable p) = true ∧ s.portUp p = false) → u.getF (F.portStatusState p) = 1)) ∧
        ((s.topoOk = true ∧ up = true ∧ s.me.bridge = false) → s.gives (.domainJoin h) (fun u =>
          s.started u h 0x0202 0 ∧ u.cad.fetch = some (t.epoch, 0, []) ∧ s.mgmt s.bridgeSlot 0x0200
            (leBytes 4 t.epoch ++ leBytes 4 0 ++ leBytes 4 0) ∈ u.linkOut ∧ u.hbm = s.hbm)) ∧
        ((s.topoOk = true ∧ up = true ∧ s.me.bridge = true ∧ s.me.master = false) → s.gives (.domainJoin h) (fun u =>
          s.started u h 0x0202 0 ∧ u.cad.joining = true ∧ u.hbm = s.hbm))) ∧
      (s.locked = true → s.answersWith (.domainJoin h) h stWrongState 0 []) ∧
      (s.anyRunning = false → s.gives (.domainLeave h) (fun u =>
        s.answered u h stOK 0 [] ∧ u.locked = false ∧ u.getF F.cadStretchInForce = s.getF F.cadStretchLocalReq ∧
        u.cad = { s.cad with running := false, joining := false, masterNow := false, stretchAt := none, nextStretch := 0 } ∧
        u.parts = s.parts ∧ s.dataKept u)) ∧
      (s.anyRunning = true → s.answersWith (.domainLeave h) h stWrongState 0 []))

/-! ## Failover, retirement and program images -/

/-- R363, R370 to R372, R418, R431: the master that hears FAILED holds every partition the slot holds and redirects it to its group's standby;
HOLD stops the program at the end of the window before and lets the requests wait, and at the hold of a warm reset those with KV pages on
the module that resets restart; RESUME starts it at its window; the mirror holder keeps
the record of the module that it mirrors, and its acknowledgement lets the window's records go; STANDBY_READY ends the hold. -/
def Obligations.FailoverHoldsAndMirrors : Prop :=
  ∀ (slot from_ : SlotN) (cause to_ : BitVec 16) (y z window beat : BitVec 64) (kind : Fin 5) (n : PartN) (off : Nat) (data : Bytes)
      (s : State),
    let x := s.prt n
    (s.actsAsMaster = false → exec (.failed slot cause beat) s = .next s) ∧
    (s.actsAsMaster = true → s.gives (.failed slot cause beat) (fun u =>
      slot.val ∈ u.cad.failedSlots ∧ s.dataKept u ∧
      (slot.val ∉ s.cad.failedSlots →
        (∀ k ∈ s.partsWith slot, (u.prt k).coordHold = true ∧ (s.partState k ≠ 0 → (u.prt k).hold = some 2)) ∧
        (∀ d, s.standbyFor slot = some d → (s.win + 2, slot.val, d) ∈ u.cad.redirects)))) ∧
    ((s.partState n ≠ 0 ∧ x.hold = none) → s.gives (.hold n cause y from_ to_) (fun u =>
      (u.prt n).hold = some cause.toNat ∧
      (((cause.toNat ≠ 2 ∨ (s.wgt n).swap = none) ∧ cause.toNat ≠ 3) →
        (u.prt n).svcs = x.svcs.map (fun v => if s.isFront v then v.mapReqs Request.park else v)) ∧
      (cause.toNat = 3 → (u.prt n).svcs = x.svcs.map (fun v => if s.isFront v then v.mapReqs (fun r => s.kvOver n from_ r.park) else v)) ∧
      (s.running n = true → (u.prt n).stopWin = some (y.toNat - 1) ∧ u.progState n = 3) ∧
      (u.getR R.glbHold).getLsbD (16 + n) = true ∧
      u.cad.redirects = (if to_.toNat = 0xFFFF then s.cad.redirects else
        s.cad.redirects.filter (fun r => r.2.1 ≠ from_.val) ++ [(y.toNat, from_.val, to_.toNat)]) ∧ s.partsKept u n ∧ s.dataKept u)) ∧
    ((s.partState n ≠ 0 ∧ x.hold ≠ none ∧ cause.toNat ≠ 3 ∧ (cause.toNat ≠ 2 ∨ ((s.wgt n).swap = none ∧ x.hold ≠ some 4))) → s.gives (.hold n cause y from_ to_) (fun u =>
      u.parts = s.parts ∧ s.dataKept u)) ∧
    ((s.partState n = 0 ∧ (cause.toNat ≠ 2 ∨ (s.wgt n).swap = none)) → s.gives (.hold n cause y from_ to_) (fun u =>
      (u.prt n).hold = (if to_.toNat = s.slot then some cause.toNat else x.hold) ∧ (u.prt n).svcs = x.svcs ∧ s.partsKept u n ∧ s.dataKept u)) ∧
    (x.hold = none → exec (.resume n z) s = .next s) ∧
    ((x.hold ≠ none ∧ s.pwr.serves = none) → s.gives (.resume n z) (fun u =>
      (u.prt n).hold = none ∧ (u.prt n).stopWin = none ∧ (u.prt n).startWin = (if x.prog.isSome then some z.toNat else x.startWin) ∧
      (u.prt n).svcs = x.svcs.map (fun v => if s.isFront v then v.mapReqs (fun r => if r.pages = 0 then r.unpark else { r with held := false })
        else v) ∧
      (u.getR R.glbHold).getLsbD (16 + n) = false ∧ (u.prt n).prog = x.prog ∧ s.regsKept u [R.glbHold.addr] ∧ s.partsKept u n ∧
      s.dataKept u)) ∧
    ((kind = 4 ∧ window.toNat = s.win) → s.gives (.mirrorRec slot kind n window off data) (fun u =>
      (u.prt n).svcs = x.svcs.map (fun v => if v.id = off then { v with outReady := v.outReady ++ v.outQ, outQ := [] } else v) ∧
      s.partsKept u n ∧
      u = { s with parts := u.parts })) ∧
    ((kind = 4 ∧ window.toNat ≠ s.win) → exec (.mirrorRec slot kind n window off data) s = .next s) ∧
    ((kind ≠ 4 ∧ s.pwr.serves = none ∧ s.me.buddy = slot.val ∧ data ≠ []) → s.gives (.mirrorRec slot kind n window off data) (fun u =>
      ⟨slot, kind.val, n, window.toNat, off, data⟩ ∈ u.cad.mirrors ∧
      (∀ r ∈ s.cad.mirrors, (r.slot ≠ slot.val ∨ r.part ≠ n.val ∨ r.kind ≠ kind.val ∨ r.off ≠ off) → r ∈ u.cad.mirrors) ∧
      u.linkOut = s.linkOut ++ (if kind = 3 then [s.mgmt slot 0x0907 (leBytes 1 4 ++ leBytes 1 n ++ leBytes 2 0 ++ leBytes 4 0 ++
        leBytes 8 window.toNat ++ leBytes 8 off)] else []) ∧ u = { s with cad := u.cad, linkOut := u.linkOut })) ∧
    ((x.coordHold = false ∨ x.hold = some 1) → exec (.standbyReady slot n) s = .next s) ∧
    ((x.coordHold = true ∧ x.hold ≠ some 1 ∧ s.pwr.ejecting = false) → s.gives (.standbyReady slot n) (fun u =>
      (u.prt n).hold = none ∧ (u.prt n).coordHold = false ∧
      (u.prt n).startWin = (if x.prog.isSome then some (s.win + 2) else x.startWin) ∧
      (∀ d ∈ s.holdersOf n, s.mgmt d 0x0906 (leBytes 1 n ++ leBytes 7 0 ++ leBytes 8 (s.win + 2)) ∈ u.linkOut) ∧
      s.partsKept u n ∧ s.dataKept u))

/-- R188, R209, R234, R300, R350, R362, R364: TILE_RETIRE retires a tile and takes a reserve tile of its partition's, whose program is
held, or answers NO_RESOURCE; once the reserve tile that took its place holds the images, a map that names it is armed, beside what an
armed map changes; a lane report has the
variant announced two windows ahead, and it is set in the window before; PROG_PUT writes a partition's own HBM4 away from its running
image; PROG_LOAD loads an image that passes its checks, with the factors F and G of its resident matrices (R82), and otherwise answers with the first that fails.
The place of PROG_PUT's and PROG_LOAD's offset (log 40) and the naming of variants (log 32) are the model's reading. -/
def Obligations.RetirementVariantsAndImages : Prop :=
  ∀ (h : CmdHdr) (tile : Byte) (t newT : TileN) (n : PartN) (slot : SlotN) (p : PortN) (mask : BitVec 4) (beat window off : BitVec 64)
      (v : Fin 4) (data : Bytes) (s : State),
    (s.accepts h false true →
      let k := tile.toNat
      let o := s.ownerOf k
      ((k < 96 ∧ s.absent k = false ∧ o ≠ 0 ∧ s.partState o ≠ 0 ∧ s.getF (resField o (halfOf k)) ≠ 0 ∧ (s.tile k).failed = false) →
        s.gives (.tileRetire h tile) (fun u =>
          s.answered u h stOK 0 [] ∧ u.tile k = { s.tile k with failed := true, heir := s.reserveTile (halfOf k) } ∧ s.tilesKept u k ∧
          k ∈ u.firn.cfg.bad ∧
          u.getF (resField o (halfOf k)) = s.getF (resField o (halfOf k)) - 1 ∧ (u.prt o).hold ≠ none ∧ s.partsKept u o ∧
          u.arrays = s.arrays ∧ u.hbm = s.hbm)) ∧
      ((k < 96 ∧ s.absent k = false ∧ o ≠ 0 ∧ s.getF (resField o (halfOf k)) = 0) →
        s.answersWith (.tileRetire h tile) h stNoResource 0 []) ∧
      (96 ≤ k → s.answersWith (.tileRetire h tile) h stBadParam 0 [])) ∧
    (s.logical t = none → exec (.retirementLoadDone n t newT) s = .next s) ∧
    (∀ k, (s.logical t = some k ∧ (s.prt n).coordHold = true ∧ (s.prt n).hold = some 1 ∧ s.ownerOf t = n.val ∧ (s.tile t).failed = true ∧
        (s.tile t).heir = some newT.val) →
      s.gives (.retirementLoadDone n t newT) (fun u =>
        (∀ j < 96, u.getR (R.glbTmapNext j) = (if j = k then BitVec.ofNat 32 (128 + newT.val)
            else if s.flag F.glbTmapCtrlArm then s.getR (R.glbTmapNext j) else s.getR (R.glbTmapCur j)) ∧
          u.getR (R.glbTmapCur j) = s.getR (R.glbTmapCur j)) ∧ u.flag F.glbTmapCtrlArm = true ∧ u.hbm = s.hbm)) ∧
    (s.cad.masterNow = false → exec (.laneReport slot p mask beat) s = .next s) ∧
    (s.cad.masterNow = true → s.gives (.laneReport slot p mask beat) (fun u =>
      (∀ k < 16, let w := Config.variantFor k (16 * slot.val + p.val) (ones4 mask.toNat)
        let top := (((s.prt k).prog.map Prog.variants).getD 4)
        if 0 < w ∧ w < top then u.prt k = { s.prt k with variantAt := some (s.win + 2, w) } ∧
          ∀ d ∈ s.holdersOf k, d ≠ s.slot → s.mgmt d 0x0209 (leBytes 1 k ++ leBytes 1 w ++ leBytes 2 0 ++ leBytes 8 (s.win + 2)) ∈ u.linkOut
        else u.prt k = s.prt k) ∧ u = { s with parts := u.parts, linkOut := u.linkOut })) ∧
    (s.win + 1 = window.toNat → s.gives (.variant n v window) (fun u =>
      u.getF (F.partProgCtrlVariantNext n) = v ∧ s.regsKept u [(R.partProgCtrl n).addr] ∧ u = { s with regs := u.regs })) ∧
    (s.win + 1 ≠ window.toNat → s.gives (.variant n v window) (fun u =>
      u.prt n = { s.prt n with variantAt := some (window.toNat, v.val) } ∧ s.partsKept u n ∧ u = { s with parts := u.parts })) ∧
    (s.accepts h true false →
      let m := h.part.val
      let mine := if m = 0 then off.toNat + data.length ≤ hbmSize else s.hbmOwns m off.toNat data.length = true
      ((mine ∧ s.partState m ≠ 0 ∧ s.running m = false) → s.gives (.progPut h off data) (fun u =>
        s.answered u h stOK 0 [] ∧ (∀ i, i < data.length → u.hbmByte (off.toNat + i) = data.getD i 0) ∧
        (∀ a, (a < off.toNat ∨ off.toNat + data.length ≤ a) → u.hbmByte a = s.hbmByte a) ∧ u.arrays = s.arrays ∧ u.tiles = s.tiles ∧
        (u.prt m).prog = (s.prt m).prog ∧ s.partsKept u m)) ∧
      (¬ mine → s.answersWith (.progPut h off data) h stBadParam 0 []) ∧
      (∀ g, (mine ∧ (s.prt m).prog = some g ∧ s.running m = true ∧ off.toNat + data.length > g.base ∧ off.toNat < g.base + g.size) →
        s.answersWith (.progPut h off data) h stWrongState 0 []) ∧
      ((off.toNat % 64 = 0 ∧ m ≠ 0 ∧ s.partState m = 1 ∧ (s.prt m).usable = true ∧ s.running m = false) →
        (let refused := fun (u : State) (st c : Nat) => s.answered u h st c [] ∧ (u.prt m).prog = (s.prt m).prog ∧
            u.getF (F.partProgStatusDetail m) = c % 2 ^ 8 ∧ u.progState m = s.progState m ∧ s.partsKept u m ∧ s.dataKept u
         (s.imageAt m off.toNat = none → s.gives (.progLoad h off) (fun u => refused u stBadParam 10)) ∧
         (∀ b, s.imageAt m off.toNat = some b →
          (imageDigest b ≠ BitVec.ofNat 512 (fieldAt b 48 64) → s.gives (.progLoad h off) (fun u => refused u stDigest 0)) ∧
          (imageDigest b = BitVec.ofNat 512 (fieldAt b 48 64) →
            (∀ c, lowest (s.loadCodes m b) = some c → s.gives (.progLoad h off) (fun u => refused u stBadParam c)) ∧
            (lowest (s.loadCodes m b) = none → s.gives (.progLoad h off) (fun u =>
              s.answered u h stOK 0 [] ∧ u.progState m = 1 ∧
              (let g := progOf b off.toNat s.winLen
               (u.prt m).prog = some { g with layers := match (s.wgt m).resident.man with | some r => r.formAll g.layers | none => g.layers }) ∧
              u.getF (F.partProgStatusDetail m) = 0 ∧ s.partsKept u m ∧ s.dataKept u)))))) ∧
      (off.toNat % 64 ≠ 0 → s.answersWith (.progLoad h off) h stBadParam 0 []))

/-! ## The event log, the moulin and the counters -/

/-- R375, R377 to R381: a report enters the ingest queue, or the summary table, or is counted lost; one entry a beat gets the next SEQ and
enters the log ring, the summary entries and the count of lost ones in their turn; the moulin hands up to seven entries on, to the host, as
LOG_BATCH to the bridge, or to the spill ring; the bridge keeps what its ring has no room for; MOULIN_CFG sets the mode and the ring, where
the entries held are laid anew (the model's choice, log entry 81). -/
def Obligations.LogAndMoulin : Prop :=
  ∀ (e : Entry) (slot : SlotN) (entries : List Entry) (hostPath : Bool) (h : CmdHdr) (desc : Bytes) (s : State),
    let l := s.log
    let kept := fun (u : State) => u = { s with log := u.log, regs := u.regs }
    let appended := fun (u : State) (x : Entry) => u.log.ring = (if 65536 ≤ l.ring.length then l.ring.drop 1 else l.ring) ++ [{ x with seq := l.seq }] ∧
      u.log.seq = l.seq + 1 ∧ u.log.lastWritten = some { x with seq := l.seq } ∧
      u.getF F.logFillUndrained = min 65536 (s.getF F.logFillUndrained + 1) ∧ kept u
    s.gives (.logReport e) (fun u => s.onlyLogs u ∧ u.log.ring = l.ring ∧
      (l.ingest.length < 256 → u.log.ingest = l.ingest ++ [e] ∧ u.log.summary = l.summary ∧ u.regs = s.regs) ∧
      ((256 ≤ l.ingest.length ∧ e.flags / 4 % 2 = 1) → u.log.ingest = l.ingest ∧ u.log.summary = l.summary ∧
        u.getF F.logLostLost = (s.getF F.logLostLost + 1) % 2 ^ 32) ∧
      ((256 ≤ l.ingest.length ∧ e.flags / 4 % 2 = 0 ∧ (∀ x ∈ l.summary, x.first.source ≠ e.source ∨ x.first.code ≠ e.code)) →
        u.log.ingest = l.ingest ∧ (l.summary.length < 1024 → u.log.summary = l.summary ++ [⟨e, 1, s.cad.beat⟩] ∧ u.regs = s.regs) ∧
        (1024 ≤ l.summary.length → u.log.summary = l.summary ∧ u.getF F.logLostLost = (s.getF F.logLostLost + 1) % 2 ^ 32)) ∧
      (∀ a x b, (256 ≤ l.ingest.length ∧ e.flags / 4 % 2 = 0 ∧ l.summary = a ++ x :: b ∧ x.first.source = e.source ∧ x.first.code = e.code ∧
          (∀ y ∈ a, y.first.source ≠ e.source ∨ y.first.code ≠ e.code)) →
        u.log.summary = a ++ { x with count := min (x.count + 1) 0xFFFFFFFF, last := s.cad.beat } :: b ∧ u.log.ingest = l.ingest ∧
          u.regs = s.regs)) ∧
    (s.logStalled = true → exec .logWrite s = .next s) ∧
    (s.logStalled = false →
      (∀ x rest, (l.ingest = x :: rest ∧ (64 < l.ingest.length ∨ (l.summary = [] ∧ s.getF F.logLostLost = 0) ∨
          (l.summary ≠ [] ∧ l.alternate = true))) → s.gives .logWrite (fun u =>
        appended u x ∧ u.log.ingest = rest ∧ u.log.summary = l.summary ∧ u.log.alternate = false)) ∧
      (∀ x rest, (l.summary = x :: rest ∧ l.ingest.length ≤ 64 ∧ (l.alternate = false ∨ l.ingest = [])) → s.gives .logWrite (fun u =>
        appended u x.entry ∧ u.log.ingest = l.ingest ∧ u.log.summary = rest ∧ u.log.alternate = true)) ∧
      ((l.summary = [] ∧ l.ingest.length ≤ 64 ∧ 0 < s.getF F.logLostLost) → s.gives .logWrite (fun u =>
        (∃ x : Entry, appended u x ∧ x.code = 0x1701 ∧ x.source = srcHk ∧ x.detail = BitVec.ofNat 64 (s.getF F.logLostLost)) ∧
        u.log.ingest = l.ingest ∧ u.getF F.logLostLost = 0))) ∧
    (let es := s.undrained.take 7
     let batch := fun (es : List Entry) => s.mgmt s.bridgeSlot 0x0600 (leBytes 1 es.length ++ leBytes 1 0 ++ leBytes 2 s.slot ++ leBytes 4 0 ++
       (es.map Entry.bytes).flatten)
     let spilt := fun (u : State) =>
       let k := min es.length (s.spillCap - l.spill.length)
       u.log = { l with spill := l.spill ++ es.take k, spillNext := if k = 0 then l.spillNext else (l.spillNext + k) % s.spillCap } ∧
       (∀ i x, (i < k ∧ es[i]? = some x) → ∀ j < 32, u.hbmByte (s.spillAt (l.spillNext + i) + j) = x.bytes.getD j 0) ∧
       (∀ a, (∀ i < k, a < s.spillAt (l.spillNext + i) ∨ s.spillAt (l.spillNext + i) + 32 ≤ a) → u.hbmByte a = s.hbmByte a)
     let fell := fun (u : State) (k : Nat) => u.getF F.logFillUndrained = s.getF F.logFillUndrained - k
     ((es = [] ∨ s.getF F.logMoulinMode = 0) ∧ l.batch = [] → s.gives (.moulinBatch hostPath) (fun u => u = s)) ∧
     ((es ≠ [] ∧ s.getF F.logMoulinMode = 1 ∧ s.isBridge = false ∧ l.spill = []) → s.gives (.moulinBatch true) (fun u =>
       u.linkOut = s.linkOut ++ [batch es] ∧ fell u es.length ∧ u.log = l ∧ u.hostOut = s.hostOut)) ∧
     ((es ≠ [] ∧ s.getF F.logMoulinMode = 2 ∧ s.isBridge = false) → s.gives (.moulinBatch hostPath) (fun u =>
       spilt u ∧ fell u (min es.length (s.spillCap - l.spill.length)) ∧ u.linkOut = s.linkOut ∧ u.hostOut = s.hostOut)) ∧
     ((es ≠ [] ∧ s.getF F.logMoulinMode = 1 ∧ s.isBridge = true ∧ s.bridge.linkUp = true ∧ l.spill = [] ∧ l.batch = []) →
       s.gives (.moulinBatch true) (fun u => ∃ k ≤ es.length, fell u k ∧ u.hostOut.length = s.hostOut.length + k ∧ u.log = l ∧
         u.linkOut = s.linkOut)) ∧
     ((es ≠ [] ∧ s.getF F.logMoulinMode = 3 ∧ s.isBridge = false) → s.gives (.moulinBatch false) (fun u =>
       spilt u ∧ fell u (min es.length (s.spillCap - l.spill.length)) ∧ u.linkOut = s.linkOut)) ∧
     (l.spill = [] → exec .spillDrain s = .next s) ∧
     ((l.spill ≠ [] ∧ s.isBridge = false) → s.gives .spillDrain (fun u =>
       u.linkOut = s.linkOut ++ [batch (l.spill.take 7)] ∧ u.log = { l with spill := l.spill.drop 7 } ∧
       u = { s with linkOut := u.linkOut, log := u.log }))) ∧
    (s.me.bridge = false → exec (.logBatch slot entries) s = .next s) ∧
    (s.me.bridge = true → s.gives (.logBatch slot entries) (fun u =>
      ∃ k, u.log = { l with batch := (l.batch ++ entries.map (fun e => (slot.val, e))).drop k } ∧ u.hostOut.length = s.hostOut.length + k ∧
        (s.bridge.linkUp = false → k = 0) ∧ u.parts = s.parts ∧ s.dataKept u)) ∧
    (s.accepts h false true →
      ((moulinDescOk desc = true ∧ s.touchesTenant (fieldAt desc 4 8) (fieldAt desc 12 8) = false) → s.gives (.moulinCfg h desc) (fun u =>
        s.answered u h stOK 0 [] ∧ u.getF F.logMoulinMode = fieldAt desc 0 1 ∧ u.getF F.logMoulinMaxDelay = fieldAt desc 2 2 ∧
        u.getF F.logSpillBaseBase = fieldAt desc 4 8 / 4096 ∧ u.getF F.logSpillLenLen = fieldAt desc 12 8 / 4096 ∧
        (let cap := fieldAt desc 12 8 / 4096 * 128
         let k := min l.spill.length cap
         u.log = { l with spill := l.spill.take k, spillNext := if k = 0 then 0 else k % cap } ∧
         u.getF F.logLostLost = (s.getF F.logLostLost + (l.spill.length - k)) % 2 ^ 32) ∧
        (l.spill = [] → u.hbm = s.hbm) ∧ u.arrays = s.arrays ∧ u.tiles = s.tiles ∧ u.routers = s.routers ∧ u.ports = s.ports ∧
        u.parts = s.parts)) ∧
      ((moulinDescOk desc = false ∨ s.touchesTenant (fieldAt desc 4 8) (fieldAt desc 12 8) = true) →
        s.answersWith (.moulinCfg h desc) h stBadParam 0 []))

/-- R457, R462 to R464: CTR_CFG sets a counter's event for a tile of the partition, and refuses one that is not in the table; CTR_SNAP
announces its apply beat, in the module 128 beats ahead, in the domain at the first window boundary at least two windows ahead; CTR_APPLY
waits for its beat; a read of a fixed counter's LO register latches the rest of the counter. -/
def Obligations.CountersAreSetAndLatched : Prop :=
  ∀ (h : CmdHdr) (tile counter scope kind : Byte) (event : Word) (k : Fin 3) (b : BitVec 64) (t : TileN) (u j : Nat) (s : State),
    let sent := fun (v : State) (type beat : Nat) =>
      v.rimeOut = rimeQueue s.rimeOut ⟨type, 0xFF, 0x72, 0, [BitVec.ofNat 32 beat, BitVec.ofNat 32 (beat / 2 ^ 32)]⟩ ∧
      v.rime = s.rime ++ [(BitVec.ofNat 64 beat, ⟨type, 0xFF, 0x72, 0, []⟩)] ∧ v.ctr = s.ctr ∧ v.parts = s.parts ∧ s.dataKept v
    (s.accepts h true false →
      ((tile.toNat < 96 ∧ counter.toNat < 16 ∧ eventOk event = true ∧ s.ownerOf tile.toNat = h.part.val ∧ s.absent tile.toNat = false) →
        s.gives (.ctrCfg h tile counter event) (fun v => s.answered v h stOK 0 [] ∧
          v.getR (R.ctrPcCfg tile.toNat counter.toNat) = event &&& 0x7FFFFFF ∧ v.ctr = s.ctr ∧ s.dataKept v)) ∧
      ((tile.toNat < 96 ∧ counter.toNat < 16 ∧ eventOk event = false) → s.gives (.ctrCfg h tile counter event) (fun v =>
        s.answered v h stBadParam 0 [] ∧ v.log = s.log ∧
        v.getR (R.ctrPcCfg tile.toNat counter.toNat) = s.getR (R.ctrPcCfg tile.toNat counter.toNat) ∧ v.ctr = s.ctr ∧ s.dataKept v))) ∧
    (s.accepts h false true →
      ((scope = 0 ∧ kind.toNat ≤ 2) → s.gives (.ctrSnap h scope kind) (fun v =>
        s.answered v h stOK (s.applyAhead % 2 ^ 32) [] ∧ sent v (snapType kind.toNat) s.applyAhead ∧ v.linkOut = s.linkOut)) ∧
      ((scope = 1 ∧ kind.toNat ≤ 2 ∧ s.locked = true) → s.gives (.ctrSnap h scope kind) (fun v =>
        let beat := (s.cad.beat.toNat + 3 * s.winLen - 1) / s.winLen * s.winLen
        s.answered v h stOK (beat % 2 ^ 32) [] ∧ sent v (snapType kind.toNat) beat ∧
        v.linkOut = s.linkOut ++ s.others.map (fun d => s.mgmt d 0x0605 (leBytes 1 kind.toNat ++ leBytes 7 0 ++ leBytes 8 beat)))) ∧
      ((scope = 1 ∧ kind.toNat ≤ 2 ∧ s.locked = false) → s.answersWith (.ctrSnap h scope kind) h stWrongState 0 []) ∧
      ((1 < scope.toNat ∨ 2 < kind.toNat) → s.answersWith (.ctrSnap h scope kind) h stBadParam 0 [])) ∧
    s.gives (.ctrApply k b) (fun v => sent v (snapType k) b.toNat ∧ v.linkOut = s.linkOut ∧ v.regs = s.regs) ∧
    ((u < 11 ∧ j < 5) → s.gives (.counterLoRead (BitVec.ofNat 32 (R.ctrTdLo t u j).addr)) (fun v =>
      v.getR (R.ctrTdHi t u j) = BitVec.ofNat 32 ((s.ctrGet (R.ctrTdLo t u j).addr).toNat / 2 ^ 32) ∧
      s.regsKept v [(R.ctrTdHi t u j).addr] ∧ v = { s with regs := v.regs }))

/-! ## Firmware images and debug opening -/

/-- R300, R438, R443, R444, R446 to R449: FW_PUT collects an image into the slot that is not selected; FW_ACTIVATE of a slot whose image passes
begins the activation, whose handover ends in the new image or, at its timeout, in the old one; the fuses follow firmware that has proved
itself; DEBUG_OPEN of a requester that is not secure answers NOT_PERMITTED; a debug token that passes starts the erase, one that fails is
counted, and the nonce changes in each case; the end of the erase opens debug.
That a waiting row changes nothing is the model's choice (log 3). -/
def Obligations.FirmwareAndDebugOpening : Prop :=
  ∀ (h : CmdHdr) (off total : Word) (data token : Bytes) (us : Nat) (s : State),
    let other := 1 - s.firn.fwSel
    let img := s.fwImage other
    let renewed := fun (u : State) => ∃ f, ∀ k < 8, u.getR (R.secDbgNonce k) = Config.freeWord (f + k)
    (s.sec.activating ≠ 0 → exec (.fwPut h off total data) s = .next s ∧ exec (.debugOpen h token us) s = .next s) ∧
    (s.accepts h false true →
      let z := putPiece (if off = 0 then [] else s.firn.fwCollect) off.toNat data
      (s.sec.activating = 0 →
        (off.toNat + data.length < total.toNat → s.gives (.fwPut h off total data) (fun u =>
          s.answered u h stOK 0 [] ∧ u.firn = { s.firn with fwCollect := z } ∧ u.sec = s.sec ∧ u.parts = s.parts ∧ s.dataKept u)) ∧
        (off.toNat + data.length = total.toNat → s.gives (.fwPut h off total data) (fun u =>
          s.answered u h stOK 0 [] ∧ u.sec = s.sec ∧ u.parts = s.parts ∧ s.dataKept u ∧
          u.firn = (if s.firn.fwSel = 0 then { s.firn with fwB := ⟨z, Config.fwSvn z, Config.fwHandover z⟩, fwCollect := [] }
            else { s.firn with fwA := ⟨z, Config.fwSvn z, Config.fwHandover z⟩, fwCollect := [] }))) ∧
        (total.toNat < off.toNat + data.length → s.answersWith (.fwPut h off total data) h stBadParam 0 []) ∧
        (s.imageOk img = false → s.answersWith (.fwActivate h) h stSignature 0 []) ∧
        ((s.imageOk img = true ∧ Config.handoverAccepted (Config.fwHandover img) = false) →
          s.answersWith (.fwActivate h) h stWrongState 1 []) ∧
        ((s.imageOk img = true ∧ Config.handoverAccepted (Config.fwHandover img) = true) → s.gives (.fwActivate h) (fun u =>
          s.started u h 0x0701 0 ∧ u.sec = { s.sec with activating := 1 } ∧ u.flag F.secFwActivating = true ∧ u.firn = s.firn ∧
          s.regsKept u [R.secFw.addr] ∧ u.parts = s.parts ∧ s.dataKept u))) ∧
      (s.sec.activating ≠ 0 → s.answersWith (.fwActivate h) h stWrongState 0 [])) ∧
    (s.sec.activating = 1 → s.gives .fwHandover (fun u => u = { s with sec := { s.sec with activating := 2, handover := true } })) ∧
    (s.sec.activating ≠ 1 → exec .fwHandover s = .next s) ∧
    (s.sec.activating ≠ 2 → exec .fwIntakeResumed s = .next s ∧ exec .fwActivationTimeout s = .next s) ∧
    ((s.sec.activating = 2 ∧ s.pwr.deferred = []) →
      s.gives .fwIntakeResumed (fun u =>
        u.firn = { s.firn with fwSel := other } ∧ u.sec.activating = 0 ∧ u.sec.fwRunSvn = Config.fwSvn img ∧ u.pwr = { s.pwr with booted := true } ∧
        u.flag F.secFwActivating = false ∧ s.logs u srcSec 0x1606 0xFF (detail 0x1606 [other, Config.fwSvn img]) ∧
        (s.waitingFor 0x0701 none = [] → u.replies = s.replies)) ∧
      s.gives .fwActivationTimeout (fun u =>
        u.firn = s.firn ∧ u.sec = { s.sec with activating := 0, handover := false } ∧ u.flag F.secFwActivating = false ∧
        s.logs u srcSec 0x1607 0xFF 2 ∧ u.parts = s.parts ∧ s.dataKept u ∧
        (∀ o, s.bridge.outst = [o] ∧ o.started = true ∧ o.opcode = 0x0701 →
          u.replies = s.replies ++ [⟨o.sender, o.tag, stWrongState, s.slot, 2, []⟩] ∧ u.bridge.outst = []))) ∧
    ((s.pwr.booted = true ∧ s.sec.fallback = false ∧ s.sec.fuses < s.sec.fwRunSvn ∧ s.sec.fwRunSvn ≤ 64) → s.gives .fuseBlow (fun u =>
      u.sec = { s.sec with fuses := s.sec.fwRunSvn } ∧ u.getF F.secFwFuses = s.sec.fwRunSvn ∧ u = { s with sec := u.sec, regs := u.regs })) ∧
    ((s.pwr.booted = false ∨ s.sec.fallback = true ∨ s.sec.fwRunSvn ≤ s.sec.fuses ∨ 64 < s.sec.fwRunSvn) →
      exec .fuseBlow s = .next s) ∧
    (s.accepts h false true ∧ s.sec.activating = 0 →
      (s.secureSender h.sender = false → s.gives (.debugOpen h token us) (fun u =>
        s.answered u h stNotPermitted 0 [] ∧ renewed u ∧ u.parts = s.parts ∧ s.dataKept u)) ∧
      ((s.secureSender h.sender = true ∧ token.length ≠ 260) → s.gives (.debugOpen h token us) (fun u => s.answered u h stBadParam 0 [] ∧ renewed u ∧ u.parts = s.parts ∧ s.dataKept u)) ∧
      ((token.length = 260 ∧ s.secureSender h.sender = true ∧ s.flag F.secDbgOpen = false ∧ s.sec.erasing = none ∧ s.pwr.running = none) →
        (s.sec.lockout = true → s.gives (.debugOpen h token us) (fun u =>
          s.answered u h stNoResource 0 [] ∧ renewed u ∧ u.sec = s.sec ∧ u.parts = s.parts ∧ s.dataKept u)) ∧
        ((s.sec.lockout = false ∧ s.judgeToken token ≠ stOK) → s.gives (.debugOpen h token us) (fun u =>
          let l := us :: s.sec.dbgFails.filter (fun t => us - t ≤ 10000000)
          s.answered u h (s.judgeToken token) 0 [] ∧ renewed u ∧ u.sec = { s.sec with dbgFails := l, lockout := decide (3 ≤ l.length) } ∧
          u.flag F.secDbgOpen = false ∧ u.parts = s.parts ∧ s.dataKept u)) ∧
        ((s.sec.lockout = false ∧ s.judgeToken token = stOK) → s.gives (.debugOpen h token us) (fun u =>
          u.hbm = [] ∧ u.arrays = [] ∧ (∀ t b, (u.tile t).byte b = 0) ∧ (∀ n ≠ 0, u.prt n = {}) ∧ u.sec.tenantKeys = [] ∧ u.sec.manKeys = [] ∧
          u.sec.erasing = some (fieldAt token 6 2, us) ∧ u.firn.erasePending = true ∧ u.flag F.secStatusKeysValid = false ∧
          u.flag F.secSessCtrlOpen = false ∧ renewed u ∧
          ((∀ o ∈ s.bridge.outst, o.started = false) → s.started u h 0x0802 (fieldAt token 6 2)))))) ∧
    (s.sec.erasing = none → exec (.debugEraseDone us) s = .next s) ∧
    (∀ scope t0, (s.sec.erasing = some (scope, t0) ∧ s.pwr.deferred = []) → s.gives (.debugEraseDone us) (fun u =>
      u.flag F.secDbgOpen = true ∧ u.getF F.secDbgScope = scope % 4 ∧ u.getF F.pwrSlotAttn = 1 ∧ u.sec.erasing = none ∧
      u.firn.images = [] ∧ u.firn.erasePending = false ∧ u.parts = s.parts ∧ s.dataKept u)) ∧
    (s.sec.lockout = false → exec .debugLockoutEnd s = .next s) ∧
    (s.sec.lockout = true → s.gives .debugLockoutEnd (fun u =>
      u.sec = { s.sec with lockout := false, dbgFails := [] } ∧ u.getF F.secDbgFails = 0 ∧ u = { s with sec := u.sec, regs := u.regs }))

/-! ## Power, supply, resets and power states -/

/-- R401, R420, R428, R429, R466: a module that has no power starts when its input comes up or its contacts are made; a loss of input turns
the rails off and writes an NV record, its return starts recovery, and the end of the hold-up leaves the module Off; the breaking of the
contacts opens the switch. -/
def Obligations.PowerComesAndGoes : Prop :=
  ∀ (code : BitVec 12) (b made : Bool) (s : State),
    let starts := fun (u : State) => u.pwr.island = true ∧ u.pwr.cores = true ∧ u.pwr.railsOn = true ∧ u.pwr.inputGood = true ∧
      u.getF F.glbRstLast = 1 ∧ u.hbm = [] ∧ u.pending = s.pending ∧
      (∀ t < 96, u.flag (F.tileIdPresent t) = !s.firn.cfg.bad.contains t) ∧ (∀ t < 96, t ∉ s.firn.cfg.bad → u.tileOn t = true) ∧
      (∀ k < 96, u.getR (R.glbTmapCur k) = BitVec.ofNat 32 (s.recordMap k)) ∧
      u.pwr.booted = (s.imageOk (s.fwImage s.firn.fwSel) || s.imageOk (s.fwImage (1 - s.firn.fwSel)))
    let lost := fun (u : State) => u.pwr.railsOn = false ∧ u.pwr.stopped = true ∧ u.pwr.inputGood = false ∧
      u.firn.nvSeq = s.firn.nvSeq + 1 ∧ u.parts = s.parts ∧ s.dataKept u
    (s.isOn = true → exec .powerOn s = .next s) ∧
    (s.isOn = false → s.gives .powerOn starts) ∧
    ((s.pwr.presCount = true ∧ s.pwr.hotSwap = false) → s.gives .presenceMade starts) ∧
    ((s.pwr.presCount = false ∨ s.pwr.hotSwap = true) → exec .presenceMade s = .next s) ∧
    (s.pwr.hotSwap = true → exec (.presenceContactEdge b made) s = .next s) ∧
    (s.pwr.hotSwap = false → s.gives (.presenceContactEdge b made) (fun u =>
      u.pwr.presA = (if b then s.pwr.presA else made) ∧ u.pwr.presB = (if b then made else s.pwr.presB) ∧
      u.pwr.presCount = (u.pwr.presA && u.pwr.presB) ∧ u.pwr.hotSwap = false ∧ u = { s with pwr := u.pwr })) ∧
    (s.pwr.hotSwap = false → exec .presenceBreak s = .next s) ∧
    (s.pwr.hotSwap = true → s.gives .presenceBreak (fun u =>
      u.pwr.hotSwap = false ∧ u.pwr.presA = false ∧ u.pwr.presB = false ∧ u.pwr.presCount = false ∧ (s.isOn = true → lost u) ∧
      ((s.pwr.ejected = false ∧ s.getF F.pwrModeState ≠ 3) → u.pwr.failedModule = true) ∧ s.dataKept u)) ∧
    (s.isOn = false → exec (.inputLoss code) s = .next s) ∧
    (s.isOn = true → s.gives (.inputLoss code) (fun u => lost u ∧ s.logs u srcHk 0x1309 0xFF code.toNat)) ∧
    ((s.pwr.island = true ∧ s.pwr.holdUp = true ∧ s.pwr.hotSwap = true ∧ s.pwr.inputGood = false) → s.gives .inputRecovery (fun u =>
      u.pwr.inputGood = true ∧ u.pwr.recovering = true ∧ u.pwr.running = some .supply ∧ u.pwr.failedModule = true ∧ s.dataKept u)) ∧
    ((s.pwr.island = false ∨ s.pwr.inputGood = true) → exec .inputRecovery s = .next s ∧ exec .holdUpExhausted s = .next s) ∧
    ((s.pwr.island = true ∧ s.pwr.inputGood = false) → s.gives .holdUpExhausted (fun u =>
      u.regs = [] ∧ u.hbm = [] ∧ u.arrays = [] ∧ u.tiles = [] ∧ u.parts = [] ∧ u.pwr.island = false ∧ u.pwr.booted = false ∧
      u.firn = s.firn ∧ u.sec.fuses = s.sec.fuses ∧ u.pending = s.pending))

/-- R397 to R400, R417, R420, R425: a supply warning, its release and its hold; a supply reset turns the rails off, and at the third in ten
seconds the module stays off; the pin holds a module reset at its second step and its release lets it go on; supply-reset recovery and the
wake from Deep start the module with HBM4 and the resident weights kept. -/
def Obligations.SupplyPinsAndWake : Prop :=
  ∀ (rail : Fin 3) (mv a b c : BitVec 12) (us : Nat) (s : State),
    let restarts := fun (u : State) (last : Nat) => u.getF F.glbRstLast = last ∧ u.hbm = s.hbm ∧ u.pwr.recovering = false ∧
      (∀ n, (u.prt n).wgt.resident = (s.prt n).wgt.resident ∧ (u.prt n).prog = none)
    let min3 := fun (k : Nat) => if k = 0 then a.toNat else if k = 1 then b.toNat else c.toNat
    (s.pwr.railsOn = false → exec (.supplyWarning rail mv) s = .next s ∧ exec (.supplyReset rail mv us) s = .next s) ∧
    (s.pwr.railsOn = true → s.gives (.supplyWarning rail mv) (fun u =>
      u.flag (F.supRailWarn rail) = true ∧ u.getF (F.supRailMin rail) = mv.toNat ∧
      u.getF (F.supRailWarnings rail) = (s.getF (F.supRailWarnings rail) + 1) % 2 ^ 16 ∧ u.flag F.supStatusWarn = true ∧
      u.flag F.supStatusHold = false ∧ u.getF F.supStatusReq = s.getF F.supCfgStretch ∧ rail.val ∈ u.pwr.warned ∧ u.parts = s.parts ∧
      s.dataKept u)) ∧
    (s.flag F.supStatusWarn = false → exec (.supplyWarningRelease a b c) s = .next s) ∧
    (s.flag F.supStatusWarn = true → s.gives (.supplyWarningRelease a b c) (fun u =>
      u.flag F.supStatusWarn = false ∧ u.flag F.supStatusHold = true ∧
      (∀ k < 3, k ∈ s.pwr.warned → u.flag (F.supRailWarn k) = false ∧
        u.getF (F.supRailMin k) = min (s.getF (F.supRailMin k)) (min3 k)) ∧ u = { s with regs := u.regs })) ∧
    (s.flag F.supStatusHold = false → exec .supplyHoldEnd s = .next s) ∧
    ((s.flag F.supStatusHold = true ∧ (∀ e ∈ s.arrays, e.1 < 12288)) → s.gives .supplyHoldEnd (fun u =>
      u.flag F.supStatusHold = false ∧ u.getF F.supStatusReq = 0 ∧ u.pwr.warned = [] ∧ u.hbm = s.hbm ∧ u.parts = s.parts)) ∧
    s.gives .setPointHoldEnd (fun u => u = { s with pwr := { s.pwr with oldSet := none } }) ∧
    (s.pwr.railsOn = true → s.gives (.supplyReset rail mv us) (fun u =>
      let times := us :: s.pwr.supplyTimes.filter (fun t => us - t ≤ 10000000)
      u.pwr.railsOn = false ∧ u.pwr.stopped = true ∧ u.pwr.recovering = true ∧ u.pwr.running = some .supply ∧ u.pwr.failedModule = true ∧
      u.firn.nvSeq = s.firn.nvSeq + 1 ∧ u.pwr.supplyTimes = times ∧ u.getF (F.supRailMin rail) = mv.toNat ∧
      (3 ≤ times.length → u.pwr.heldOff = true ∧ u.getF F.pwrModeState = 6) ∧ (times.length < 3 → u.pwr.heldOff = s.pwr.heldOff) ∧
      u.parts = s.parts ∧ s.dataKept u)) ∧
    ((s.pwr.recovering = false ∨ s.pwr.inputGood = false ∨ s.pwr.heldOff = true) → exec .supplyResetRecovery s = .next s) ∧
    ((s.pwr.recovering = true ∧ s.pwr.inputGood = true ∧ s.pwr.heldOff = false) → s.gives .supplyResetRecovery (fun u => restarts u 5)) ∧
    (s.isOn = false → exec .resetN s = .next s) ∧
    ((s.isOn = true ∧ s.resetWaits = true) → s.gives .resetN (fun u =>
      u = { s with pwr := { s.pwr with resetPin := true, deferred := [2] } })) ∧
    ((s.isOn = true ∧ s.resetWaits = false ∧ s.pwr.running ≠ some .supply ∧ s.pwr.running ≠ some .module) → s.gives .resetN (fun u =>
      u.pwr.resetPin = true ∧ u.pwr.running = some .module ∧ u.pwr.heldAt2 = true ∧ u.pwr.stopped = true ∧
      (s.servesDomain = true → u.pwr.failedModule = true) ∧ s.dataKept u)) ∧
    (s.pwr.heldAt2 = false → s.gives .resetNRelease (fun u => u = { s with pwr := { s.pwr with resetPin := false } })) ∧
    (s.pwr.heldAt2 = true → s.gives .resetNRelease (fun u => restarts u 2 ∧ u.pwr.heldAt2 = false ∧ u.pwr.resetPin = false)) ∧
    (s.pwrMode ≠ 3 → exec .wakeN s = .next s ∧ exec .pwrWakeGo s = .next s) ∧
    (s.pwrMode = 3 → ∀ cmd, (cmd = .wakeN ∨ cmd = .pwrWakeGo) → s.gives cmd (fun u =>
      u.pwrMode = 0 ∧ u.pwr.cores = true ∧ u.pwr.railsOn = true ∧ u.hbm = s.hbm ∧
      (∀ k < 96, u.getR (R.glbTmapCur k) = s.getR (R.glbTmapCur k)) ∧
      (∀ n, (u.prt n).wgt.resident = (s.prt n).wgt.resident ∧ (u.prt n).desc = (s.prt n).desc)))

/-- R396, R416 to R418, R422 to R425, R431: PWR_STATE moves the module between Run, Idle, Retain and Deep, at once or when its programs
have stopped, and not while a program runs; eject-prepare hands over or finds no standby, and ends in safe to remove; a reset command
replies and then resets, ends Retain and the partition resets under way, is discarded while a reset of its rank or a higher one runs,
and waits for an opening or an activation. That a waiting row changes nothing is the model's choice (log 3). -/
def Obligations.PowerStatesAndResetCommands : Prop :=
  ∀ (h : CmdHdr) (free : Bool) (s : State),
    let replied := fun (u : State) => (⟨h.sender, h.tag, stOK, s.slot, 0, []⟩ : Reply) ∈ u.replies
    let idle := fun (u : State) => u.pwrMode = 1 ∧ u.getF F.cadAvsRail = 0 ∧ u.pwr.idleWanted = false ∧
      u.cad = { s.cad with idleRail := s.getF F.cadAvsRail } ∧ u.parts = s.parts ∧ s.dataKept u
    let running := (List.range 16).filter (fun n => n ≠ 0 && s.running n)
    (s.accepts h false true →
      ((s.pwrMode = 0 ∧ s.pwr.idleWanted = false) → s.answersWith (.pwrStateRun h) h stOK 0 []) ∧
      (s.pwrMode = 1 → s.gives (.pwrStateRun h) (fun u => s.started u h 0x0900 0 ∧ u.flag F.pwrModeChanging = true ∧ u.pwrMode = 1 ∧ s.dataKept u)) ∧
      ((s.pwrMode = 2 ∧ s.pwr.idleWanted = false) → s.gives (.pwrStateRun h) (fun u =>
        s.answered u h stOK 0 [] ∧ u.pwrMode = 0 ∧ u.pwr.hbmRefresh = false ∧ u.pwr.railArr = 900 ∧ (∀ k, 64 ≤ k → k < 70 → u.domOn k = true) ∧
        u.hbm = s.hbm ∧ u.parts = s.parts)) ∧
      (2 < s.pwrMode → s.answersWith (.pwrStateRun h) h stWrongState 0 [] ∧ s.answersWith (.pwrStateIdle h) h stWrongState 0 [] ∧
        s.answersWith (.pwrStateRetain h) h stWrongState 0 [] ∧ s.answersWith (.pwrStateDeep h) h stWrongState 0 []) ∧
      ((s.pwrMode = 0 ∧ s.anyRunning = true) → s.gives (.pwrStateIdle h) (fun u =>
        s.started u h 0x0900 1 ∧ u.pwr = { s.pwr with idleWanted := true } ∧ u.regs = s.regs ∧ u.parts = s.parts ∧ s.dataKept u)) ∧
      ((s.pwrMode = 0 ∧ s.anyRunning = false ∧ (∀ o ∈ s.bridge.outst, o.opcode ≠ 0x0900)) → s.gives (.pwrStateIdle h) (fun u =>
        s.answered u h stOK 0 [] ∧ idle u)) ∧
      (s.pwrMode = 1 → s.gives (.pwrStateIdle h) (fun u => s.answered u h stOK 0 [] ∧ u.flag F.pwrModeChanging = false ∧ u.pwrMode = 1 ∧
        s.dataKept u)) ∧
      ((s.pwrMode ≤ 1 ∧ s.anyRunning = false) → s.gives (.pwrStateRetain h) (fun u =>
        s.answered u h stOK 0 [] ∧ u.pwrMode = 2 ∧ u.pwr.hbmRefresh = true ∧ u.pwr.railArr = 500 ∧ u.pwr.railSram = 500 ∧
        (∀ k ∈ s.tilePairs, u.getF (F.pwrDomState k) = 1) ∧ (∀ k, 64 ≤ k → k < 70 → u.getF (F.pwrDomState k) = 0) ∧
        u.hbm = s.hbm ∧ u.arrays = s.arrays ∧ u.tiles = s.tiles ∧ u.parts = s.parts)) ∧
      ((s.pwrMode = 2 ∧ s.anyRunning = false) → s.answersWith (.pwrStateRetain h) h stOK 0 []) ∧
      ((s.pwrMode ≤ 2 ∧ s.anyRunning = true) → s.answersWith (.pwrStateRetain h) h stWrongState 0 [] ∧
        s.answersWith (.pwrStateDeep h) h stWrongState 0 []) ∧
      ((s.pwrMode ≤ 2 ∧ s.anyRunning = false ∧ s.regsWf) → s.gives (.pwrStateDeep h) (fun u =>
        s.answered u h stOK 0 [] ∧ u.pwrMode = 3 ∧ u.pwr.booted = false ∧ u.pwr.cores = false ∧ u.pwr.railsOn = false ∧
        u.pwr.hbmRefresh = true ∧ u.locked = false ∧ (∀ k < 72, u.getF (F.pwrDomState k) = 0) ∧ u.hbm = s.hbm ∧ u.parts = s.parts)) ∧
      ((s.pwr.ejecting = false ∧ s.pwrMode ≤ 2 ∧ s.anySwap = false) →
        (running = [] → s.gives (.ejectPrep h free) (fun u =>
          s.started u h 0x0902 (bit free) ∧ u.pwr.ejecting = true ∧ u.pwr.ejectOn = true ∧ u.cad.masterNow = false ∧
          u.getF F.pwrSlotAttn = 2 ∧ u.parts = s.parts ∧ s.dataKept u)) ∧
        ((running ≠ [] ∧ (free = false ∨ s.standbyFor s.slot = none) ∧ (∀ o ∈ s.bridge.outst, o.opcode ≠ 0x0902)) →
          s.gives (.ejectPrep h free) (fun u => s.answered u h stNoResource 0 [] ∧ u.pwr.ejecting = false ∧ u.parts = s.parts ∧ s.dataKept u)) ∧
        (∀ d, (running ≠ [] ∧ free = true ∧ s.standbyFor s.slot = some d) → s.gives (.ejectPrep h free) (fun u =>
          s.started u h 0x0902 1 ∧ u.pwr.ejecting = true ∧ (∀ n ∈ running, (u.prt n).coordHold = true ∧ (s.partState n ≠ 0 → (u.prt n).hold = some 4)) ∧
          (s.win + 2, s.slot, d) ∈ u.cad.redirects ∧ s.dataKept u)))) ∧
    ((s.pwr.idleWanted = false ∨ s.anyRunning = true) → exec .idleEntry s = .next s) ∧
    ((s.pwr.idleWanted = true ∧ s.anyRunning = false) → s.gives .idleEntry idle) ∧
    ((s.pwr.ejecting = false ∨ s.pwr.ejectOn = false) → exec .logDrainDone s = .next s) ∧
    ((s.pwr.ejecting = true ∧ s.pwr.ejectOn = true ∧ s.regsWf ∧ (∀ n < 16, (s.prt n).coordHold = false ∨ (s.prt n).hold ≠ some 4)) →
      s.gives .logDrainDone (fun u => u.pwrMode = 4 ∧ u.pwr.ejecting = false ∧ u.pwr.ejected = true ∧ u.pwr.railsOn = false ∧
        u.pwr.booted = false ∧ u.locked = false ∧ u.getF F.pwrSlotRdy = 1 ∧ (∀ k < 72, u.getF (F.pwrDomState k) = 0) ∧ u.hbm = s.hbm)) ∧
    (s.resetWaits = true → exec (.resetWarm h) s = .next s ∧ exec (.resetModule h) s = .next s ∧ exec (.thermalClear h) s = .next s) ∧
    ((s.accepts h false true ∧ s.resetWaits = false) →
      ((s.pwr.running = none ∧ s.anyRunning = false) → s.gives (.resetWarm h) (fun u =>
        replied u ∧ u.getF F.glbRstLast = 4 ∧ u.pwr.running = none ∧ (s.pwrMode ≠ 2 → u.arrays = s.arrays) ∧ (s.pwrMode = 2 → u.pwrMode = 0) ∧
        u.hbm = s.hbm ∧ (∀ t b, (u.tile t).byte b = 0) ∧ (∀ n < 16, (u.prt n).resetting = false))) ∧
      (s.pwr.running ≠ none → s.answersWith (.resetWarm h) h stCancelled 0 []) ∧
      ((s.pwr.running ≠ some .supply ∧ s.pwr.running ≠ some .module) →
        s.gives (.resetModule h) (fun u => replied u ∧ u.getF F.glbRstLast = 3 ∧ u.hbm = s.hbm ∧
          (∀ n, (u.prt n).wgt.resident = (s.prt n).wgt.resident ∧ (u.prt n).prog = none)) ∧
        ((∀ k < 112, s.temp k < s.getF F.thmCfgTh) → s.gives (.thermalClear h) (fun u =>
          replied u ∧ u.getF F.glbRstLast = 6 ∧ u.flag F.thmStatusShutdown = false ∧ u.hbm = s.hbm))) ∧
      ((s.pwr.running = some .supply ∨ s.pwr.running = some .module) → s.answersWith (.resetModule h) h stCancelled 0 []) ∧
      ((∃ k < 112, s.getF F.thmCfgTh ≤ s.temp k) → s.answersWith (.thermalClear h) h stWrongState 0 []))

/-! ## Thermal control, power domains and the housekeeping converter -/

/-- R389 to R395, R411, R412: a sensor's reading is its temperature unless the sensor is broken, which eight deviating readings make it; the
hottest sensor gives T_max, which sets the warning and the throttle level and calls for a stretch; the second reading at the shutdown level
shuts the module down; THM_CFG and SUP_CFG take a write only within their bounds; PWR_INSTALL makes the settings in force the installed ones. -/
def Obligations.TemperaturesAndSettings : Prop :=
  ∀ (k : Fin 112) (reading : BitVec 12) (us : Nat) (w : Word) (s : State),
    let x := s.sens k
    let ns := s.working k
    let m : Int := medianLow (ns.map s.temp)
    let delta := Config.thermalDelta k s.free
    let deviates : Prop := 2 ≤ ns.length ∧ 32 < ((reading.toNat : Int) - m - delta).natAbs
    let broken := s.flag (F.thmSensBroken k)
    let est := if ns = [] then s.temp k else clampTemp (m + delta)
    (s.regsWf → s.gives (.sensorSample k reading us) (fun u =>
      let top := u.getF F.thmStatusTmax
      u.getF (F.thmSensRaw k) = reading.toNat ∧ u.getF (F.thmSensRate k) = (if x.seen then s.rateFor (s.temp k) else 0) ∧
      ((broken = false ∧ ¬deviates) → u.temp k = reading.toNat ∧ (u.sens k).deviant = 0 ∧ u.flag (F.thmSensBroken k) = false) ∧
      ((broken = false ∧ deviates ∧ x.deviant < 7) → u.temp k = reading.toNat ∧ (u.sens k).deviant = x.deviant + 1 ∧
        u.flag (F.thmSensBroken k) = false ∧ u.pwr = s.pwr) ∧
      ((broken = false ∧ deviates ∧ 7 ≤ x.deviant) → u.temp k = est ∧ u.flag (F.thmSensBroken k) = true) ∧
      (broken = true → u.temp k = est ∧ u.flag (F.thmSensBroken k) = true) ∧
      (∀ j < 112, j ≠ k.val → u.temp j = s.temp j ∧ u.sens j = s.sens j) ∧
      (∀ j < 112, u.temp j ≤ top) ∧ u.getF F.thmStatusHottest < 112 ∧ u.temp (u.getF F.thmStatusHottest) = top ∧
      u.flag F.thmStatusWarn = (if s.getF F.thmCfgWarn ≤ top then true else if top + 20 < s.getF F.thmCfgWarn then false else
        s.flag F.thmStatusWarn) ∧
      u.flag F.thmStatusThrottle = (if s.getF F.thmCfgTh ≤ top then true else if top + 20 < s.getF F.thmCfgTh then false else
        s.flag F.thmStatusThrottle) ∧
      (u.getF F.thmStatusHottest ≠ k.val → u.getF F.thmStatusReq = s.getF F.thmStatusReq) ∧
      ((u.getF F.thmStatusHottest = k.val ∧ u.flag F.thmStatusThrottle = true ∧
          s.getF F.thmStatusReq < min 50 (max 1 (top - s.getF F.thmCfgTh))) →
        u.getF F.thmStatusReq = min 50 (max 1 (top - s.getF F.thmCfgTh))) ∧
      (((broken = true ∨ ¬deviates ∨ 7 ≤ x.deviant) ∧ s.getF F.thmCfgShut ≤ u.temp k ∧ 1 ≤ x.overShut ∧
          s.flag F.thmStatusShutdown = false) →
        u.flag F.thmStatusShutdown = true ∧ u.getF F.pwrModeState = 5 ∧ u.pwr.railsOn = false ∧ u.pwr.stopped = true ∧
        u.pwr.failedModule = true ∧ u.pwr.hbmRefresh = true ∧ u.firn.nvSeq = s.firn.nvSeq + 1 ∧
        (∀ d < 72, u.getF (F.pwrDomState d) = 0)) ∧
      (u.temp k < s.getF F.thmCfgShut → u.pwr.railsOn = s.pwr.railsOn ∧ s.dataKept u ∧
        u.flag F.thmStatusShutdown = s.flag F.thmStatusShutdown) ∧
      u.hbm = s.hbm ∧ u.parts = s.parts)) ∧
    (let warn := bitsOf w 9 0
     let th := bitsOf w 19 10
     let shut := bitsOf w 29 20
     ((warn < th ∧ th + 32 ≤ shut ∧ 400 ≤ shut ∧ shut ≤ 472 ∧ 340 ≤ th) → s.gives (.thmCfgWrite w) (fun u =>
       u.getF F.thmCfgWarn = warn ∧ u.getF F.thmCfgTh = th ∧ u.getF F.thmCfgShut = shut ∧ u = { s with regs := u.regs } ∧
       s.regsKept u [R.thmCfg.addr])) ∧
     ((th ≤ warn ∨ shut < th + 32 ∨ shut < 400 ∨ 472 < shut ∨ th < 340) → s.gives (.thmCfgWrite w) (fun u =>
       u.flag F.thmStatusCfgErr = true ∧ u = { s with regs := u.regs } ∧ s.regsKept u [R.thmStatus.addr]))) ∧
    (let warn := bitsOf w 7 0
     let reset := bitsOf w 15 8
     let stretch := bitsOf w 23 16
     ((90 ≤ warn ∧ warn ≤ 97 ∧ 85 ≤ reset ∧ reset + 3 ≤ warn ∧ 10 ≤ stretch ∧ stretch ≤ 50) → s.gives (.supCfgWrite w) (fun u =>
       u.getF F.supCfgWarnPct = warn ∧ u.getF F.supCfgResetPct = reset ∧ u.getF F.supCfgStretch = stretch ∧ u = { s with regs := u.regs } ∧
       s.regsKept u [R.supCfg.addr])) ∧
     ((warn < 90 ∨ 97 < warn ∨ reset < 85 ∨ warn < reset + 3 ∨ stretch < 10 ∨ 50 < stretch) → s.gives (.supCfgWrite w) (fun u =>
       u.flag F.supStatusCfgErr = true ∧ u = { s with regs := u.regs } ∧ s.regsKept u [R.supStatus.addr]))) ∧
    s.gives .pwrInstallSave (fun u =>
      u = { s with firn := { s.firn with settings := u.firn.settings } } ∧
      (∀ r ∈ [R.thmCfg, R.supCfg, R.hkTimer, R.hkMask 0, R.hkMask 1], u.installedWord r = s.getR r) ∧
      (∀ c < 16, u.installedWord (R.hkPwm c) = s.getR (R.hkPwm c) ∧ u.installedWord (R.hkCmpBnd c) = s.getR (R.hkCmpBnd c) ∧
        u.installedWord (R.hkCmpCfg c) = withBits (s.getR (R.hkCmpCfg c)) 29 28 0))

/-- R15, R385 to R387, R404 to R409: firmware's request switches a power domain, one that is LOCKED, not firmware's or for the endpoint of a
module that is no bridge is refused; triggers start
scans of the enabled channels, one pending, further ones counted; a conversion updates its value register, the FIFO and the comparators and
the next one starts, urgent ones first; reading HK_FIFO takes its oldest entry; a comparator that is written returns to inside. -/
def Obligations.DomainsAndConverter : Prop :=
  ∀ (d : Fin 72) (req : Fin 4) (core cfg : Bool) (p : Fin 16) (ch : Fin 64) (code : BitVec 12) (w : Word) (s : State),
    let fires := fun (t u : State) (src : Nat) =>
      u = { t with hk := u.hk, regs := u.regs } ∧ u.hk.fifo = t.hk.fifo ∧
      (∀ a, a ≠ R.hkStatus.addr → Sparse.get regDefault u.regs a = Sparse.get regDefault t.regs a) ∧
      ((t.hk.scan = none ∧ t.hk.conv = none ∧ t.hk.urgent = []) → u.regs = t.regs ∧ u.hk.urgent = [] ∧
        u.hk.scanNo = (t.hk.scanNo + 1) % 2048 ∧
        (∀ c rest, t.scanChannels = c :: rest → u.hk.conv = some (c, src) ∧ u.hk.scan = some (src, rest)) ∧
        (t.scanChannels = [] → u.hk.conv = none ∧ u.hk.scan = none)) ∧
      ((t.hk.scan ≠ none ∧ t.hk.pendingTrig = none) → u.hk = { t.hk with pendingTrig := some src } ∧ u.regs = t.regs) ∧
      ((t.hk.scan ≠ none ∧ t.hk.pendingTrig ≠ none) → u.hk = t.hk ∧
        u.getF F.hkStatusMissed = min 255 (t.getF F.hkStatusMissed + 1))
    (core = false → s.gives (.pwrDomReqWrite d req core) (fun u => s.onlyLogs u ∧ s.logs u srcHk (code14 1) 0xFF d)) ∧
    (core = true →
      (s.flag (F.pwrDomLocked d) = true → s.gives (.pwrDomReqWrite d req core) (fun u => s.onlyLogs u)) ∧
      (s.flag (F.pwrDomLocked d) = false →
        ((req.val = 3 ∨ (req.val = 1 ∧ 48 ≤ d.val) ∨ (d = 71 ∧ req ≠ 0 ∧ s.me.bridge = false)) →
          exec (.pwrDomReqWrite d req core) s = .next s) ∧
        ((req.val < 3 ∧ (req.val = 1 → d.val < 48) ∧ (d = 71 → req = 0 ∨ s.me.bridge = true)) →
          (s.domainGoal d = req.val → s.gives (.pwrDomReqWrite d req core) (fun u =>
            u.getF (F.pwrDomReq d) = req.val ∧ u = { s with regs := u.regs } ∧ s.regsKept u [(R.pwrDom d).addr])) ∧
          ((s.domainGoal d ≠ req.val ∧ s.pwr.domWait = [] ∧ s.pwr.domRamp.length < 4 ∧ (∀ x ∈ s.pwr.domRamp, x.1 < 72 ∧ x.1 ≠ d.val)) →
            s.gives (.pwrDomReqWrite d req core) (fun u =>
              u.pwr = { s.pwr with domRamp := s.pwr.domRamp ++ [(d.val, req.val)] } ∧ u.getF (F.pwrDomState d) = 3 ∧
              u.getF F.pwrStatusRamping = s.pwr.domRamp.length + 1 ∧ u.getF (F.pwrDomReq d) = req.val ∧ s.dataKept u)) ∧
          ((s.domainGoal d ≠ req.val ∧ s.pwr.domWait = [] ∧ s.pwr.domRamp.length = 4) →
            s.gives (.pwrDomReqWrite d req core) (fun u =>
              u.pwr = { s.pwr with domWait := [(d.val, req.val)] } ∧ s.dataKept u))))) ∧
    ((∀ x ∈ s.pwr.domRamp, x.1 ≠ d.val) → exec (.domainSwitchDone d) s = .next s) ∧
    ((s.pwr.domRamp = [(d.val, req.val)] ∧ s.pwr.domWait = [] ∧ req.val < 3) → s.gives (.domainSwitchDone d) (fun u =>
      u.pwr = { s.pwr with domRamp := [] } ∧ u.getF (F.pwrDomState d) = req.val ∧ u.getF F.pwrStatusRamping = 0 ∧
      u.getF (F.pwrDomSwitches d) = (s.getF (F.pwrDomSwitches d) + 1) % 2 ^ 16 ∧ u.hbm = s.hbm ∧ u.parts = s.parts ∧
      (0 < req.val → s.dataKept u) ∧
      ((req.val = 0 ∧ d.val < 48) → (∀ a b, a / 2 = d.val → (u.tile a).byte b = 0) ∧ (∀ e ∈ u.arrays, e.1 / 256 ≠ d.val)))) ∧
    (s.getF F.hkTimerPeriod = 0 → exec .hkTimerExpiry s = .next s) ∧
    (s.getF F.hkTimerPeriod ≠ 0 → s.gives .hkTimerExpiry (fun u => fires s u 0)) ∧
    (s.flag (F.hkPwmEnable p) = false → exec (.pwmEvent p) s = .next s) ∧
    (s.flag (F.hkPwmEnable p) = true →
      (p.val ∉ s.hk.delays → s.gives (.pwmEvent p) (fun u => u = { s with hk := { s.hk with delays := s.hk.delays ++ [p.val] } })) ∧
      (p.val ∈ s.hk.delays → s.gives (.pwmEvent p) (fun u =>
        u = { s with regs := u.regs } ∧ u.getF F.hkStatusMissed = min 255 (s.getF F.hkStatusMissed + 1)))) ∧
    (p.val ∉ s.hk.delays → exec (.pwmDelayExpiry p) s = .next s) ∧
    (p.val ∈ s.hk.delays → s.gives (.pwmDelayExpiry p) (fun u =>
      fires { s with hk := { s.hk with delays := s.hk.delays.filter (· ≠ p.val) } } u 1)) ∧
    (s.hk.conv = none → exec (.hkConversionDone code) s = .next s) ∧
    (∀ src < 3, s.hk.conv = some (ch.val, src) → s.gives (.hkConversionDone code) (fun u =>
      u.getR (R.hkValue ch) = hkWord src 0 s.hk.scanNo code.toNat ∧
      (s.hk.fifo.length < 256 → u.hk.fifo = s.hk.fifo ++ [hkWord src ch s.hk.scanNo code.toNat]) ∧
      (256 ≤ s.hk.fifo.length → u.hk.fifo = s.hk.fifo ∧ u.getF F.hkStatusFifoLost = min 255 (s.getF F.hkStatusFifoLost + 1)) ∧
      (∀ c < 16,
        let on := s.flag (F.hkCmpCfgEnable c) && s.getF (F.hkCmpCfgChannel c) = ch.val
        let st := s.getF (F.hkCmpCfgState c)
        let low := s.getF (F.hkCmpBndLow c)
        let high := s.getF (F.hkCmpBndHigh c)
        let hyst := s.getF (F.hkCmpCfgHyst c)
        u.getF (F.hkCmpCfgState c) = (if !on then st
          else if st = 0 then (if code.toNat < low then 1 else if high < code.toNat then 2 else 0)
          else if low + hyst ≤ code.toNat ∧ code.toNat + hyst ≤ high then 0 else st) ∧
        (u.getR R.hkCmpEvt).getLsbD c = ((s.getR R.hkCmpEvt).getLsbD c || (on && st = 0 && u.getF (F.hkCmpCfgState c) ≠ 0))) ∧
      (∀ c rest, s.hk.urgent = c :: rest → u.hk.conv = some (c, 2) ∧ u.hk.urgent = rest) ∧
      (s.hk.urgent = [] →
        (∀ q c rest, s.hk.scan = some (q, c :: rest) → u.hk.conv = some (c, q) ∧ u.hk.scan = some (q, rest)) ∧
        (∀ q, (s.hk.scan = some (q, []) ∧ src < 2 ∧ s.hk.pendingTrig = none) → u.hk.conv = none ∧ u.hk.scan = none)) ∧
      s.dataKept u ∧ u.parts = s.parts)) ∧
    (4 ≤ s.hk.urgent.length → s.gives (.hkUrgentWrite ch) (fun u =>
      u = { s with regs := u.regs } ∧ u.getF F.hkStatusUrgRefused = min 63 (s.getF F.hkStatusUrgRefused + 1))) ∧
    ((s.hk.urgent = [] ∧ s.hk.conv = none) → s.gives (.hkUrgentWrite ch) (fun u =>
      u = { s with hk := { s.hk with conv := some (ch.val, 2) } })) ∧
    ((s.hk.urgent.length < 4 ∧ s.hk.conv ≠ none) → s.gives (.hkUrgentWrite ch) (fun u =>
      u = { s with hk := { s.hk with urgent := s.hk.urgent ++ [ch.val] } })) ∧
    (s.hk.fifo = [] → s.gives .hkFifoRead (fun u => u.getR R.hkFifo = 0 ∧ u = { s with regs := u.regs })) ∧
    (∀ v rest, s.hk.fifo = v :: rest → s.gives .hkFifoRead (fun u =>
      u.getR R.hkFifo = v ∧ u = { s with regs := u.regs, hk := { s.hk with fifo := rest } })) ∧
    s.gives (.hkCmpWrite p cfg w) (fun u =>
      u.getF (F.hkCmpCfgState p) = 0 ∧ u.hk = s.hk ∧ s.dataKept u ∧ u.parts = s.parts ∧
      (cfg = true → u.flag (F.hkCmpCfgEnable p) = w.getLsbD 31 ∧ u.flag (F.hkCmpCfgAction p) = w.getLsbD 30 ∧
        u.getF (F.hkCmpCfgChannel p) = bitsOf w 27 22 ∧ u.getF (F.hkCmpCfgStretch p) = bitsOf w 15 8 ∧ u.getF (F.hkCmpCfgHyst p) = bitsOf w 7 0 ∧
        u.getR (R.hkCmpBnd p) = s.getR (R.hkCmpBnd p)) ∧
      (cfg = false → u.getF (F.hkCmpBndHigh p) = bitsOf w 27 16 ∧ u.getF (F.hkCmpBndLow p) = bitsOf w 11 0))

/-! ## Reads and writes of registers -/

/-- R9 to R11, R159, R163, R244, R290, R387, R468: a write reaches what the requester may reach, and nothing elsewhere; HK_TIMER takes its
period, HK_CMP_EVT clears the bits written 1, PWR_STATUS takes nothing, and a register that starts an operation starts it; reads of a latched
or cleared field latch or clear it; REG_READ and REG_WRITE take 1 to 256 mapped words; the management interface reads and writes through the same registers.
The host's BAR2 holds the MSI-X table, whose vector control masks and unmasks, and its configuration space the number of virtual functions
(R249 to R252); their layout is PCI Express's (log entry 82). -/
def Obligations.RegistersAreReadAndWritten : Prop :=
  ∀ (h : CmdHdr) (addr count : Word) (words : List Word) (by_ : Requester) (a : Nat) (w : Word) (n : PartN) (t : TileN) (req : Fin 4)
      (data : Bytes) (pec : Bool) (s : State),
    let only := fun (u : State) (r : Reg) => u = { s with regs := u.regs } ∧ s.regsKept u [r.addr]
    let l := regAddrs addr count.toNat
    let mapped := 1 ≤ count.toNat ∧ count.toNat ≤ 256 ∧ s.regsMapped l = true
    s.gives .cadBeatLoRead (fun u => u.getR R.cadBeatHi = BitVec.ofNat 32 (s.cad.beat.toNat / 2 ^ 32) ∧ only u R.cadBeatHi) ∧
    s.gives (.partWgtEpochLoRead n) (fun u =>
      u.getR (R.partWgtEpochHi n) = BitVec.ofNat 32 ((s.wgt n).epoch.toNat / 2 ^ 32) ∧ only u (R.partWgtEpochHi n)) ∧
    s.gives (.tileSeqLagRead t) (fun u => u.getF (F.tileSeqLagMax t) = 0 ∧ only u (R.tileSeqLag t)) ∧
    s.gives .cadAlignRead (fun u => u.getF F.cadAlignErrMax = 0 ∧ only u R.cadAlign) ∧
    (((∀ f, by_ ≠ .bar2 f ∧ by_ ≠ .config f) ∧ s.reach by_ a = none) → exec (.registerWrite by_ a w) s = .next s) ∧
    (∀ f : Fin 64, by_ = .bar2 f →
      (let v := a / 16
       let here := s.fnEnabled f = true ∧ a % 4 = 0 ∧ v < msixVectors f
       (¬ here → exec (.registerWrite by_ a w) s = .next s) ∧
       (here → s.gives (.registerWrite by_ a w) (fun u =>
         u = { s with bridge := u.bridge, msix := u.msix } ∧ u.bridge.outst = s.bridge.outst ∧ u.bridge.relays = s.bridge.relays ∧
         (∀ i, Sparse.get (fun _ => 0) u.bridge.msixTable i = if i = 256 * f.val + a / 4 then w else Sparse.get (fun _ => 0) s.bridge.msixTable i) ∧
         (a / 4 % 4 ≠ 3 → u.msix = s.msix ∧ u.bridge.msixMask = s.bridge.msixMask ∧ u.bridge.msixPend = s.bridge.msixPend) ∧
         ((a / 4 % 4 = 3 ∧ w.getLsbD 0 = true) → u.msix = s.msix ∧ (f.val, v) ∉ u.bridge.msixMask ∧ u.bridge.msixPend = s.bridge.msixPend) ∧
         ((a / 4 % 4 = 3 ∧ w.getLsbD 0 = false) → (f.val, v) ∈ u.bridge.msixMask ∧
           u.msix = s.msix ++ (if s.bridge.msixPend.contains (f.val, v) ∧ s.bridge.linkUp then [(f.val, v)] else [])))))) ∧
    (∀ f : Fin 64, by_ = .config f →
      (let here := s.fnEnabled f = true ∧ a % 4 = 0 ∧ a < 4096
       let word := fun (u : State) (k : Nat) => Sparse.get (fun _ => (0 : Word)) u.bridge.config k
       (¬ here → exec (.registerWrite by_ a w) s = .next s) ∧
       (here → s.gives (.registerWrite by_ a w) (fun u =>
         (∀ i, word u i = if i = 1024 * f.val + a / 4 then configAfter (a / 4) (word s i) w else word s i) ∧ s.regsKept u [R.glbBridge.addr] ∧
         u = { s with regs := u.regs, bridge := { s.bridge with config := u.bridge.config } } ∧
         (f ≠ 0 → u.regs = s.regs) ∧
         (f = 0 → u.getF F.glbBridgeNumVf = if (word u (Config.sriovWord + 2)).getLsbD 0 then
           min 63 (bitsOf (word u (Config.sriovWord + 4)) 15 0) else 0))))) ∧
    (a % 4 ≠ 0 → exec (.registerWrite .core a w) s = .next s) ∧
    ((s.absent t = true ∧ a < 0x100000) → exec (.registerWrite .core (0x10000000 + t.val * 0x100000 + a) w) s = .next s) ∧
    (s.reach by_ a = some R.hkTimer → s.gives (.registerWrite by_ a w) (fun u => u.getF F.hkTimerPeriod = bitsOf w 19 0 ∧ only u R.hkTimer)) ∧
    (s.reach by_ a = some R.hkCmpEvt → s.gives (.registerWrite by_ a w) (fun u =>
      u.getR R.hkCmpEvt = s.getR R.hkCmpEvt &&& ~~~(w &&& 0xFFFF) ∧ only u R.hkCmpEvt)) ∧
    (s.reach by_ a = some R.pwrStatus → s.gives (.registerWrite by_ a w) (fun u => ∀ b, u.getR b = s.getR b)) ∧
    (∀ d : Fin 72, s.reach by_ a = some (R.pwrDom d) → bitsOf w 5 4 = req.val →
      exec (.registerWrite by_ a w) s = exec (.pwrDomReqWrite d req (by_ = .core)) s) ∧
    (s.reach by_ a = some R.thmCfg → exec (.registerWrite by_ a w) s = exec (.thmCfgWrite w) s) ∧
    (s.reach by_ a = some R.supCfg → exec (.registerWrite by_ a w) s = exec (.supCfgWrite w) s) ∧
    (s.reach by_ a = some R.glbTmapCtrl → exec (.registerWrite by_ a w) s = exec (.glbTmapCtrlArm w) s) ∧
    ((s.reach by_ a = some R.pwrInstall ∧ w.getLsbD 0 = true) → exec (.registerWrite by_ a w) s = exec .pwrInstallSave s) ∧
    ((s.reach by_ a = some R.pwrWake ∧ w.getLsbD 0 = true) → exec (.registerWrite by_ a w) s = exec .pwrWakeGo s) ∧
    (∀ c : Fin 16, s.reach by_ a = some (R.hkCmpCfg c) → exec (.registerWrite by_ a w) s = exec (.hkCmpWrite c true w) s) ∧
    (s.accepts h (s.regsAllowed h false l) true →
      ((mapped ∧ (4 * count.toNat ≤ 48 ∨ 4 * count.toNat ≤ h.rbuf ∨ (∀ f, h.sender ≠ .host f))) →
        s.gives (.regRead h addr count) (fun u =>
          ∃ p, s.answered u h stOK 0 p ∧ p.length = 4 * count.toNat ∧ p.take 4 = leBytes 4 (match s.reach .core addr.toNat with
            | some r => (s.regValue r (s.secureSender h.sender)).toNat
            | none => 0))) ∧
      (¬mapped → s.answersWith (.regRead h addr count) h stBadParam 0 [])) ∧
    (s.accepts h (s.regsAllowed h true l) true →
      ((¬mapped ∨ words.length ≠ count.toNat) → s.answersWith (.regWrite h addr count words) h stBadParam 0 []) ∧
      ((mapped ∧ count.toNat = 1 ∧ words = [w] ∧ s.reach .core addr.toNat = some R.hkTimer) → s.gives (.regWrite h addr count words) (fun u =>
        s.answered u h stOK 0 [] ∧ u.getF F.hkTimerPeriod = bitsOf w 19 0 ∧ u.parts = s.parts ∧ s.dataKept u)) ∧
      ((mapped ∧ count.toNat = 1 ∧ words = [w] ∧ s.reach .core addr.toNat = none) → s.answersWith (.regWrite h addr count words) h stOK 0 [])) ∧
    (pec = false → exec (.smbusRegisterRead addr pec) s = .next s ∧ exec (.smbusRegisterWrite addr w pec) s = .next s ∧
      exec (.smbusFirmwareChunk addr data pec) s = .next s) ∧
    (pec = true →
      (s.reach .smbus addr.toNat = none → s.gives (.smbusRegisterRead addr pec) (fun u =>
        u = { s with sec := { s.sec with smbLast := 0 } })) ∧
      (∀ r, s.reach .smbus addr.toNat = some r → s.gives (.smbusRegisterRead addr pec) (fun u =>
        u.sec.smbLast = s.regValue r (s.secure .smbus) ∧ u.parts = s.parts ∧ s.dataKept u)) ∧
      exec (.smbusRegisterWrite addr w pec) s = exec (.registerWrite .smbus addr.toNat w) s ∧
      ((s.flag F.secStatusRecovery = true ∧ s.pwr.booted = false ∧ data.length ≤ 24) → s.gives (.smbusFirmwareChunk addr data pec) (fun u =>
        u = { s with sec := { s.sec with recovery := u.sec.recovery } } ∧
        ∀ j, Sparse.get (fun _ => (0 : Byte)) u.sec.recovery j = if addr.toNat ≤ j ∧ j < addr.toNat + data.length then data.getD (j - addr.toNat) 0
          else Sparse.get (fun _ => 0) s.sec.recovery j)) ∧
      ((s.flag F.secStatusRecovery = false ∨ s.pwr.booted = true ∨ 24 < data.length) → exec (.smbusFirmwareChunk addr data pec) s = .next s)) ∧
    s.gives .smbusBlockRead (fun u => u = { s with smbOut := s.smbOut ++ [s.sec.smbLast] })

/-! ## The machine as a whole -/

/-- A step takes the command at the front of the queue and is that command's effect on the module with the rest of the queue; with an empty
queue the module idles (the model's choice: log 1). -/
def Obligations.StepRunsTheFrontCommand : Prop :=
  ∀ (c : Instr) (rest : List Instr) (s : State),
    step { s with pending := c :: rest } = exec c { s with pending := rest } ∧
    (s.pending = [] → step s = .next s)

/-- R385, R411: at reset every register holds its reset value: no power domain is on and none switches, the cadence
is free, PWR_MODE is Run, the supply, thermal and timer settings are the installed ones; HBM4, registers and the queue of commands are in
their canonical form with nothing listed, and no core register holds anything.
The values that the spec does not give are the model's choice (logs 4 and 5). -/
def Obligations.ResetState : Prop :=
  State.reset.pending = [] ∧ State.reset.hbmWf ∧ State.reset.regsWf ∧ (∀ r : Reg, State.reset.getR r = regDefault r.addr) ∧
  (∀ k < 72, State.reset.getF (F.pwrDomState k) = 0 ∧ State.reset.getF (F.pwrDomReq k) = 0 ∧ State.reset.getF (F.pwrDomSwitches k) = 0) ∧
  State.reset.getF F.pwrStatusRamping = 0 ∧ State.reset.pwrMode = 0 ∧ State.reset.locked = false ∧ State.reset.getF F.cadStretchInForce = 0 ∧
  State.reset.getF F.thmCfgWarn = 380 ∧ State.reset.getF F.thmCfgTh = 400 ∧ State.reset.getF F.thmCfgShut = 472 ∧
  State.reset.getF F.supCfgWarnPct = 94 ∧ State.reset.getF F.supCfgResetPct = 88 ∧ State.reset.getF F.supCfgStretch = 25 ∧
  State.reset.getF F.hkTimerPeriod = 100 ∧
  (∀ (t : TileN) (c : Fin 4) (n : Fin 32), ((State.reset.tile t).core c).reg n = 0) ∧ (∀ a, State.reset.hbmByte a = 0)

/-- Every step keeps the canonical form of HBM4 and of the registers, and takes one command from the queue. -/
def Obligations.StepsKeepCanonicalForms : Prop :=
  ∀ (s u : State), s.hbmWf → s.regsWf → step s = .next u → u.hbmWf ∧ u.regsWf ∧ u.pending = s.pending.drop 1

/-- R443: no command lowers the anti-rollback count, and none raises it but FUSE_BLOW, by which it becomes the security version of the
firmware that runs, at most 64. -/
def Obligations.FusesOnlyRise : Prop :=
  ∀ (c : Instr) (s u : State), exec c s = .next u →
    s.sec.fuses ≤ u.sec.fuses ∧ (c ≠ .fuseBlow → u.sec.fuses = s.sec.fuses) ∧ (s.sec.fuses ≤ 64 → u.sec.fuses ≤ 64)
end

