-- ==== Sys2Proof/Laws/Sparse.lean ====
section
/-! SUPPORT. The laws of sparse tables: a read after a write of the same key gives what was written, a write leaves every other key
alone, and every operation keeps the canonical form. -/

namespace Sys2Proof.Machine

variable {α : Type}

theorem Sparse.lookup_append (a b : Sparse α) (k : Nat) :
    List.lookup k (a ++ b) = (List.lookup k a).or (List.lookup k b) := by
  induction a with
  | nil => simp
  | cons e es ih =>
    obtain ⟨x, v⟩ := e
    by_cases h : k = x
    · simp [h]
    · have h' : (k == x) = false := by simpa using h
      simp [List.lookup_cons, h', ih]

/-- A filter that accepts every entry of a key does not change its lookup. -/
theorem Sparse.lookup_filter_keep (m : Sparse α) (p : Nat × α → Bool) (k : Nat) (h : ∀ v, p (k, v) = true) :
    List.lookup k (m.filter p) = List.lookup k m := by
  induction m with
  | nil => rfl
  | cons e es ih =>
    obtain ⟨x, v⟩ := e
    by_cases hk : k = x
    · subst hk
      simp [h v]
    · have h' : (k == x) = false := by simpa using hk
      by_cases hp : p (x, v) = true
      · simp [hp, List.lookup_cons, h', ih]
      · simp [hp, List.lookup_cons, h', ih]

/-- A filter that rejects every entry of a key leaves no entry of it. -/
theorem Sparse.lookup_filter_drop (m : Sparse α) (p : Nat × α → Bool) (k : Nat) (h : ∀ v, p (k, v) = false) :
    List.lookup k (m.filter p) = none := by
  induction m with
  | nil => rfl
  | cons e es ih =>
    obtain ⟨x, v⟩ := e
    by_cases hk : k = x
    · subst hk
      simp [h v, ih]
    · have h' : (k == x) = false := by simpa using hk
      by_cases hp : p (x, v) = true
      · simp [hp, List.lookup_cons, h', ih]
      · simp [hp, ih]

@[simp] theorem Sparse.get_nil (d : Nat → α) (k : Nat) : Sparse.get d [] k = d k := rfl

/-- The lookup of a key among the entries that a range write lists. -/
theorem Sparse.lookup_range (base n k : Nat) (f : Nat → α) :
    List.lookup k ((List.range n).map (fun j => (base + j, f j))) =
      if base ≤ k ∧ k < base + n then some (f (k - base)) else none := by
  induction n with
  | zero => simp
  | succ n ih =>
    rw [List.range_succ, List.map_append, Sparse.lookup_append, ih]
    by_cases h : base ≤ k ∧ k < base + n
    · have h2 : base ≤ k ∧ k < base + (n + 1) := by omega
      simp [h, h2]
    · by_cases hk : k = base + n
      · subst hk
        have h2 : base ≤ base + n ∧ base + n < base + (n + 1) := by omega
        simp [h2]
      · have h2 : ¬ (base ≤ k ∧ k < base + (n + 1)) := by omega
        have h' : (k == base + n) = false := by simpa using hk
        simp [h, h2, List.lookup_cons, h']

variable [DecidableEq α]

/-- Dropping entries that read as unlisted does not change what a key with one value reads as. -/
theorem Sparse.getD_filter_ne (d : Nat → α) (m : Sparse α) (k : Nat) (w : α) (h : ∀ v, (k, v) ∈ m → v = w) :
    (List.lookup k (m.filter (fun e => decide (e.2 ≠ d e.1)))).getD (d k) = (List.lookup k m).getD (d k) := by
  induction m with
  | nil => rfl
  | cons e es ih =>
    obtain ⟨x, v⟩ := e
    have ih' := ih (fun v hv => h v (List.mem_cons_of_mem _ hv))
    by_cases hk : k = x
    · subst hk
      have hv : v = w := h v (by simp)
      by_cases hd : v = d k
      · have hnone : ∀ l : Sparse α, (∀ u, (k, u) ∈ l → u = w) →
            List.lookup k (l.filter (fun e => decide (e.2 ≠ d e.1))) = none := by
          intro l hl
          induction l with
          | nil => rfl
          | cons e es ih2 =>
            obtain ⟨y, u⟩ := e
            have ih3 := ih2 (fun u hu => hl u (List.mem_cons_of_mem _ hu))
            rw [List.filter_cons]
            by_cases hy : k = y
            · subst hy
              have hu : u = d k := by rw [hl u (by simp), ← hv, hd]
              rw [if_neg (by simp [hu]), ih3]
            · have h' : (k == y) = false := by simpa using hy
              by_cases hp : u = d y
              · rw [if_neg (by simp [hp]), ih3]
              · rw [if_pos (by simp [hp]), List.lookup_cons, h', ih3]
        rw [hnone _ h]
        simp [hd]
      · rw [List.filter_cons, if_pos (by simp [hd])]
        simp
    · have h' : (k == x) = false := by simpa using hk
      rw [List.lookup_cons, h', List.filter_cons]
      by_cases hp : v = d x
      · rw [if_neg (by simp [hp])]; exact ih'
      · rw [if_pos (by simp [hp]), List.lookup_cons, h']; exact ih'

/-- A read after a range write: what was written inside the range, and what was there outside it. -/
theorem Sparse.get_setRange (d : Nat → α) (m : Sparse α) (base n k : Nat) (f : Nat → α) :
    Sparse.get d (Sparse.setRange d m base n f) k =
      if base ≤ k ∧ k < base + n then f (k - base) else Sparse.get d m k := by
  have hone : ∀ v, (k, v) ∈ (List.range n).map (fun j => (base + j, f j)) → v = f (k - base) := by
    intro v hv
    simp only [List.mem_map, Prod.mk.injEq] at hv
    obtain ⟨j, -, hj, rfl⟩ := hv
    rw [← hj, Nat.add_sub_cancel_left]
  have hmid := Sparse.getD_filter_ne d _ k _ hone
  rw [Sparse.lookup_range] at hmid
  unfold Sparse.get Sparse.setRange
  rw [Sparse.lookup_append, Sparse.lookup_append]
  by_cases h : base ≤ k ∧ k < base + n
  · rw [if_pos h] at hmid ⊢
    have h1 : List.lookup k (m.filter (fun e => decide (e.1 < base))) = none :=
      Sparse.lookup_filter_drop _ _ _ (by intro v; simp; omega)
    have h3 : List.lookup k (m.filter (fun e => decide (base + n ≤ e.1))) = none :=
      Sparse.lookup_filter_drop _ _ _ (by intro v; simp; omega)
    rw [h1, h3, Option.or_none, Option.none_or]
    exact hmid
  · rw [if_neg h]
    have h2 : List.lookup k (((List.range n).map (fun j => (base + j, f j))).filter (fun e => decide (e.2 ≠ d e.1))) = none := by
      rcases hl : List.lookup k (((List.range n).map (fun j => (base + j, f j))).filter (fun e => decide (e.2 ≠ d e.1))) with _ | v
      · rfl
      · exfalso
        obtain ⟨l1, l2, he, -⟩ := List.lookup_eq_some_iff.mp hl
        have hin : (k, v) ∈ ((List.range n).map (fun j => (base + j, f j))).filter (fun e => decide (e.2 ≠ d e.1)) := by
          rw [he]; simp
        have hm := List.mem_of_mem_filter hin
        simp only [List.mem_map, List.mem_range, Prod.mk.injEq] at hm
        obtain ⟨j, hj, hb, -⟩ := hm
        exact h (by omega)
    rw [h2, Option.none_or]
    by_cases hlo : k < base
    · have h1 : List.lookup k (m.filter (fun e => decide (e.1 < base))) = List.lookup k m :=
        Sparse.lookup_filter_keep _ _ _ (by intro v; simp; omega)
      have h3 : List.lookup k (m.filter (fun e => decide (base + n ≤ e.1))) = none :=
        Sparse.lookup_filter_drop _ _ _ (by intro v; simp; omega)
      rw [h1, h3, Option.or_none]
    · have h1 : List.lookup k (m.filter (fun e => decide (e.1 < base))) = none :=
        Sparse.lookup_filter_drop _ _ _ (by intro v; simp; omega)
      have h3 : List.lookup k (m.filter (fun e => decide (base + n ≤ e.1))) = List.lookup k m :=
        Sparse.lookup_filter_keep _ _ _ (by intro v; simp; omega)
      rw [h1, h3, Option.none_or]

@[simp] theorem Sparse.get_set_same (d : Nat → α) (m : Sparse α) (k : Nat) (v : α) :
    Sparse.get d (Sparse.set d m k v) k = v := by
  simp [Sparse.set, Sparse.get_setRange]

theorem Sparse.get_set_other (d : Nat → α) (m : Sparse α) (k j : Nat) (v : α) (h : j ≠ k) :
    Sparse.get d (Sparse.set d m k v) j = Sparse.get d m j := by
  rw [Sparse.set, Sparse.get_setRange, if_neg (by omega)]

/-- A write, read back. -/
theorem Sparse.get_set (d : Nat → α) (m : Sparse α) (k j : Nat) (v : α) :
    Sparse.get d (Sparse.set d m k v) j = if j = k then v else Sparse.get d m j := by
  by_cases h : j = k
  · simp [h]
  · simp [h, Sparse.get_set_other]

/-- The canonical form, as a proposition. -/
theorem Sparse.wf_iff (d : Nat → α) (m : Sparse α) :
    Sparse.wf d m = true ↔ m.Pairwise (fun a b => a.1 < b.1) ∧ ∀ e ∈ m, e.2 ≠ d e.1 := by
  simp [Sparse.wf]

@[simp] theorem Sparse.wf_nil (d : Nat → α) : Sparse.wf d [] = true := by simp [Sparse.wf]

/-- A filter keeps the canonical form. -/
theorem Sparse.wf_filter (d : Nat → α) (m : Sparse α) (p : Nat × α → Bool) (h : Sparse.wf d m = true) :
    Sparse.wf d (m.filter p) = true := by
  rw [Sparse.wf_iff] at *
  exact ⟨h.1.filter _, fun e he => h.2 e (List.mem_of_mem_filter he)⟩

/-- A range write keeps the canonical form. -/
theorem Sparse.wf_setRange (d : Nat → α) (m : Sparse α) (base n : Nat) (f : Nat → α) (h : Sparse.wf d m = true) :
    Sparse.wf d (Sparse.setRange d m base n f) = true := by
  rw [Sparse.wf_iff] at *
  obtain ⟨hp, hd⟩ := h
  have hmid : (((List.range n).map (fun j => (base + j, f j))).filter (fun e => decide (e.2 ≠ d e.1))).Pairwise
      (fun a b => a.1 < b.1) := by
    apply List.Pairwise.filter
    rw [List.pairwise_map]
    exact (List.pairwise_lt_range (n := n)).imp (by intro a b hab; simpa using hab)
  have hmem : ∀ e ∈ ((List.range n).map (fun j => (base + j, f j))).filter (fun e => decide (e.2 ≠ d e.1)),
      base ≤ e.1 ∧ e.1 < base + n ∧ e.2 ≠ d e.1 := by
    intro e he
    simp only [List.mem_filter, List.mem_map, List.mem_range, decide_eq_true_eq] at he
    obtain ⟨⟨j, hj, rfl⟩, hne⟩ := he
    exact ⟨by simp, by simpa using hj, hne⟩
  refine ⟨?_, ?_⟩
  · unfold Sparse.setRange
    refine List.pairwise_append.mpr ⟨hp.filter _, List.pairwise_append.mpr ⟨hmid, hp.filter _, ?_⟩, ?_⟩
    · intro a ha b hb
      have := hmem a ha
      simp only [List.mem_filter, decide_eq_true_eq] at hb
      omega
    · intro a ha b hb
      simp only [List.mem_filter, decide_eq_true_eq] at ha
      rcases List.mem_append.mp hb with hb | hb
      · have := hmem b hb; omega
      · simp only [List.mem_filter, decide_eq_true_eq] at hb; omega
  · intro e he
    unfold Sparse.setRange at he
    rcases List.mem_append.mp he with he | he
    · exact hd e (List.mem_of_mem_filter he)
    · rcases List.mem_append.mp he with he | he
      · exact (hmem e he).2.2
      · exact hd e (List.mem_of_mem_filter he)

theorem Sparse.wf_set (d : Nat → α) (m : Sparse α) (k : Nat) (v : α) (h : Sparse.wf d m = true) :
    Sparse.wf d (Sparse.set d m k v) = true := Sparse.wf_setRange d m k 1 _ h

/-- A change of every listed entry keeps the canonical form. -/
theorem Sparse.wf_mapAll (d : Nat → α) (m : Sparse α) (g : Nat → α → α) (h : Sparse.wf d m = true) :
    Sparse.wf d (Sparse.mapAll d m g) = true := by
  rw [Sparse.wf_iff] at *
  obtain ⟨hp, _⟩ := h
  refine ⟨?_, ?_⟩
  · unfold Sparse.mapAll
    apply List.Pairwise.filter
    rw [List.pairwise_map]
    exact hp
  · intro e he
    unfold Sparse.mapAll at he
    simpa using (List.mem_filter.mp he).2

end Sys2Proof.Machine
end

