-- ==== Sys2Proof/Laws/State.lean ====
section
/-! SUPPORT. What the elementary updates of the state leave alone: one lemma for each field and update. -/

namespace Sys2Proof.Machine

/-! ### setR changes `regs` alone -/

@[simp] theorem State.setR_pending (s : State) (r : Reg) (w : Word) : (s.setR r w).pending = s.pending := rfl
@[simp] theorem State.setR_ctr (s : State) (r : Reg) (w : Word) : (s.setR r w).ctr = s.ctr := rfl
@[simp] theorem State.setR_arrays (s : State) (r : Reg) (w : Word) : (s.setR r w).arrays = s.arrays := rfl
@[simp] theorem State.setR_tiles (s : State) (r : Reg) (w : Word) : (s.setR r w).tiles = s.tiles := rfl
@[simp] theorem State.setR_routers (s : State) (r : Reg) (w : Word) : (s.setR r w).routers = s.routers := rfl
@[simp] theorem State.setR_rime (s : State) (r : Reg) (w : Word) : (s.setR r w).rime = s.rime := rfl
@[simp] theorem State.setR_syncWaits (s : State) (r : Reg) (w : Word) : (s.setR r w).syncWaits = s.syncWaits := rfl
@[simp] theorem State.setR_ports (s : State) (r : Reg) (w : Word) : (s.setR r w).ports = s.ports := rfl
@[simp] theorem State.setR_cad (s : State) (r : Reg) (w : Word) : (s.setR r w).cad = s.cad := rfl
@[simp] theorem State.setR_parts (s : State) (r : Reg) (w : Word) : (s.setR r w).parts = s.parts := rfl
@[simp] theorem State.setR_bridge (s : State) (r : Reg) (w : Word) : (s.setR r w).bridge = s.bridge := rfl
@[simp] theorem State.setR_log (s : State) (r : Reg) (w : Word) : (s.setR r w).log = s.log := rfl
@[simp] theorem State.setR_pwr (s : State) (r : Reg) (w : Word) : (s.setR r w).pwr = s.pwr := rfl
@[simp] theorem State.setR_thm (s : State) (r : Reg) (w : Word) : (s.setR r w).thm = s.thm := rfl
@[simp] theorem State.setR_hk (s : State) (r : Reg) (w : Word) : (s.setR r w).hk = s.hk := rfl
@[simp] theorem State.setR_firn (s : State) (r : Reg) (w : Word) : (s.setR r w).firn = s.firn := rfl
@[simp] theorem State.setR_sec (s : State) (r : Reg) (w : Word) : (s.setR r w).sec = s.sec := rfl
@[simp] theorem State.setR_hbm (s : State) (r : Reg) (w : Word) : (s.setR r w).hbm = s.hbm := rfl
@[simp] theorem State.setR_hbmBad (s : State) (r : Reg) (w : Word) : (s.setR r w).hbmBad = s.hbmBad := rfl
@[simp] theorem State.setR_seamBytes (s : State) (r : Reg) (w : Word) : (s.setR r w).seamBytes = s.seamBytes := rfl
@[simp] theorem State.setR_free (s : State) (r : Reg) (w : Word) : (s.setR r w).free = s.free := rfl
@[simp] theorem State.setR_replies (s : State) (r : Reg) (w : Word) : (s.setR r w).replies = s.replies := rfl
@[simp] theorem State.setR_linkOut (s : State) (r : Reg) (w : Word) : (s.setR r w).linkOut = s.linkOut := rfl
@[simp] theorem State.setR_linkIn (s : State) (r : Reg) (w : Word) : (s.setR r w).linkIn = s.linkIn := rfl
@[simp] theorem State.setR_rimeOut (s : State) (r : Reg) (w : Word) : (s.setR r w).rimeOut = s.rimeOut := rfl
@[simp] theorem State.setR_hostOut (s : State) (r : Reg) (w : Word) : (s.setR r w).hostOut = s.hostOut := rfl
@[simp] theorem State.setR_msix (s : State) (r : Reg) (w : Word) : (s.setR r w).msix = s.msix := rfl
@[simp] theorem State.setR_smbOut (s : State) (r : Reg) (w : Word) : (s.setR r w).smbOut = s.smbOut := rfl

/-! ### setArr changes `arrays` alone -/

@[simp] theorem State.setArr_pending (s : State) (t a : Nat) (x : ArrSt) : (s.setArr t a x).pending = s.pending := rfl
@[simp] theorem State.setArr_regs (s : State) (t a : Nat) (x : ArrSt) : (s.setArr t a x).regs = s.regs := rfl
@[simp] theorem State.setArr_ctr (s : State) (t a : Nat) (x : ArrSt) : (s.setArr t a x).ctr = s.ctr := rfl
@[simp] theorem State.setArr_tiles (s : State) (t a : Nat) (x : ArrSt) : (s.setArr t a x).tiles = s.tiles := rfl
@[simp] theorem State.setArr_routers (s : State) (t a : Nat) (x : ArrSt) : (s.setArr t a x).routers = s.routers := rfl
@[simp] theorem State.setArr_rime (s : State) (t a : Nat) (x : ArrSt) : (s.setArr t a x).rime = s.rime := rfl
@[simp] theorem State.setArr_syncWaits (s : State) (t a : Nat) (x : ArrSt) : (s.setArr t a x).syncWaits = s.syncWaits := rfl
@[simp] theorem State.setArr_ports (s : State) (t a : Nat) (x : ArrSt) : (s.setArr t a x).ports = s.ports := rfl
@[simp] theorem State.setArr_cad (s : State) (t a : Nat) (x : ArrSt) : (s.setArr t a x).cad = s.cad := rfl
@[simp] theorem State.setArr_parts (s : State) (t a : Nat) (x : ArrSt) : (s.setArr t a x).parts = s.parts := rfl
@[simp] theorem State.setArr_bridge (s : State) (t a : Nat) (x : ArrSt) : (s.setArr t a x).bridge = s.bridge := rfl
@[simp] theorem State.setArr_log (s : State) (t a : Nat) (x : ArrSt) : (s.setArr t a x).log = s.log := rfl
@[simp] theorem State.setArr_pwr (s : State) (t a : Nat) (x : ArrSt) : (s.setArr t a x).pwr = s.pwr := rfl
@[simp] theorem State.setArr_thm (s : State) (t a : Nat) (x : ArrSt) : (s.setArr t a x).thm = s.thm := rfl
@[simp] theorem State.setArr_hk (s : State) (t a : Nat) (x : ArrSt) : (s.setArr t a x).hk = s.hk := rfl
@[simp] theorem State.setArr_firn (s : State) (t a : Nat) (x : ArrSt) : (s.setArr t a x).firn = s.firn := rfl
@[simp] theorem State.setArr_sec (s : State) (t a : Nat) (x : ArrSt) : (s.setArr t a x).sec = s.sec := rfl
@[simp] theorem State.setArr_hbm (s : State) (t a : Nat) (x : ArrSt) : (s.setArr t a x).hbm = s.hbm := rfl
@[simp] theorem State.setArr_hbmBad (s : State) (t a : Nat) (x : ArrSt) : (s.setArr t a x).hbmBad = s.hbmBad := rfl
@[simp] theorem State.setArr_seamBytes (s : State) (t a : Nat) (x : ArrSt) : (s.setArr t a x).seamBytes = s.seamBytes := rfl
@[simp] theorem State.setArr_free (s : State) (t a : Nat) (x : ArrSt) : (s.setArr t a x).free = s.free := rfl
@[simp] theorem State.setArr_replies (s : State) (t a : Nat) (x : ArrSt) : (s.setArr t a x).replies = s.replies := rfl
@[simp] theorem State.setArr_linkOut (s : State) (t a : Nat) (x : ArrSt) : (s.setArr t a x).linkOut = s.linkOut := rfl
@[simp] theorem State.setArr_linkIn (s : State) (t a : Nat) (x : ArrSt) : (s.setArr t a x).linkIn = s.linkIn := rfl
@[simp] theorem State.setArr_rimeOut (s : State) (t a : Nat) (x : ArrSt) : (s.setArr t a x).rimeOut = s.rimeOut := rfl
@[simp] theorem State.setArr_hostOut (s : State) (t a : Nat) (x : ArrSt) : (s.setArr t a x).hostOut = s.hostOut := rfl
@[simp] theorem State.setArr_msix (s : State) (t a : Nat) (x : ArrSt) : (s.setArr t a x).msix = s.msix := rfl
@[simp] theorem State.setArr_smbOut (s : State) (t a : Nat) (x : ArrSt) : (s.setArr t a x).smbOut = s.smbOut := rfl

/-! ### setTile changes `tiles` alone -/

@[simp] theorem State.setTile_pending (s : State) (t : Nat) (x : TileSt) : (s.setTile t x).pending = s.pending := rfl
@[simp] theorem State.setTile_regs (s : State) (t : Nat) (x : TileSt) : (s.setTile t x).regs = s.regs := rfl
@[simp] theorem State.setTile_ctr (s : State) (t : Nat) (x : TileSt) : (s.setTile t x).ctr = s.ctr := rfl
@[simp] theorem State.setTile_arrays (s : State) (t : Nat) (x : TileSt) : (s.setTile t x).arrays = s.arrays := rfl
@[simp] theorem State.setTile_routers (s : State) (t : Nat) (x : TileSt) : (s.setTile t x).routers = s.routers := rfl
@[simp] theorem State.setTile_rime (s : State) (t : Nat) (x : TileSt) : (s.setTile t x).rime = s.rime := rfl
@[simp] theorem State.setTile_syncWaits (s : State) (t : Nat) (x : TileSt) : (s.setTile t x).syncWaits = s.syncWaits := rfl
@[simp] theorem State.setTile_ports (s : State) (t : Nat) (x : TileSt) : (s.setTile t x).ports = s.ports := rfl
@[simp] theorem State.setTile_cad (s : State) (t : Nat) (x : TileSt) : (s.setTile t x).cad = s.cad := rfl
@[simp] theorem State.setTile_parts (s : State) (t : Nat) (x : TileSt) : (s.setTile t x).parts = s.parts := rfl
@[simp] theorem State.setTile_bridge (s : State) (t : Nat) (x : TileSt) : (s.setTile t x).bridge = s.bridge := rfl
@[simp] theorem State.setTile_log (s : State) (t : Nat) (x : TileSt) : (s.setTile t x).log = s.log := rfl
@[simp] theorem State.setTile_pwr (s : State) (t : Nat) (x : TileSt) : (s.setTile t x).pwr = s.pwr := rfl
@[simp] theorem State.setTile_thm (s : State) (t : Nat) (x : TileSt) : (s.setTile t x).thm = s.thm := rfl
@[simp] theorem State.setTile_hk (s : State) (t : Nat) (x : TileSt) : (s.setTile t x).hk = s.hk := rfl
@[simp] theorem State.setTile_firn (s : State) (t : Nat) (x : TileSt) : (s.setTile t x).firn = s.firn := rfl
@[simp] theorem State.setTile_sec (s : State) (t : Nat) (x : TileSt) : (s.setTile t x).sec = s.sec := rfl
@[simp] theorem State.setTile_hbm (s : State) (t : Nat) (x : TileSt) : (s.setTile t x).hbm = s.hbm := rfl
@[simp] theorem State.setTile_hbmBad (s : State) (t : Nat) (x : TileSt) : (s.setTile t x).hbmBad = s.hbmBad := rfl
@[simp] theorem State.setTile_seamBytes (s : State) (t : Nat) (x : TileSt) : (s.setTile t x).seamBytes = s.seamBytes := rfl
@[simp] theorem State.setTile_free (s : State) (t : Nat) (x : TileSt) : (s.setTile t x).free = s.free := rfl
@[simp] theorem State.setTile_replies (s : State) (t : Nat) (x : TileSt) : (s.setTile t x).replies = s.replies := rfl
@[simp] theorem State.setTile_linkOut (s : State) (t : Nat) (x : TileSt) : (s.setTile t x).linkOut = s.linkOut := rfl
@[simp] theorem State.setTile_linkIn (s : State) (t : Nat) (x : TileSt) : (s.setTile t x).linkIn = s.linkIn := rfl
@[simp] theorem State.setTile_rimeOut (s : State) (t : Nat) (x : TileSt) : (s.setTile t x).rimeOut = s.rimeOut := rfl
@[simp] theorem State.setTile_hostOut (s : State) (t : Nat) (x : TileSt) : (s.setTile t x).hostOut = s.hostOut := rfl
@[simp] theorem State.setTile_msix (s : State) (t : Nat) (x : TileSt) : (s.setTile t x).msix = s.msix := rfl
@[simp] theorem State.setTile_smbOut (s : State) (t : Nat) (x : TileSt) : (s.setTile t x).smbOut = s.smbOut := rfl

/-! ### setRouter changes `routers` alone -/

@[simp] theorem State.setRouter_pending (s : State) (t : Nat) (x : RouterSt) : (s.setRouter t x).pending = s.pending := rfl
@[simp] theorem State.setRouter_regs (s : State) (t : Nat) (x : RouterSt) : (s.setRouter t x).regs = s.regs := rfl
@[simp] theorem State.setRouter_ctr (s : State) (t : Nat) (x : RouterSt) : (s.setRouter t x).ctr = s.ctr := rfl
@[simp] theorem State.setRouter_arrays (s : State) (t : Nat) (x : RouterSt) : (s.setRouter t x).arrays = s.arrays := rfl
@[simp] theorem State.setRouter_tiles (s : State) (t : Nat) (x : RouterSt) : (s.setRouter t x).tiles = s.tiles := rfl
@[simp] theorem State.setRouter_rime (s : State) (t : Nat) (x : RouterSt) : (s.setRouter t x).rime = s.rime := rfl
@[simp] theorem State.setRouter_syncWaits (s : State) (t : Nat) (x : RouterSt) : (s.setRouter t x).syncWaits = s.syncWaits := rfl
@[simp] theorem State.setRouter_ports (s : State) (t : Nat) (x : RouterSt) : (s.setRouter t x).ports = s.ports := rfl
@[simp] theorem State.setRouter_cad (s : State) (t : Nat) (x : RouterSt) : (s.setRouter t x).cad = s.cad := rfl
@[simp] theorem State.setRouter_parts (s : State) (t : Nat) (x : RouterSt) : (s.setRouter t x).parts = s.parts := rfl
@[simp] theorem State.setRouter_bridge (s : State) (t : Nat) (x : RouterSt) : (s.setRouter t x).bridge = s.bridge := rfl
@[simp] theorem State.setRouter_log (s : State) (t : Nat) (x : RouterSt) : (s.setRouter t x).log = s.log := rfl
@[simp] theorem State.setRouter_pwr (s : State) (t : Nat) (x : RouterSt) : (s.setRouter t x).pwr = s.pwr := rfl
@[simp] theorem State.setRouter_thm (s : State) (t : Nat) (x : RouterSt) : (s.setRouter t x).thm = s.thm := rfl
@[simp] theorem State.setRouter_hk (s : State) (t : Nat) (x : RouterSt) : (s.setRouter t x).hk = s.hk := rfl
@[simp] theorem State.setRouter_firn (s : State) (t : Nat) (x : RouterSt) : (s.setRouter t x).firn = s.firn := rfl
@[simp] theorem State.setRouter_sec (s : State) (t : Nat) (x : RouterSt) : (s.setRouter t x).sec = s.sec := rfl
@[simp] theorem State.setRouter_hbm (s : State) (t : Nat) (x : RouterSt) : (s.setRouter t x).hbm = s.hbm := rfl
@[simp] theorem State.setRouter_hbmBad (s : State) (t : Nat) (x : RouterSt) : (s.setRouter t x).hbmBad = s.hbmBad := rfl
@[simp] theorem State.setRouter_seamBytes (s : State) (t : Nat) (x : RouterSt) : (s.setRouter t x).seamBytes = s.seamBytes := rfl
@[simp] theorem State.setRouter_free (s : State) (t : Nat) (x : RouterSt) : (s.setRouter t x).free = s.free := rfl
@[simp] theorem State.setRouter_replies (s : State) (t : Nat) (x : RouterSt) : (s.setRouter t x).replies = s.replies := rfl
@[simp] theorem State.setRouter_linkOut (s : State) (t : Nat) (x : RouterSt) : (s.setRouter t x).linkOut = s.linkOut := rfl
@[simp] theorem State.setRouter_linkIn (s : State) (t : Nat) (x : RouterSt) : (s.setRouter t x).linkIn = s.linkIn := rfl
@[simp] theorem State.setRouter_rimeOut (s : State) (t : Nat) (x : RouterSt) : (s.setRouter t x).rimeOut = s.rimeOut := rfl
@[simp] theorem State.setRouter_hostOut (s : State) (t : Nat) (x : RouterSt) : (s.setRouter t x).hostOut = s.hostOut := rfl
@[simp] theorem State.setRouter_msix (s : State) (t : Nat) (x : RouterSt) : (s.setRouter t x).msix = s.msix := rfl
@[simp] theorem State.setRouter_smbOut (s : State) (t : Nat) (x : RouterSt) : (s.setRouter t x).smbOut = s.smbOut := rfl

/-! ### setPort changes `ports` alone -/

@[simp] theorem State.setPort_pending (s : State) (p : Nat) (x : PortSt) : (s.setPort p x).pending = s.pending := rfl
@[simp] theorem State.setPort_regs (s : State) (p : Nat) (x : PortSt) : (s.setPort p x).regs = s.regs := rfl
@[simp] theorem State.setPort_ctr (s : State) (p : Nat) (x : PortSt) : (s.setPort p x).ctr = s.ctr := rfl
@[simp] theorem State.setPort_arrays (s : State) (p : Nat) (x : PortSt) : (s.setPort p x).arrays = s.arrays := rfl
@[simp] theorem State.setPort_tiles (s : State) (p : Nat) (x : PortSt) : (s.setPort p x).tiles = s.tiles := rfl
@[simp] theorem State.setPort_routers (s : State) (p : Nat) (x : PortSt) : (s.setPort p x).routers = s.routers := rfl
@[simp] theorem State.setPort_rime (s : State) (p : Nat) (x : PortSt) : (s.setPort p x).rime = s.rime := rfl
@[simp] theorem State.setPort_syncWaits (s : State) (p : Nat) (x : PortSt) : (s.setPort p x).syncWaits = s.syncWaits := rfl
@[simp] theorem State.setPort_cad (s : State) (p : Nat) (x : PortSt) : (s.setPort p x).cad = s.cad := rfl
@[simp] theorem State.setPort_parts (s : State) (p : Nat) (x : PortSt) : (s.setPort p x).parts = s.parts := rfl
@[simp] theorem State.setPort_bridge (s : State) (p : Nat) (x : PortSt) : (s.setPort p x).bridge = s.bridge := rfl
@[simp] theorem State.setPort_log (s : State) (p : Nat) (x : PortSt) : (s.setPort p x).log = s.log := rfl
@[simp] theorem State.setPort_pwr (s : State) (p : Nat) (x : PortSt) : (s.setPort p x).pwr = s.pwr := rfl
@[simp] theorem State.setPort_thm (s : State) (p : Nat) (x : PortSt) : (s.setPort p x).thm = s.thm := rfl
@[simp] theorem State.setPort_hk (s : State) (p : Nat) (x : PortSt) : (s.setPort p x).hk = s.hk := rfl
@[simp] theorem State.setPort_firn (s : State) (p : Nat) (x : PortSt) : (s.setPort p x).firn = s.firn := rfl
@[simp] theorem State.setPort_sec (s : State) (p : Nat) (x : PortSt) : (s.setPort p x).sec = s.sec := rfl
@[simp] theorem State.setPort_hbm (s : State) (p : Nat) (x : PortSt) : (s.setPort p x).hbm = s.hbm := rfl
@[simp] theorem State.setPort_hbmBad (s : State) (p : Nat) (x : PortSt) : (s.setPort p x).hbmBad = s.hbmBad := rfl
@[simp] theorem State.setPort_seamBytes (s : State) (p : Nat) (x : PortSt) : (s.setPort p x).seamBytes = s.seamBytes := rfl
@[simp] theorem State.setPort_free (s : State) (p : Nat) (x : PortSt) : (s.setPort p x).free = s.free := rfl
@[simp] theorem State.setPort_replies (s : State) (p : Nat) (x : PortSt) : (s.setPort p x).replies = s.replies := rfl
@[simp] theorem State.setPort_linkOut (s : State) (p : Nat) (x : PortSt) : (s.setPort p x).linkOut = s.linkOut := rfl
@[simp] theorem State.setPort_linkIn (s : State) (p : Nat) (x : PortSt) : (s.setPort p x).linkIn = s.linkIn := rfl
@[simp] theorem State.setPort_rimeOut (s : State) (p : Nat) (x : PortSt) : (s.setPort p x).rimeOut = s.rimeOut := rfl
@[simp] theorem State.setPort_hostOut (s : State) (p : Nat) (x : PortSt) : (s.setPort p x).hostOut = s.hostOut := rfl
@[simp] theorem State.setPort_msix (s : State) (p : Nat) (x : PortSt) : (s.setPort p x).msix = s.msix := rfl
@[simp] theorem State.setPort_smbOut (s : State) (p : Nat) (x : PortSt) : (s.setPort p x).smbOut = s.smbOut := rfl

/-! ### setPrt changes `parts` alone -/

@[simp] theorem State.setPrt_pending (s : State) (n : Nat) (x : PartSt) : (s.setPrt n x).pending = s.pending := rfl
@[simp] theorem State.setPrt_regs (s : State) (n : Nat) (x : PartSt) : (s.setPrt n x).regs = s.regs := rfl
@[simp] theorem State.setPrt_ctr (s : State) (n : Nat) (x : PartSt) : (s.setPrt n x).ctr = s.ctr := rfl
@[simp] theorem State.setPrt_arrays (s : State) (n : Nat) (x : PartSt) : (s.setPrt n x).arrays = s.arrays := rfl
@[simp] theorem State.setPrt_tiles (s : State) (n : Nat) (x : PartSt) : (s.setPrt n x).tiles = s.tiles := rfl
@[simp] theorem State.setPrt_routers (s : State) (n : Nat) (x : PartSt) : (s.setPrt n x).routers = s.routers := rfl
@[simp] theorem State.setPrt_rime (s : State) (n : Nat) (x : PartSt) : (s.setPrt n x).rime = s.rime := rfl
@[simp] theorem State.setPrt_syncWaits (s : State) (n : Nat) (x : PartSt) : (s.setPrt n x).syncWaits = s.syncWaits := rfl
@[simp] theorem State.setPrt_ports (s : State) (n : Nat) (x : PartSt) : (s.setPrt n x).ports = s.ports := rfl
@[simp] theorem State.setPrt_cad (s : State) (n : Nat) (x : PartSt) : (s.setPrt n x).cad = s.cad := rfl
@[simp] theorem State.setPrt_bridge (s : State) (n : Nat) (x : PartSt) : (s.setPrt n x).bridge = s.bridge := rfl
@[simp] theorem State.setPrt_log (s : State) (n : Nat) (x : PartSt) : (s.setPrt n x).log = s.log := rfl
@[simp] theorem State.setPrt_pwr (s : State) (n : Nat) (x : PartSt) : (s.setPrt n x).pwr = s.pwr := rfl
@[simp] theorem State.setPrt_thm (s : State) (n : Nat) (x : PartSt) : (s.setPrt n x).thm = s.thm := rfl
@[simp] theorem State.setPrt_hk (s : State) (n : Nat) (x : PartSt) : (s.setPrt n x).hk = s.hk := rfl
@[simp] theorem State.setPrt_firn (s : State) (n : Nat) (x : PartSt) : (s.setPrt n x).firn = s.firn := rfl
@[simp] theorem State.setPrt_sec (s : State) (n : Nat) (x : PartSt) : (s.setPrt n x).sec = s.sec := rfl
@[simp] theorem State.setPrt_hbm (s : State) (n : Nat) (x : PartSt) : (s.setPrt n x).hbm = s.hbm := rfl
@[simp] theorem State.setPrt_hbmBad (s : State) (n : Nat) (x : PartSt) : (s.setPrt n x).hbmBad = s.hbmBad := rfl
@[simp] theorem State.setPrt_seamBytes (s : State) (n : Nat) (x : PartSt) : (s.setPrt n x).seamBytes = s.seamBytes := rfl
@[simp] theorem State.setPrt_free (s : State) (n : Nat) (x : PartSt) : (s.setPrt n x).free = s.free := rfl
@[simp] theorem State.setPrt_replies (s : State) (n : Nat) (x : PartSt) : (s.setPrt n x).replies = s.replies := rfl
@[simp] theorem State.setPrt_linkOut (s : State) (n : Nat) (x : PartSt) : (s.setPrt n x).linkOut = s.linkOut := rfl
@[simp] theorem State.setPrt_linkIn (s : State) (n : Nat) (x : PartSt) : (s.setPrt n x).linkIn = s.linkIn := rfl
@[simp] theorem State.setPrt_rimeOut (s : State) (n : Nat) (x : PartSt) : (s.setPrt n x).rimeOut = s.rimeOut := rfl
@[simp] theorem State.setPrt_hostOut (s : State) (n : Nat) (x : PartSt) : (s.setPrt n x).hostOut = s.hostOut := rfl
@[simp] theorem State.setPrt_msix (s : State) (n : Nat) (x : PartSt) : (s.setPrt n x).msix = s.msix := rfl
@[simp] theorem State.setPrt_smbOut (s : State) (n : Nat) (x : PartSt) : (s.setPrt n x).smbOut = s.smbOut := rfl

/-! ### setF changes `regs` alone -/

@[simp] theorem State.setF_pending (s : State) (f : FieldRef) (v : Nat) : (s.setF f v).pending = s.pending := rfl
@[simp] theorem State.setF_ctr (s : State) (f : FieldRef) (v : Nat) : (s.setF f v).ctr = s.ctr := rfl
@[simp] theorem State.setF_arrays (s : State) (f : FieldRef) (v : Nat) : (s.setF f v).arrays = s.arrays := rfl
@[simp] theorem State.setF_tiles (s : State) (f : FieldRef) (v : Nat) : (s.setF f v).tiles = s.tiles := rfl
@[simp] theorem State.setF_routers (s : State) (f : FieldRef) (v : Nat) : (s.setF f v).routers = s.routers := rfl
@[simp] theorem State.setF_rime (s : State) (f : FieldRef) (v : Nat) : (s.setF f v).rime = s.rime := rfl
@[simp] theorem State.setF_syncWaits (s : State) (f : FieldRef) (v : Nat) : (s.setF f v).syncWaits = s.syncWaits := rfl
@[simp] theorem State.setF_ports (s : State) (f : FieldRef) (v : Nat) : (s.setF f v).ports = s.ports := rfl
@[simp] theorem State.setF_cad (s : State) (f : FieldRef) (v : Nat) : (s.setF f v).cad = s.cad := rfl
@[simp] theorem State.setF_parts (s : State) (f : FieldRef) (v : Nat) : (s.setF f v).parts = s.parts := rfl
@[simp] theorem State.setF_bridge (s : State) (f : FieldRef) (v : Nat) : (s.setF f v).bridge = s.bridge := rfl
@[simp] theorem State.setF_log (s : State) (f : FieldRef) (v : Nat) : (s.setF f v).log = s.log := rfl
@[simp] theorem State.setF_pwr (s : State) (f : FieldRef) (v : Nat) : (s.setF f v).pwr = s.pwr := rfl
@[simp] theorem State.setF_thm (s : State) (f : FieldRef) (v : Nat) : (s.setF f v).thm = s.thm := rfl
@[simp] theorem State.setF_hk (s : State) (f : FieldRef) (v : Nat) : (s.setF f v).hk = s.hk := rfl
@[simp] theorem State.setF_firn (s : State) (f : FieldRef) (v : Nat) : (s.setF f v).firn = s.firn := rfl
@[simp] theorem State.setF_sec (s : State) (f : FieldRef) (v : Nat) : (s.setF f v).sec = s.sec := rfl
@[simp] theorem State.setF_hbm (s : State) (f : FieldRef) (v : Nat) : (s.setF f v).hbm = s.hbm := rfl
@[simp] theorem State.setF_hbmBad (s : State) (f : FieldRef) (v : Nat) : (s.setF f v).hbmBad = s.hbmBad := rfl
@[simp] theorem State.setF_seamBytes (s : State) (f : FieldRef) (v : Nat) : (s.setF f v).seamBytes = s.seamBytes := rfl
@[simp] theorem State.setF_free (s : State) (f : FieldRef) (v : Nat) : (s.setF f v).free = s.free := rfl
@[simp] theorem State.setF_replies (s : State) (f : FieldRef) (v : Nat) : (s.setF f v).replies = s.replies := rfl
@[simp] theorem State.setF_linkOut (s : State) (f : FieldRef) (v : Nat) : (s.setF f v).linkOut = s.linkOut := rfl
@[simp] theorem State.setF_linkIn (s : State) (f : FieldRef) (v : Nat) : (s.setF f v).linkIn = s.linkIn := rfl
@[simp] theorem State.setF_rimeOut (s : State) (f : FieldRef) (v : Nat) : (s.setF f v).rimeOut = s.rimeOut := rfl
@[simp] theorem State.setF_hostOut (s : State) (f : FieldRef) (v : Nat) : (s.setF f v).hostOut = s.hostOut := rfl
@[simp] theorem State.setF_msix (s : State) (f : FieldRef) (v : Nat) : (s.setF f v).msix = s.msix := rfl
@[simp] theorem State.setF_smbOut (s : State) (f : FieldRef) (v : Nat) : (s.setF f v).smbOut = s.smbOut := rfl

/-! ### setFlag changes `regs` alone -/

@[simp] theorem State.setFlag_pending (s : State) (f : FieldRef) (b : Bool) : (s.setFlag f b).pending = s.pending := rfl
@[simp] theorem State.setFlag_ctr (s : State) (f : FieldRef) (b : Bool) : (s.setFlag f b).ctr = s.ctr := rfl
@[simp] theorem State.setFlag_arrays (s : State) (f : FieldRef) (b : Bool) : (s.setFlag f b).arrays = s.arrays := rfl
@[simp] theorem State.setFlag_tiles (s : State) (f : FieldRef) (b : Bool) : (s.setFlag f b).tiles = s.tiles := rfl
@[simp] theorem State.setFlag_routers (s : State) (f : FieldRef) (b : Bool) : (s.setFlag f b).routers = s.routers := rfl
@[simp] theorem State.setFlag_rime (s : State) (f : FieldRef) (b : Bool) : (s.setFlag f b).rime = s.rime := rfl
@[simp] theorem State.setFlag_syncWaits (s : State) (f : FieldRef) (b : Bool) : (s.setFlag f b).syncWaits = s.syncWaits := rfl
@[simp] theorem State.setFlag_ports (s : State) (f : FieldRef) (b : Bool) : (s.setFlag f b).ports = s.ports := rfl
@[simp] theorem State.setFlag_cad (s : State) (f : FieldRef) (b : Bool) : (s.setFlag f b).cad = s.cad := rfl
@[simp] theorem State.setFlag_parts (s : State) (f : FieldRef) (b : Bool) : (s.setFlag f b).parts = s.parts := rfl
@[simp] theorem State.setFlag_bridge (s : State) (f : FieldRef) (b : Bool) : (s.setFlag f b).bridge = s.bridge := rfl
@[simp] theorem State.setFlag_log (s : State) (f : FieldRef) (b : Bool) : (s.setFlag f b).log = s.log := rfl
@[simp] theorem State.setFlag_pwr (s : State) (f : FieldRef) (b : Bool) : (s.setFlag f b).pwr = s.pwr := rfl
@[simp] theorem State.setFlag_thm (s : State) (f : FieldRef) (b : Bool) : (s.setFlag f b).thm = s.thm := rfl
@[simp] theorem State.setFlag_hk (s : State) (f : FieldRef) (b : Bool) : (s.setFlag f b).hk = s.hk := rfl
@[simp] theorem State.setFlag_firn (s : State) (f : FieldRef) (b : Bool) : (s.setFlag f b).firn = s.firn := rfl
@[simp] theorem State.setFlag_sec (s : State) (f : FieldRef) (b : Bool) : (s.setFlag f b).sec = s.sec := rfl
@[simp] theorem State.setFlag_hbm (s : State) (f : FieldRef) (b : Bool) : (s.setFlag f b).hbm = s.hbm := rfl
@[simp] theorem State.setFlag_hbmBad (s : State) (f : FieldRef) (b : Bool) : (s.setFlag f b).hbmBad = s.hbmBad := rfl
@[simp] theorem State.setFlag_seamBytes (s : State) (f : FieldRef) (b : Bool) : (s.setFlag f b).seamBytes = s.seamBytes := rfl
@[simp] theorem State.setFlag_free (s : State) (f : FieldRef) (b : Bool) : (s.setFlag f b).free = s.free := rfl
@[simp] theorem State.setFlag_replies (s : State) (f : FieldRef) (b : Bool) : (s.setFlag f b).replies = s.replies := rfl
@[simp] theorem State.setFlag_linkOut (s : State) (f : FieldRef) (b : Bool) : (s.setFlag f b).linkOut = s.linkOut := rfl
@[simp] theorem State.setFlag_linkIn (s : State) (f : FieldRef) (b : Bool) : (s.setFlag f b).linkIn = s.linkIn := rfl
@[simp] theorem State.setFlag_rimeOut (s : State) (f : FieldRef) (b : Bool) : (s.setFlag f b).rimeOut = s.rimeOut := rfl
@[simp] theorem State.setFlag_hostOut (s : State) (f : FieldRef) (b : Bool) : (s.setFlag f b).hostOut = s.hostOut := rfl
@[simp] theorem State.setFlag_msix (s : State) (f : FieldRef) (b : Bool) : (s.setFlag f b).msix = s.msix := rfl
@[simp] theorem State.setFlag_smbOut (s : State) (f : FieldRef) (b : Bool) : (s.setFlag f b).smbOut = s.smbOut := rfl

/-! ### addF changes `regs` alone -/

@[simp] theorem State.addF_pending (s : State) (f : FieldRef) (n : Nat) : (s.addF f n).pending = s.pending := rfl
@[simp] theorem State.addF_ctr (s : State) (f : FieldRef) (n : Nat) : (s.addF f n).ctr = s.ctr := rfl
@[simp] theorem State.addF_arrays (s : State) (f : FieldRef) (n : Nat) : (s.addF f n).arrays = s.arrays := rfl
@[simp] theorem State.addF_tiles (s : State) (f : FieldRef) (n : Nat) : (s.addF f n).tiles = s.tiles := rfl
@[simp] theorem State.addF_routers (s : State) (f : FieldRef) (n : Nat) : (s.addF f n).routers = s.routers := rfl
@[simp] theorem State.addF_rime (s : State) (f : FieldRef) (n : Nat) : (s.addF f n).rime = s.rime := rfl
@[simp] theorem State.addF_syncWaits (s : State) (f : FieldRef) (n : Nat) : (s.addF f n).syncWaits = s.syncWaits := rfl
@[simp] theorem State.addF_ports (s : State) (f : FieldRef) (n : Nat) : (s.addF f n).ports = s.ports := rfl
@[simp] theorem State.addF_cad (s : State) (f : FieldRef) (n : Nat) : (s.addF f n).cad = s.cad := rfl
@[simp] theorem State.addF_parts (s : State) (f : FieldRef) (n : Nat) : (s.addF f n).parts = s.parts := rfl
@[simp] theorem State.addF_bridge (s : State) (f : FieldRef) (n : Nat) : (s.addF f n).bridge = s.bridge := rfl
@[simp] theorem State.addF_log (s : State) (f : FieldRef) (n : Nat) : (s.addF f n).log = s.log := rfl
@[simp] theorem State.addF_pwr (s : State) (f : FieldRef) (n : Nat) : (s.addF f n).pwr = s.pwr := rfl
@[simp] theorem State.addF_thm (s : State) (f : FieldRef) (n : Nat) : (s.addF f n).thm = s.thm := rfl
@[simp] theorem State.addF_hk (s : State) (f : FieldRef) (n : Nat) : (s.addF f n).hk = s.hk := rfl
@[simp] theorem State.addF_firn (s : State) (f : FieldRef) (n : Nat) : (s.addF f n).firn = s.firn := rfl
@[simp] theorem State.addF_sec (s : State) (f : FieldRef) (n : Nat) : (s.addF f n).sec = s.sec := rfl
@[simp] theorem State.addF_hbm (s : State) (f : FieldRef) (n : Nat) : (s.addF f n).hbm = s.hbm := rfl
@[simp] theorem State.addF_hbmBad (s : State) (f : FieldRef) (n : Nat) : (s.addF f n).hbmBad = s.hbmBad := rfl
@[simp] theorem State.addF_seamBytes (s : State) (f : FieldRef) (n : Nat) : (s.addF f n).seamBytes = s.seamBytes := rfl
@[simp] theorem State.addF_free (s : State) (f : FieldRef) (n : Nat) : (s.addF f n).free = s.free := rfl
@[simp] theorem State.addF_replies (s : State) (f : FieldRef) (n : Nat) : (s.addF f n).replies = s.replies := rfl
@[simp] theorem State.addF_linkOut (s : State) (f : FieldRef) (n : Nat) : (s.addF f n).linkOut = s.linkOut := rfl
@[simp] theorem State.addF_linkIn (s : State) (f : FieldRef) (n : Nat) : (s.addF f n).linkIn = s.linkIn := rfl
@[simp] theorem State.addF_rimeOut (s : State) (f : FieldRef) (n : Nat) : (s.addF f n).rimeOut = s.rimeOut := rfl
@[simp] theorem State.addF_hostOut (s : State) (f : FieldRef) (n : Nat) : (s.addF f n).hostOut = s.hostOut := rfl
@[simp] theorem State.addF_msix (s : State) (f : FieldRef) (n : Nat) : (s.addF f n).msix = s.msix := rfl
@[simp] theorem State.addF_smbOut (s : State) (f : FieldRef) (n : Nat) : (s.addF f n).smbOut = s.smbOut := rfl

/-! ### satF changes `regs` alone -/

@[simp] theorem State.satF_pending (s : State) (f : FieldRef) (n : Nat) : (s.satF f n).pending = s.pending := rfl
@[simp] theorem State.satF_ctr (s : State) (f : FieldRef) (n : Nat) : (s.satF f n).ctr = s.ctr := rfl
@[simp] theorem State.satF_arrays (s : State) (f : FieldRef) (n : Nat) : (s.satF f n).arrays = s.arrays := rfl
@[simp] theorem State.satF_tiles (s : State) (f : FieldRef) (n : Nat) : (s.satF f n).tiles = s.tiles := rfl
@[simp] theorem State.satF_routers (s : State) (f : FieldRef) (n : Nat) : (s.satF f n).routers = s.routers := rfl
@[simp] theorem State.satF_rime (s : State) (f : FieldRef) (n : Nat) : (s.satF f n).rime = s.rime := rfl
@[simp] theorem State.satF_syncWaits (s : State) (f : FieldRef) (n : Nat) : (s.satF f n).syncWaits = s.syncWaits := rfl
@[simp] theorem State.satF_ports (s : State) (f : FieldRef) (n : Nat) : (s.satF f n).ports = s.ports := rfl
@[simp] theorem State.satF_cad (s : State) (f : FieldRef) (n : Nat) : (s.satF f n).cad = s.cad := rfl
@[simp] theorem State.satF_parts (s : State) (f : FieldRef) (n : Nat) : (s.satF f n).parts = s.parts := rfl
@[simp] theorem State.satF_bridge (s : State) (f : FieldRef) (n : Nat) : (s.satF f n).bridge = s.bridge := rfl
@[simp] theorem State.satF_log (s : State) (f : FieldRef) (n : Nat) : (s.satF f n).log = s.log := rfl
@[simp] theorem State.satF_pwr (s : State) (f : FieldRef) (n : Nat) : (s.satF f n).pwr = s.pwr := rfl
@[simp] theorem State.satF_thm (s : State) (f : FieldRef) (n : Nat) : (s.satF f n).thm = s.thm := rfl
@[simp] theorem State.satF_hk (s : State) (f : FieldRef) (n : Nat) : (s.satF f n).hk = s.hk := rfl
@[simp] theorem State.satF_firn (s : State) (f : FieldRef) (n : Nat) : (s.satF f n).firn = s.firn := rfl
@[simp] theorem State.satF_sec (s : State) (f : FieldRef) (n : Nat) : (s.satF f n).sec = s.sec := rfl
@[simp] theorem State.satF_hbm (s : State) (f : FieldRef) (n : Nat) : (s.satF f n).hbm = s.hbm := rfl
@[simp] theorem State.satF_hbmBad (s : State) (f : FieldRef) (n : Nat) : (s.satF f n).hbmBad = s.hbmBad := rfl
@[simp] theorem State.satF_seamBytes (s : State) (f : FieldRef) (n : Nat) : (s.satF f n).seamBytes = s.seamBytes := rfl
@[simp] theorem State.satF_free (s : State) (f : FieldRef) (n : Nat) : (s.satF f n).free = s.free := rfl
@[simp] theorem State.satF_replies (s : State) (f : FieldRef) (n : Nat) : (s.satF f n).replies = s.replies := rfl
@[simp] theorem State.satF_linkOut (s : State) (f : FieldRef) (n : Nat) : (s.satF f n).linkOut = s.linkOut := rfl
@[simp] theorem State.satF_linkIn (s : State) (f : FieldRef) (n : Nat) : (s.satF f n).linkIn = s.linkIn := rfl
@[simp] theorem State.satF_rimeOut (s : State) (f : FieldRef) (n : Nat) : (s.satF f n).rimeOut = s.rimeOut := rfl
@[simp] theorem State.satF_hostOut (s : State) (f : FieldRef) (n : Nat) : (s.satF f n).hostOut = s.hostOut := rfl
@[simp] theorem State.satF_msix (s : State) (f : FieldRef) (n : Nat) : (s.satF f n).msix = s.msix := rfl
@[simp] theorem State.satF_smbOut (s : State) (f : FieldRef) (n : Nat) : (s.satF f n).smbOut = s.smbOut := rfl

/-! ### modArr changes `arrays` alone -/

@[simp] theorem State.modArr_pending (s : State) (t a : Nat) (f : ArrSt → ArrSt) : (s.modArr t a f).pending = s.pending := rfl
@[simp] theorem State.modArr_regs (s : State) (t a : Nat) (f : ArrSt → ArrSt) : (s.modArr t a f).regs = s.regs := rfl
@[simp] theorem State.modArr_ctr (s : State) (t a : Nat) (f : ArrSt → ArrSt) : (s.modArr t a f).ctr = s.ctr := rfl
@[simp] theorem State.modArr_tiles (s : State) (t a : Nat) (f : ArrSt → ArrSt) : (s.modArr t a f).tiles = s.tiles := rfl
@[simp] theorem State.modArr_routers (s : State) (t a : Nat) (f : ArrSt → ArrSt) : (s.modArr t a f).routers = s.routers := rfl
@[simp] theorem State.modArr_rime (s : State) (t a : Nat) (f : ArrSt → ArrSt) : (s.modArr t a f).rime = s.rime := rfl
@[simp] theorem State.modArr_syncWaits (s : State) (t a : Nat) (f : ArrSt → ArrSt) : (s.modArr t a f).syncWaits = s.syncWaits := rfl
@[simp] theorem State.modArr_ports (s : State) (t a : Nat) (f : ArrSt → ArrSt) : (s.modArr t a f).ports = s.ports := rfl
@[simp] theorem State.modArr_cad (s : State) (t a : Nat) (f : ArrSt → ArrSt) : (s.modArr t a f).cad = s.cad := rfl
@[simp] theorem State.modArr_parts (s : State) (t a : Nat) (f : ArrSt → ArrSt) : (s.modArr t a f).parts = s.parts := rfl
@[simp] theorem State.modArr_bridge (s : State) (t a : Nat) (f : ArrSt → ArrSt) : (s.modArr t a f).bridge = s.bridge := rfl
@[simp] theorem State.modArr_log (s : State) (t a : Nat) (f : ArrSt → ArrSt) : (s.modArr t a f).log = s.log := rfl
@[simp] theorem State.modArr_pwr (s : State) (t a : Nat) (f : ArrSt → ArrSt) : (s.modArr t a f).pwr = s.pwr := rfl
@[simp] theorem State.modArr_thm (s : State) (t a : Nat) (f : ArrSt → ArrSt) : (s.modArr t a f).thm = s.thm := rfl
@[simp] theorem State.modArr_hk (s : State) (t a : Nat) (f : ArrSt → ArrSt) : (s.modArr t a f).hk = s.hk := rfl
@[simp] theorem State.modArr_firn (s : State) (t a : Nat) (f : ArrSt → ArrSt) : (s.modArr t a f).firn = s.firn := rfl
@[simp] theorem State.modArr_sec (s : State) (t a : Nat) (f : ArrSt → ArrSt) : (s.modArr t a f).sec = s.sec := rfl
@[simp] theorem State.modArr_hbm (s : State) (t a : Nat) (f : ArrSt → ArrSt) : (s.modArr t a f).hbm = s.hbm := rfl
@[simp] theorem State.modArr_hbmBad (s : State) (t a : Nat) (f : ArrSt → ArrSt) : (s.modArr t a f).hbmBad = s.hbmBad := rfl
@[simp] theorem State.modArr_seamBytes (s : State) (t a : Nat) (f : ArrSt → ArrSt) : (s.modArr t a f).seamBytes = s.seamBytes := rfl
@[simp] theorem State.modArr_free (s : State) (t a : Nat) (f : ArrSt → ArrSt) : (s.modArr t a f).free = s.free := rfl
@[simp] theorem State.modArr_replies (s : State) (t a : Nat) (f : ArrSt → ArrSt) : (s.modArr t a f).replies = s.replies := rfl
@[simp] theorem State.modArr_linkOut (s : State) (t a : Nat) (f : ArrSt → ArrSt) : (s.modArr t a f).linkOut = s.linkOut := rfl
@[simp] theorem State.modArr_linkIn (s : State) (t a : Nat) (f : ArrSt → ArrSt) : (s.modArr t a f).linkIn = s.linkIn := rfl
@[simp] theorem State.modArr_rimeOut (s : State) (t a : Nat) (f : ArrSt → ArrSt) : (s.modArr t a f).rimeOut = s.rimeOut := rfl
@[simp] theorem State.modArr_hostOut (s : State) (t a : Nat) (f : ArrSt → ArrSt) : (s.modArr t a f).hostOut = s.hostOut := rfl
@[simp] theorem State.modArr_msix (s : State) (t a : Nat) (f : ArrSt → ArrSt) : (s.modArr t a f).msix = s.msix := rfl
@[simp] theorem State.modArr_smbOut (s : State) (t a : Nat) (f : ArrSt → ArrSt) : (s.modArr t a f).smbOut = s.smbOut := rfl

/-! ### modTile changes `tiles` alone -/

@[simp] theorem State.modTile_pending (s : State) (t : Nat) (f : TileSt → TileSt) : (s.modTile t f).pending = s.pending := rfl
@[simp] theorem State.modTile_regs (s : State) (t : Nat) (f : TileSt → TileSt) : (s.modTile t f).regs = s.regs := rfl
@[simp] theorem State.modTile_ctr (s : State) (t : Nat) (f : TileSt → TileSt) : (s.modTile t f).ctr = s.ctr := rfl
@[simp] theorem State.modTile_arrays (s : State) (t : Nat) (f : TileSt → TileSt) : (s.modTile t f).arrays = s.arrays := rfl
@[simp] theorem State.modTile_routers (s : State) (t : Nat) (f : TileSt → TileSt) : (s.modTile t f).routers = s.routers := rfl
@[simp] theorem State.modTile_rime (s : State) (t : Nat) (f : TileSt → TileSt) : (s.modTile t f).rime = s.rime := rfl
@[simp] theorem State.modTile_syncWaits (s : State) (t : Nat) (f : TileSt → TileSt) : (s.modTile t f).syncWaits = s.syncWaits := rfl
@[simp] theorem State.modTile_ports (s : State) (t : Nat) (f : TileSt → TileSt) : (s.modTile t f).ports = s.ports := rfl
@[simp] theorem State.modTile_cad (s : State) (t : Nat) (f : TileSt → TileSt) : (s.modTile t f).cad = s.cad := rfl
@[simp] theorem State.modTile_parts (s : State) (t : Nat) (f : TileSt → TileSt) : (s.modTile t f).parts = s.parts := rfl
@[simp] theorem State.modTile_bridge (s : State) (t : Nat) (f : TileSt → TileSt) : (s.modTile t f).bridge = s.bridge := rfl
@[simp] theorem State.modTile_log (s : State) (t : Nat) (f : TileSt → TileSt) : (s.modTile t f).log = s.log := rfl
@[simp] theorem State.modTile_pwr (s : State) (t : Nat) (f : TileSt → TileSt) : (s.modTile t f).pwr = s.pwr := rfl
@[simp] theorem State.modTile_thm (s : State) (t : Nat) (f : TileSt → TileSt) : (s.modTile t f).thm = s.thm := rfl
@[simp] theorem State.modTile_hk (s : State) (t : Nat) (f : TileSt → TileSt) : (s.modTile t f).hk = s.hk := rfl
@[simp] theorem State.modTile_firn (s : State) (t : Nat) (f : TileSt → TileSt) : (s.modTile t f).firn = s.firn := rfl
@[simp] theorem State.modTile_sec (s : State) (t : Nat) (f : TileSt → TileSt) : (s.modTile t f).sec = s.sec := rfl
@[simp] theorem State.modTile_hbm (s : State) (t : Nat) (f : TileSt → TileSt) : (s.modTile t f).hbm = s.hbm := rfl
@[simp] theorem State.modTile_hbmBad (s : State) (t : Nat) (f : TileSt → TileSt) : (s.modTile t f).hbmBad = s.hbmBad := rfl
@[simp] theorem State.modTile_seamBytes (s : State) (t : Nat) (f : TileSt → TileSt) : (s.modTile t f).seamBytes = s.seamBytes := rfl
@[simp] theorem State.modTile_free (s : State) (t : Nat) (f : TileSt → TileSt) : (s.modTile t f).free = s.free := rfl
@[simp] theorem State.modTile_replies (s : State) (t : Nat) (f : TileSt → TileSt) : (s.modTile t f).replies = s.replies := rfl
@[simp] theorem State.modTile_linkOut (s : State) (t : Nat) (f : TileSt → TileSt) : (s.modTile t f).linkOut = s.linkOut := rfl
@[simp] theorem State.modTile_linkIn (s : State) (t : Nat) (f : TileSt → TileSt) : (s.modTile t f).linkIn = s.linkIn := rfl
@[simp] theorem State.modTile_rimeOut (s : State) (t : Nat) (f : TileSt → TileSt) : (s.modTile t f).rimeOut = s.rimeOut := rfl
@[simp] theorem State.modTile_hostOut (s : State) (t : Nat) (f : TileSt → TileSt) : (s.modTile t f).hostOut = s.hostOut := rfl
@[simp] theorem State.modTile_msix (s : State) (t : Nat) (f : TileSt → TileSt) : (s.modTile t f).msix = s.msix := rfl
@[simp] theorem State.modTile_smbOut (s : State) (t : Nat) (f : TileSt → TileSt) : (s.modTile t f).smbOut = s.smbOut := rfl

/-! ### modPort changes `ports` alone -/

@[simp] theorem State.modPort_pending (s : State) (p : Nat) (f : PortSt → PortSt) : (s.modPort p f).pending = s.pending := rfl
@[simp] theorem State.modPort_regs (s : State) (p : Nat) (f : PortSt → PortSt) : (s.modPort p f).regs = s.regs := rfl
@[simp] theorem State.modPort_ctr (s : State) (p : Nat) (f : PortSt → PortSt) : (s.modPort p f).ctr = s.ctr := rfl
@[simp] theorem State.modPort_arrays (s : State) (p : Nat) (f : PortSt → PortSt) : (s.modPort p f).arrays = s.arrays := rfl
@[simp] theorem State.modPort_tiles (s : State) (p : Nat) (f : PortSt → PortSt) : (s.modPort p f).tiles = s.tiles := rfl
@[simp] theorem State.modPort_routers (s : State) (p : Nat) (f : PortSt → PortSt) : (s.modPort p f).routers = s.routers := rfl
@[simp] theorem State.modPort_rime (s : State) (p : Nat) (f : PortSt → PortSt) : (s.modPort p f).rime = s.rime := rfl
@[simp] theorem State.modPort_syncWaits (s : State) (p : Nat) (f : PortSt → PortSt) : (s.modPort p f).syncWaits = s.syncWaits := rfl
@[simp] theorem State.modPort_cad (s : State) (p : Nat) (f : PortSt → PortSt) : (s.modPort p f).cad = s.cad := rfl
@[simp] theorem State.modPort_parts (s : State) (p : Nat) (f : PortSt → PortSt) : (s.modPort p f).parts = s.parts := rfl
@[simp] theorem State.modPort_bridge (s : State) (p : Nat) (f : PortSt → PortSt) : (s.modPort p f).bridge = s.bridge := rfl
@[simp] theorem State.modPort_log (s : State) (p : Nat) (f : PortSt → PortSt) : (s.modPort p f).log = s.log := rfl
@[simp] theorem State.modPort_pwr (s : State) (p : Nat) (f : PortSt → PortSt) : (s.modPort p f).pwr = s.pwr := rfl
@[simp] theorem State.modPort_thm (s : State) (p : Nat) (f : PortSt → PortSt) : (s.modPort p f).thm = s.thm := rfl
@[simp] theorem State.modPort_hk (s : State) (p : Nat) (f : PortSt → PortSt) : (s.modPort p f).hk = s.hk := rfl
@[simp] theorem State.modPort_firn (s : State) (p : Nat) (f : PortSt → PortSt) : (s.modPort p f).firn = s.firn := rfl
@[simp] theorem State.modPort_sec (s : State) (p : Nat) (f : PortSt → PortSt) : (s.modPort p f).sec = s.sec := rfl
@[simp] theorem State.modPort_hbm (s : State) (p : Nat) (f : PortSt → PortSt) : (s.modPort p f).hbm = s.hbm := rfl
@[simp] theorem State.modPort_hbmBad (s : State) (p : Nat) (f : PortSt → PortSt) : (s.modPort p f).hbmBad = s.hbmBad := rfl
@[simp] theorem State.modPort_seamBytes (s : State) (p : Nat) (f : PortSt → PortSt) : (s.modPort p f).seamBytes = s.seamBytes := rfl
@[simp] theorem State.modPort_free (s : State) (p : Nat) (f : PortSt → PortSt) : (s.modPort p f).free = s.free := rfl
@[simp] theorem State.modPort_replies (s : State) (p : Nat) (f : PortSt → PortSt) : (s.modPort p f).replies = s.replies := rfl
@[simp] theorem State.modPort_linkOut (s : State) (p : Nat) (f : PortSt → PortSt) : (s.modPort p f).linkOut = s.linkOut := rfl
@[simp] theorem State.modPort_linkIn (s : State) (p : Nat) (f : PortSt → PortSt) : (s.modPort p f).linkIn = s.linkIn := rfl
@[simp] theorem State.modPort_rimeOut (s : State) (p : Nat) (f : PortSt → PortSt) : (s.modPort p f).rimeOut = s.rimeOut := rfl
@[simp] theorem State.modPort_hostOut (s : State) (p : Nat) (f : PortSt → PortSt) : (s.modPort p f).hostOut = s.hostOut := rfl
@[simp] theorem State.modPort_msix (s : State) (p : Nat) (f : PortSt → PortSt) : (s.modPort p f).msix = s.msix := rfl
@[simp] theorem State.modPort_smbOut (s : State) (p : Nat) (f : PortSt → PortSt) : (s.modPort p f).smbOut = s.smbOut := rfl

/-! ### modPrt changes `parts` alone -/

@[simp] theorem State.modPrt_pending (s : State) (n : Nat) (f : PartSt → PartSt) : (s.modPrt n f).pending = s.pending := rfl
@[simp] theorem State.modPrt_regs (s : State) (n : Nat) (f : PartSt → PartSt) : (s.modPrt n f).regs = s.regs := rfl
@[simp] theorem State.modPrt_ctr (s : State) (n : Nat) (f : PartSt → PartSt) : (s.modPrt n f).ctr = s.ctr := rfl
@[simp] theorem State.modPrt_arrays (s : State) (n : Nat) (f : PartSt → PartSt) : (s.modPrt n f).arrays = s.arrays := rfl
@[simp] theorem State.modPrt_tiles (s : State) (n : Nat) (f : PartSt → PartSt) : (s.modPrt n f).tiles = s.tiles := rfl
@[simp] theorem State.modPrt_routers (s : State) (n : Nat) (f : PartSt → PartSt) : (s.modPrt n f).routers = s.routers := rfl
@[simp] theorem State.modPrt_rime (s : State) (n : Nat) (f : PartSt → PartSt) : (s.modPrt n f).rime = s.rime := rfl
@[simp] theorem State.modPrt_syncWaits (s : State) (n : Nat) (f : PartSt → PartSt) : (s.modPrt n f).syncWaits = s.syncWaits := rfl
@[simp] theorem State.modPrt_ports (s : State) (n : Nat) (f : PartSt → PartSt) : (s.modPrt n f).ports = s.ports := rfl
@[simp] theorem State.modPrt_cad (s : State) (n : Nat) (f : PartSt → PartSt) : (s.modPrt n f).cad = s.cad := rfl
@[simp] theorem State.modPrt_bridge (s : State) (n : Nat) (f : PartSt → PartSt) : (s.modPrt n f).bridge = s.bridge := rfl
@[simp] theorem State.modPrt_log (s : State) (n : Nat) (f : PartSt → PartSt) : (s.modPrt n f).log = s.log := rfl
@[simp] theorem State.modPrt_pwr (s : State) (n : Nat) (f : PartSt → PartSt) : (s.modPrt n f).pwr = s.pwr := rfl
@[simp] theorem State.modPrt_thm (s : State) (n : Nat) (f : PartSt → PartSt) : (s.modPrt n f).thm = s.thm := rfl
@[simp] theorem State.modPrt_hk (s : State) (n : Nat) (f : PartSt → PartSt) : (s.modPrt n f).hk = s.hk := rfl
@[simp] theorem State.modPrt_firn (s : State) (n : Nat) (f : PartSt → PartSt) : (s.modPrt n f).firn = s.firn := rfl
@[simp] theorem State.modPrt_sec (s : State) (n : Nat) (f : PartSt → PartSt) : (s.modPrt n f).sec = s.sec := rfl
@[simp] theorem State.modPrt_hbm (s : State) (n : Nat) (f : PartSt → PartSt) : (s.modPrt n f).hbm = s.hbm := rfl
@[simp] theorem State.modPrt_hbmBad (s : State) (n : Nat) (f : PartSt → PartSt) : (s.modPrt n f).hbmBad = s.hbmBad := rfl
@[simp] theorem State.modPrt_seamBytes (s : State) (n : Nat) (f : PartSt → PartSt) : (s.modPrt n f).seamBytes = s.seamBytes := rfl
@[simp] theorem State.modPrt_free (s : State) (n : Nat) (f : PartSt → PartSt) : (s.modPrt n f).free = s.free := rfl
@[simp] theorem State.modPrt_replies (s : State) (n : Nat) (f : PartSt → PartSt) : (s.modPrt n f).replies = s.replies := rfl
@[simp] theorem State.modPrt_linkOut (s : State) (n : Nat) (f : PartSt → PartSt) : (s.modPrt n f).linkOut = s.linkOut := rfl
@[simp] theorem State.modPrt_linkIn (s : State) (n : Nat) (f : PartSt → PartSt) : (s.modPrt n f).linkIn = s.linkIn := rfl
@[simp] theorem State.modPrt_rimeOut (s : State) (n : Nat) (f : PartSt → PartSt) : (s.modPrt n f).rimeOut = s.rimeOut := rfl
@[simp] theorem State.modPrt_hostOut (s : State) (n : Nat) (f : PartSt → PartSt) : (s.modPrt n f).hostOut = s.hostOut := rfl
@[simp] theorem State.modPrt_msix (s : State) (n : Nat) (f : PartSt → PartSt) : (s.modPrt n f).msix = s.msix := rfl
@[simp] theorem State.modPrt_smbOut (s : State) (n : Nat) (f : PartSt → PartSt) : (s.modPrt n f).smbOut = s.smbOut := rfl

/-! ### modRouter changes `routers` alone -/

@[simp] theorem State.modRouter_pending (s : State) (n : Nat) (f : RouterSt → RouterSt) : (s.modRouter n f).pending = s.pending := rfl
@[simp] theorem State.modRouter_regs (s : State) (n : Nat) (f : RouterSt → RouterSt) : (s.modRouter n f).regs = s.regs := rfl
@[simp] theorem State.modRouter_ctr (s : State) (n : Nat) (f : RouterSt → RouterSt) : (s.modRouter n f).ctr = s.ctr := rfl
@[simp] theorem State.modRouter_arrays (s : State) (n : Nat) (f : RouterSt → RouterSt) : (s.modRouter n f).arrays = s.arrays := rfl
@[simp] theorem State.modRouter_tiles (s : State) (n : Nat) (f : RouterSt → RouterSt) : (s.modRouter n f).tiles = s.tiles := rfl
@[simp] theorem State.modRouter_rime (s : State) (n : Nat) (f : RouterSt → RouterSt) : (s.modRouter n f).rime = s.rime := rfl
@[simp] theorem State.modRouter_syncWaits (s : State) (n : Nat) (f : RouterSt → RouterSt) : (s.modRouter n f).syncWaits = s.syncWaits := rfl
@[simp] theorem State.modRouter_ports (s : State) (n : Nat) (f : RouterSt → RouterSt) : (s.modRouter n f).ports = s.ports := rfl
@[simp] theorem State.modRouter_cad (s : State) (n : Nat) (f : RouterSt → RouterSt) : (s.modRouter n f).cad = s.cad := rfl
@[simp] theorem State.modRouter_parts (s : State) (n : Nat) (f : RouterSt → RouterSt) : (s.modRouter n f).parts = s.parts := rfl
@[simp] theorem State.modRouter_bridge (s : State) (n : Nat) (f : RouterSt → RouterSt) : (s.modRouter n f).bridge = s.bridge := rfl
@[simp] theorem State.modRouter_log (s : State) (n : Nat) (f : RouterSt → RouterSt) : (s.modRouter n f).log = s.log := rfl
@[simp] theorem State.modRouter_pwr (s : State) (n : Nat) (f : RouterSt → RouterSt) : (s.modRouter n f).pwr = s.pwr := rfl
@[simp] theorem State.modRouter_thm (s : State) (n : Nat) (f : RouterSt → RouterSt) : (s.modRouter n f).thm = s.thm := rfl
@[simp] theorem State.modRouter_hk (s : State) (n : Nat) (f : RouterSt → RouterSt) : (s.modRouter n f).hk = s.hk := rfl
@[simp] theorem State.modRouter_firn (s : State) (n : Nat) (f : RouterSt → RouterSt) : (s.modRouter n f).firn = s.firn := rfl
@[simp] theorem State.modRouter_sec (s : State) (n : Nat) (f : RouterSt → RouterSt) : (s.modRouter n f).sec = s.sec := rfl
@[simp] theorem State.modRouter_hbm (s : State) (n : Nat) (f : RouterSt → RouterSt) : (s.modRouter n f).hbm = s.hbm := rfl
@[simp] theorem State.modRouter_hbmBad (s : State) (n : Nat) (f : RouterSt → RouterSt) : (s.modRouter n f).hbmBad = s.hbmBad := rfl
@[simp] theorem State.modRouter_seamBytes (s : State) (n : Nat) (f : RouterSt → RouterSt) : (s.modRouter n f).seamBytes = s.seamBytes := rfl
@[simp] theorem State.modRouter_free (s : State) (n : Nat) (f : RouterSt → RouterSt) : (s.modRouter n f).free = s.free := rfl
@[simp] theorem State.modRouter_replies (s : State) (n : Nat) (f : RouterSt → RouterSt) : (s.modRouter n f).replies = s.replies := rfl
@[simp] theorem State.modRouter_linkOut (s : State) (n : Nat) (f : RouterSt → RouterSt) : (s.modRouter n f).linkOut = s.linkOut := rfl
@[simp] theorem State.modRouter_linkIn (s : State) (n : Nat) (f : RouterSt → RouterSt) : (s.modRouter n f).linkIn = s.linkIn := rfl
@[simp] theorem State.modRouter_rimeOut (s : State) (n : Nat) (f : RouterSt → RouterSt) : (s.modRouter n f).rimeOut = s.rimeOut := rfl
@[simp] theorem State.modRouter_hostOut (s : State) (n : Nat) (f : RouterSt → RouterSt) : (s.modRouter n f).hostOut = s.hostOut := rfl
@[simp] theorem State.modRouter_msix (s : State) (n : Nat) (f : RouterSt → RouterSt) : (s.modRouter n f).msix = s.msix := rfl
@[simp] theorem State.modRouter_smbOut (s : State) (n : Nat) (f : RouterSt → RouterSt) : (s.modRouter n f).smbOut = s.smbOut := rfl

/-! ### What the readers of other parts still read -/

@[simp] theorem State.arr_setR (s : State) (r : Reg) (w : Word) (j k : Nat) : (s.setR r w).arr j k = s.arr j k := rfl
@[simp] theorem State.tile_setR (s : State) (r : Reg) (w : Word) (j : Nat) : (s.setR r w).tile j = s.tile j := rfl
@[simp] theorem State.router_setR (s : State) (r : Reg) (w : Word) (j : Nat) : (s.setR r w).router j = s.router j := rfl
@[simp] theorem State.port_setR (s : State) (r : Reg) (w : Word) (j : Nat) : (s.setR r w).port j = s.port j := rfl
@[simp] theorem State.prt_setR (s : State) (r : Reg) (w : Word) (j : Nat) : (s.setR r w).prt j = s.prt j := rfl

@[simp] theorem State.getR_setArr (s : State) (t a : Nat) (x : ArrSt) (g : Reg) : (s.setArr t a x).getR g = s.getR g := rfl
@[simp] theorem State.getF_setArr (s : State) (t a : Nat) (x : ArrSt) (g : FieldRef) : (s.setArr t a x).getF g = s.getF g := rfl
@[simp] theorem State.flag_setArr (s : State) (t a : Nat) (x : ArrSt) (g : FieldRef) : (s.setArr t a x).flag g = s.flag g := rfl
@[simp] theorem State.tile_setArr (s : State) (t a : Nat) (x : ArrSt) (j : Nat) : (s.setArr t a x).tile j = s.tile j := rfl
@[simp] theorem State.router_setArr (s : State) (t a : Nat) (x : ArrSt) (j : Nat) : (s.setArr t a x).router j = s.router j := rfl
@[simp] theorem State.port_setArr (s : State) (t a : Nat) (x : ArrSt) (j : Nat) : (s.setArr t a x).port j = s.port j := rfl
@[simp] theorem State.prt_setArr (s : State) (t a : Nat) (x : ArrSt) (j : Nat) : (s.setArr t a x).prt j = s.prt j := rfl

@[simp] theorem State.getR_setTile (s : State) (t : Nat) (x : TileSt) (g : Reg) : (s.setTile t x).getR g = s.getR g := rfl
@[simp] theorem State.getF_setTile (s : State) (t : Nat) (x : TileSt) (g : FieldRef) : (s.setTile t x).getF g = s.getF g := rfl
@[simp] theorem State.flag_setTile (s : State) (t : Nat) (x : TileSt) (g : FieldRef) : (s.setTile t x).flag g = s.flag g := rfl
@[simp] theorem State.arr_setTile (s : State) (t : Nat) (x : TileSt) (j k : Nat) : (s.setTile t x).arr j k = s.arr j k := rfl
@[simp] theorem State.router_setTile (s : State) (t : Nat) (x : TileSt) (j : Nat) : (s.setTile t x).router j = s.router j := rfl
@[simp] theorem State.port_setTile (s : State) (t : Nat) (x : TileSt) (j : Nat) : (s.setTile t x).port j = s.port j := rfl
@[simp] theorem State.prt_setTile (s : State) (t : Nat) (x : TileSt) (j : Nat) : (s.setTile t x).prt j = s.prt j := rfl

@[simp] theorem State.getR_setRouter (s : State) (t : Nat) (x : RouterSt) (g : Reg) : (s.setRouter t x).getR g = s.getR g := rfl
@[simp] theorem State.getF_setRouter (s : State) (t : Nat) (x : RouterSt) (g : FieldRef) : (s.setRouter t x).getF g = s.getF g := rfl
@[simp] theorem State.flag_setRouter (s : State) (t : Nat) (x : RouterSt) (g : FieldRef) : (s.setRouter t x).flag g = s.flag g := rfl
@[simp] theorem State.arr_setRouter (s : State) (t : Nat) (x : RouterSt) (j k : Nat) : (s.setRouter t x).arr j k = s.arr j k := rfl
@[simp] theorem State.tile_setRouter (s : State) (t : Nat) (x : RouterSt) (j : Nat) : (s.setRouter t x).tile j = s.tile j := rfl
@[simp] theorem State.port_setRouter (s : State) (t : Nat) (x : RouterSt) (j : Nat) : (s.setRouter t x).port j = s.port j := rfl
@[simp] theorem State.prt_setRouter (s : State) (t : Nat) (x : RouterSt) (j : Nat) : (s.setRouter t x).prt j = s.prt j := rfl

@[simp] theorem State.getR_setPort (s : State) (p : Nat) (x : PortSt) (g : Reg) : (s.setPort p x).getR g = s.getR g := rfl
@[simp] theorem State.getF_setPort (s : State) (p : Nat) (x : PortSt) (g : FieldRef) : (s.setPort p x).getF g = s.getF g := rfl
@[simp] theorem State.flag_setPort (s : State) (p : Nat) (x : PortSt) (g : FieldRef) : (s.setPort p x).flag g = s.flag g := rfl
@[simp] theorem State.arr_setPort (s : State) (p : Nat) (x : PortSt) (j k : Nat) : (s.setPort p x).arr j k = s.arr j k := rfl
@[simp] theorem State.tile_setPort (s : State) (p : Nat) (x : PortSt) (j : Nat) : (s.setPort p x).tile j = s.tile j := rfl
@[simp] theorem State.router_setPort (s : State) (p : Nat) (x : PortSt) (j : Nat) : (s.setPort p x).router j = s.router j := rfl
@[simp] theorem State.prt_setPort (s : State) (p : Nat) (x : PortSt) (j : Nat) : (s.setPort p x).prt j = s.prt j := rfl

@[simp] theorem State.getR_setPrt (s : State) (n : Nat) (x : PartSt) (g : Reg) : (s.setPrt n x).getR g = s.getR g := rfl
@[simp] theorem State.getF_setPrt (s : State) (n : Nat) (x : PartSt) (g : FieldRef) : (s.setPrt n x).getF g = s.getF g := rfl
@[simp] theorem State.flag_setPrt (s : State) (n : Nat) (x : PartSt) (g : FieldRef) : (s.setPrt n x).flag g = s.flag g := rfl
@[simp] theorem State.arr_setPrt (s : State) (n : Nat) (x : PartSt) (j k : Nat) : (s.setPrt n x).arr j k = s.arr j k := rfl
@[simp] theorem State.tile_setPrt (s : State) (n : Nat) (x : PartSt) (j : Nat) : (s.setPrt n x).tile j = s.tile j := rfl
@[simp] theorem State.router_setPrt (s : State) (n : Nat) (x : PartSt) (j : Nat) : (s.setPrt n x).router j = s.router j := rfl
@[simp] theorem State.port_setPrt (s : State) (n : Nat) (x : PartSt) (j : Nat) : (s.setPrt n x).port j = s.port j := rfl

@[simp] theorem State.arr_setF (s : State) (f : FieldRef) (v : Nat) (j k : Nat) : (s.setF f v).arr j k = s.arr j k := rfl
@[simp] theorem State.tile_setF (s : State) (f : FieldRef) (v : Nat) (j : Nat) : (s.setF f v).tile j = s.tile j := rfl
@[simp] theorem State.router_setF (s : State) (f : FieldRef) (v : Nat) (j : Nat) : (s.setF f v).router j = s.router j := rfl
@[simp] theorem State.port_setF (s : State) (f : FieldRef) (v : Nat) (j : Nat) : (s.setF f v).port j = s.port j := rfl
@[simp] theorem State.prt_setF (s : State) (f : FieldRef) (v : Nat) (j : Nat) : (s.setF f v).prt j = s.prt j := rfl

@[simp] theorem State.arr_setFlag (s : State) (f : FieldRef) (b : Bool) (j k : Nat) : (s.setFlag f b).arr j k = s.arr j k := rfl
@[simp] theorem State.tile_setFlag (s : State) (f : FieldRef) (b : Bool) (j : Nat) : (s.setFlag f b).tile j = s.tile j := rfl
@[simp] theorem State.router_setFlag (s : State) (f : FieldRef) (b : Bool) (j : Nat) : (s.setFlag f b).router j = s.router j := rfl
@[simp] theorem State.port_setFlag (s : State) (f : FieldRef) (b : Bool) (j : Nat) : (s.setFlag f b).port j = s.port j := rfl
@[simp] theorem State.prt_setFlag (s : State) (f : FieldRef) (b : Bool) (j : Nat) : (s.setFlag f b).prt j = s.prt j := rfl

@[simp] theorem State.arr_addF (s : State) (f : FieldRef) (n : Nat) (j k : Nat) : (s.addF f n).arr j k = s.arr j k := rfl
@[simp] theorem State.tile_addF (s : State) (f : FieldRef) (n : Nat) (j : Nat) : (s.addF f n).tile j = s.tile j := rfl
@[simp] theorem State.router_addF (s : State) (f : FieldRef) (n : Nat) (j : Nat) : (s.addF f n).router j = s.router j := rfl
@[simp] theorem State.port_addF (s : State) (f : FieldRef) (n : Nat) (j : Nat) : (s.addF f n).port j = s.port j := rfl
@[simp] theorem State.prt_addF (s : State) (f : FieldRef) (n : Nat) (j : Nat) : (s.addF f n).prt j = s.prt j := rfl

@[simp] theorem State.arr_satF (s : State) (f : FieldRef) (n : Nat) (j k : Nat) : (s.satF f n).arr j k = s.arr j k := rfl
@[simp] theorem State.tile_satF (s : State) (f : FieldRef) (n : Nat) (j : Nat) : (s.satF f n).tile j = s.tile j := rfl
@[simp] theorem State.router_satF (s : State) (f : FieldRef) (n : Nat) (j : Nat) : (s.satF f n).router j = s.router j := rfl
@[simp] theorem State.port_satF (s : State) (f : FieldRef) (n : Nat) (j : Nat) : (s.satF f n).port j = s.port j := rfl
@[simp] theorem State.prt_satF (s : State) (f : FieldRef) (n : Nat) (j : Nat) : (s.satF f n).prt j = s.prt j := rfl

@[simp] theorem State.getR_modArr (s : State) (t a : Nat) (f : ArrSt → ArrSt) (g : Reg) : (s.modArr t a f).getR g = s.getR g := rfl
@[simp] theorem State.getF_modArr (s : State) (t a : Nat) (f : ArrSt → ArrSt) (g : FieldRef) : (s.modArr t a f).getF g = s.getF g := rfl
@[simp] theorem State.flag_modArr (s : State) (t a : Nat) (f : ArrSt → ArrSt) (g : FieldRef) : (s.modArr t a f).flag g = s.flag g := rfl
@[simp] theorem State.tile_modArr (s : State) (t a : Nat) (f : ArrSt → ArrSt) (j : Nat) : (s.modArr t a f).tile j = s.tile j := rfl
@[simp] theorem State.router_modArr (s : State) (t a : Nat) (f : ArrSt → ArrSt) (j : Nat) : (s.modArr t a f).router j = s.router j := rfl
@[simp] theorem State.port_modArr (s : State) (t a : Nat) (f : ArrSt → ArrSt) (j : Nat) : (s.modArr t a f).port j = s.port j := rfl
@[simp] theorem State.prt_modArr (s : State) (t a : Nat) (f : ArrSt → ArrSt) (j : Nat) : (s.modArr t a f).prt j = s.prt j := rfl

@[simp] theorem State.getR_modTile (s : State) (t : Nat) (f : TileSt → TileSt) (g : Reg) : (s.modTile t f).getR g = s.getR g := rfl
@[simp] theorem State.getF_modTile (s : State) (t : Nat) (f : TileSt → TileSt) (g : FieldRef) : (s.modTile t f).getF g = s.getF g := rfl
@[simp] theorem State.flag_modTile (s : State) (t : Nat) (f : TileSt → TileSt) (g : FieldRef) : (s.modTile t f).flag g = s.flag g := rfl
@[simp] theorem State.arr_modTile (s : State) (t : Nat) (f : TileSt → TileSt) (j k : Nat) : (s.modTile t f).arr j k = s.arr j k := rfl
@[simp] theorem State.router_modTile (s : State) (t : Nat) (f : TileSt → TileSt) (j : Nat) : (s.modTile t f).router j = s.router j := rfl
@[simp] theorem State.port_modTile (s : State) (t : Nat) (f : TileSt → TileSt) (j : Nat) : (s.modTile t f).port j = s.port j := rfl
@[simp] theorem State.prt_modTile (s : State) (t : Nat) (f : TileSt → TileSt) (j : Nat) : (s.modTile t f).prt j = s.prt j := rfl

@[simp] theorem State.getR_modPort (s : State) (p : Nat) (f : PortSt → PortSt) (g : Reg) : (s.modPort p f).getR g = s.getR g := rfl
@[simp] theorem State.getF_modPort (s : State) (p : Nat) (f : PortSt → PortSt) (g : FieldRef) : (s.modPort p f).getF g = s.getF g := rfl
@[simp] theorem State.flag_modPort (s : State) (p : Nat) (f : PortSt → PortSt) (g : FieldRef) : (s.modPort p f).flag g = s.flag g := rfl
@[simp] theorem State.arr_modPort (s : State) (p : Nat) (f : PortSt → PortSt) (j k : Nat) : (s.modPort p f).arr j k = s.arr j k := rfl
@[simp] theorem State.tile_modPort (s : State) (p : Nat) (f : PortSt → PortSt) (j : Nat) : (s.modPort p f).tile j = s.tile j := rfl
@[simp] theorem State.router_modPort (s : State) (p : Nat) (f : PortSt → PortSt) (j : Nat) : (s.modPort p f).router j = s.router j := rfl
@[simp] theorem State.prt_modPort (s : State) (p : Nat) (f : PortSt → PortSt) (j : Nat) : (s.modPort p f).prt j = s.prt j := rfl

@[simp] theorem State.getR_modPrt (s : State) (n : Nat) (f : PartSt → PartSt) (g : Reg) : (s.modPrt n f).getR g = s.getR g := rfl
@[simp] theorem State.getF_modPrt (s : State) (n : Nat) (f : PartSt → PartSt) (g : FieldRef) : (s.modPrt n f).getF g = s.getF g := rfl
@[simp] theorem State.flag_modPrt (s : State) (n : Nat) (f : PartSt → PartSt) (g : FieldRef) : (s.modPrt n f).flag g = s.flag g := rfl
@[simp] theorem State.arr_modPrt (s : State) (n : Nat) (f : PartSt → PartSt) (j k : Nat) : (s.modPrt n f).arr j k = s.arr j k := rfl
@[simp] theorem State.tile_modPrt (s : State) (n : Nat) (f : PartSt → PartSt) (j : Nat) : (s.modPrt n f).tile j = s.tile j := rfl
@[simp] theorem State.router_modPrt (s : State) (n : Nat) (f : PartSt → PartSt) (j : Nat) : (s.modPrt n f).router j = s.router j := rfl
@[simp] theorem State.port_modPrt (s : State) (n : Nat) (f : PartSt → PartSt) (j : Nat) : (s.modPrt n f).port j = s.port j := rfl

@[simp] theorem State.getR_modRouter (s : State) (n : Nat) (f : RouterSt → RouterSt) (g : Reg) : (s.modRouter n f).getR g = s.getR g := rfl
@[simp] theorem State.getF_modRouter (s : State) (n : Nat) (f : RouterSt → RouterSt) (g : FieldRef) : (s.modRouter n f).getF g = s.getF g := rfl
@[simp] theorem State.flag_modRouter (s : State) (n : Nat) (f : RouterSt → RouterSt) (g : FieldRef) : (s.modRouter n f).flag g = s.flag g := rfl
@[simp] theorem State.arr_modRouter (s : State) (n : Nat) (f : RouterSt → RouterSt) (j k : Nat) : (s.modRouter n f).arr j k = s.arr j k := rfl
@[simp] theorem State.tile_modRouter (s : State) (n : Nat) (f : RouterSt → RouterSt) (j : Nat) : (s.modRouter n f).tile j = s.tile j := rfl
@[simp] theorem State.port_modRouter (s : State) (n : Nat) (f : RouterSt → RouterSt) (j : Nat) : (s.modRouter n f).port j = s.port j := rfl
@[simp] theorem State.prt_modRouter (s : State) (n : Nat) (f : RouterSt → RouterSt) (j : Nat) : (s.modRouter n f).prt j = s.prt j := rfl

end Sys2Proof.Machine
end

