-- ==== Sys2Proof/Laws/Ops.lean ====
section
/-! SUPPORT. The laws of the shared operations of Machine/Ops.lean: reads after writes, and for each operation what it can change. -/

namespace Sys2Proof.Machine

/-! ## Bits of a word -/

theorem bitsOf_lt (w : Word) (hi lo : Nat) : bitsOf w hi lo < 2 ^ (hi + 1 - lo) := Nat.mod_lt _ (Nat.two_pow_pos _)

/-- The bits of a number whose parts above, in and below a field are given. -/
theorem field_of_parts (a v b lo n : Nat) (hb : b < 2 ^ lo) (hv : v < 2 ^ n) :
    (a * 2 ^ (lo + n) + v * 2 ^ lo + b) / 2 ^ lo % 2 ^ n = v := by
  have h1 : a * 2 ^ (lo + n) + v * 2 ^ lo + b = b + 2 ^ lo * (a * 2 ^ n + v) := by rw [pow_add]; ring
  rw [h1, Nat.add_mul_div_left _ _ (Nat.two_pow_pos lo), Nat.div_eq_of_lt hb, Nat.zero_add, Nat.add_comm,
    Nat.add_mul_mod_self_right, Nat.mod_eq_of_lt hv]

/-- What `withBits` makes is below 2^32, when the field lies in the word. -/
theorem withBits_lt (w : Word) (hi lo v : Nat) (h : hi < 32) (hl : lo ≤ hi) :
    w.toNat / 2 ^ (hi + 1) * 2 ^ (hi + 1) + v % 2 ^ (hi + 1 - lo) * 2 ^ lo + w.toNat % 2 ^ lo < 2 ^ 32 := by
  have hw := w.isLt
  have hv : v % 2 ^ (hi + 1 - lo) < 2 ^ (hi + 1 - lo) := Nat.mod_lt _ (Nat.two_pow_pos _)
  have hb : w.toNat % 2 ^ lo < 2 ^ lo := Nat.mod_lt _ (Nat.two_pow_pos _)
  have hs : 2 ^ (hi + 1) = 2 ^ (hi + 1 - lo) * 2 ^ lo := by rw [← pow_add]; congr 1; omega
  have hmid : v % 2 ^ (hi + 1 - lo) * 2 ^ lo + w.toNat % 2 ^ lo < 2 ^ (hi + 1) := by
    rw [hs]
    calc _ < v % 2 ^ (hi + 1 - lo) * 2 ^ lo + 2 ^ lo := Nat.add_lt_add_left hb _
      _ = (v % 2 ^ (hi + 1 - lo) + 1) * 2 ^ lo := by ring
      _ ≤ _ := Nat.mul_le_mul_right _ hv
  have hq : w.toNat / 2 ^ (hi + 1) < 2 ^ (32 - (hi + 1)) := by
    apply Nat.div_lt_of_lt_mul
    rw [← pow_add]
    have : hi + 1 + (32 - (hi + 1)) = 32 := by omega
    rw [this]; exact hw
  have hp : 2 ^ 32 = 2 ^ (32 - (hi + 1)) * 2 ^ (hi + 1) := by rw [← pow_add]; congr 1; omega
  rw [hp, Nat.add_assoc]
  calc _ < w.toNat / 2 ^ (hi + 1) * 2 ^ (hi + 1) + 2 ^ (hi + 1) := Nat.add_lt_add_left hmid _
    _ = (w.toNat / 2 ^ (hi + 1) + 1) * 2 ^ (hi + 1) := by ring
    _ ≤ _ := Nat.mul_le_mul_right _ hq

@[simp] theorem bitsOf_withBits (w : Word) (hi lo v : Nat) (h : hi < 32) (hl : lo ≤ hi) :
    bitsOf (withBits w hi lo v) hi lo = v % 2 ^ (hi + 1 - lo) := by
  unfold bitsOf withBits
  rw [BitVec.toNat_ofNat, Nat.mod_eq_of_lt (withBits_lt w hi lo v h hl)]
  have hk : hi + 1 = lo + (hi + 1 - lo) := by omega
  generalize hi + 1 - lo = n at *
  rw [hk]
  exact field_of_parts _ _ _ _ _ (Nat.mod_lt _ (Nat.two_pow_pos _)) (Nat.mod_lt _ (Nat.two_pow_pos _))

/-! ## Registers -/

@[simp] theorem State.getR_setR_same (s : State) (r : Reg) (w : Word) : (s.setR r w).getR r = w := by
  simp [State.getR, State.setR]

theorem State.getR_setR_other (s : State) (r g : Reg) (w : Word) (h : g.addr ≠ r.addr) : (s.setR r w).getR g = s.getR g := by
  simp [State.getR, State.setR, Sparse.get_set_other _ _ _ _ _ h]

theorem State.getF_setF_same (s : State) (f : FieldRef) (v : Nat) (h : f.hi < 32) (hl : f.lo ≤ f.hi) :
    (s.setF f v).getF f = v % 2 ^ (f.hi + 1 - f.lo) := by
  simp [State.getF, State.setF, h, hl]

theorem State.getR_setF_other (s : State) (f : FieldRef) (g : Reg) (v : Nat) (h : g.addr ≠ f.reg.addr) :
    (s.setF f v).getR g = s.getR g := State.getR_setR_other _ _ _ _ h

theorem State.getF_setF_other (s : State) (f g : FieldRef) (v : Nat) (h : g.reg.addr ≠ f.reg.addr) :
    (s.setF f v).getF g = s.getF g := by
  unfold State.getF; rw [State.getR_setF_other _ _ _ _ h]

/-! ## Units -/

@[simp] theorem State.tile_setTile_same (s : State) (t : Nat) (x : TileSt) : (s.setTile t x).tile t = x := by
  simp [State.tile, State.setTile]
theorem State.tile_setTile_other (s : State) (t k : Nat) (x : TileSt) (h : k ≠ t) : (s.setTile t x).tile k = s.tile k := by
  simp [State.tile, State.setTile, Sparse.get_set_other _ _ _ _ _ h]
@[simp] theorem State.tile_modTile_same (s : State) (t : Nat) (f : TileSt → TileSt) : (s.modTile t f).tile t = f (s.tile t) := by
  simp [State.modTile]
theorem State.tile_modTile_other (s : State) (t k : Nat) (f : TileSt → TileSt) (h : k ≠ t) : (s.modTile t f).tile k = s.tile k :=
  State.tile_setTile_other _ _ _ _ h
@[simp] theorem State.arr_setArr_same (s : State) (t a : Nat) (x : ArrSt) : (s.setArr t a x).arr t a = x := by
  simp [State.arr, State.setArr]
theorem State.arr_setArr_other (s : State) (t a u b : Nat) (x : ArrSt) (h : 128 * u + b ≠ 128 * t + a) :
    (s.setArr t a x).arr u b = s.arr u b := by
  simp [State.arr, State.setArr, Sparse.get_set_other _ _ _ _ _ h]
@[simp] theorem State.arr_modArr_same (s : State) (t a : Nat) (f : ArrSt → ArrSt) : (s.modArr t a f).arr t a = f (s.arr t a) := by
  simp [State.modArr]
theorem State.arr_modArr_other (s : State) (t a u b : Nat) (f : ArrSt → ArrSt) (h : 128 * u + b ≠ 128 * t + a) :
    (s.modArr t a f).arr u b = s.arr u b := State.arr_setArr_other _ _ _ _ _ _ h
@[simp] theorem State.port_setPort_same (s : State) (p : Nat) (x : PortSt) : (s.setPort p x).port p = x := by
  simp [State.port, State.setPort]
theorem State.port_setPort_other (s : State) (p k : Nat) (x : PortSt) (h : k ≠ p) : (s.setPort p x).port k = s.port k := by
  simp [State.port, State.setPort, Sparse.get_set_other _ _ _ _ _ h]
@[simp] theorem State.port_modPort_same (s : State) (p : Nat) (f : PortSt → PortSt) : (s.modPort p f).port p = f (s.port p) := by
  simp [State.modPort]
theorem State.port_modPort_other (s : State) (p k : Nat) (f : PortSt → PortSt) (h : k ≠ p) : (s.modPort p f).port k = s.port k :=
  State.port_setPort_other _ _ _ _ h
@[simp] theorem State.prt_setPrt_same (s : State) (n : Nat) (x : PartSt) : (s.setPrt n x).prt n = x := by
  simp [State.prt, State.setPrt]
theorem State.prt_setPrt_other (s : State) (n k : Nat) (x : PartSt) (h : k ≠ n) : (s.setPrt n x).prt k = s.prt k := by
  simp [State.prt, State.setPrt, Sparse.get_set_other _ _ _ _ _ h]
@[simp] theorem State.prt_modPrt_same (s : State) (n : Nat) (f : PartSt → PartSt) : (s.modPrt n f).prt n = f (s.prt n) := by
  simp [State.modPrt]
theorem State.prt_modPrt_other (s : State) (n k : Nat) (f : PartSt → PartSt) (h : k ≠ n) : (s.modPrt n f).prt k = s.prt k :=
  State.prt_setPrt_other _ _ _ _ h
@[simp] theorem State.router_setRouter_same (s : State) (t : Nat) (x : RouterSt) : (s.setRouter t x).router t = x := by
  simp [State.router, State.setRouter]
theorem State.router_setRouter_other (s : State) (t k : Nat) (x : RouterSt) (h : k ≠ t) :
    (s.setRouter t x).router k = s.router k := by
  simp [State.router, State.setRouter, Sparse.get_set_other _ _ _ _ _ h]
@[simp] theorem State.router_modRouter_same (s : State) (t : Nat) (f : RouterSt → RouterSt) :
    (s.modRouter t f).router t = f (s.router t) := by simp [State.modRouter]
theorem State.router_modRouter_other (s : State) (t k : Nat) (f : RouterSt → RouterSt) (h : k ≠ t) :
    (s.modRouter t f).router k = s.router k := State.router_setRouter_other _ _ _ _ h

/-! ## Repetition and conditions -/

@[simp] theorem State.each_nil {α : Type} (s : State) (f : State → α → State) : s.each [] f = s := rfl
@[simp] theorem State.each_cons {α : Type} (s : State) (x : α) (l : List α) (f : State → α → State) :
    s.each (x :: l) f = (f s x).each l f := rfl
@[simp] theorem State.when_true (s : State) (f : State → State) : s.when true f = f s := rfl
@[simp] theorem State.when_false (s : State) (f : State → State) : s.when false f = s := rfl

/-- What every repetition leaves alone, all of them leave alone. -/
theorem State.each_keeps {α β : Type} (p : State → β) (f : State → α → State) (h : ∀ s x, p (f s x) = p s) (l : List α) (s : State) :
    p (s.each l f) = p s := by
  induction l generalizing s with
  | nil => rfl
  | cons x l ih => rw [State.each_cons, ih, h]

/-- What holds before and is kept by every repetition, holds after. -/
theorem State.each_inv {α : Type} (P : State → Prop) (f : State → α → State) (h : ∀ s x, P s → P (f s x)) (l : List α) (s : State)
    (hs : P s) : P (s.each l f) := by
  induction l generalizing s with
  | nil => exact hs
  | cons x l ih => exact ih _ (h _ _ hs)

/-- See `State.each_keeps`. -/
theorem State.when_keeps {β : Type} (p : State → β) (f : State → State) (h : ∀ s, p (f s) = p s) (b : Bool) (s : State) :
    p (s.when b f) = p s := by cases b <;> simp [h]

/-- See `State.each_inv`. -/
theorem State.when_inv (P : State → Prop) (f : State → State) (h : ∀ s, P s → P (f s)) (b : Bool) (s : State) (hs : P s) :
    P (s.when b f) := by cases b <;> simp [h, hs]

/-! ## The event log -/

/-- A report changes the log and, when it is lost, LOG_LOST. -/
theorem State.ingest_only (s : State) (e : Entry) :
    s.ingest e = { s with log := (s.ingest e).log, regs := (s.ingest e).regs } := by
  unfold State.ingest
  split
  · rfl
  · split
    · rfl
    · split
      · rfl
      · split <;> rfl

theorem State.countCode_only (s : State) (c : Nat) : s.countCode c = { s with log := (s.countCode c).log } := by
  unfold State.countCode; split <;> rfl

/-- See `State.ingest_only`. -/
theorem State.report_only (s : State) (a b c d e f : Nat) :
    s.report a b c d e f = { s with log := (s.report a b c d e f).log, regs := (s.report a b c d e f).regs } := by
  unfold State.report
  rw [State.ingest_only]
  rw [State.countCode_only s b]

theorem State.logEv_only (s : State) (a b c d : Nat) :
    s.logEv a b c d = { s with log := (s.logEv a b c d).log, regs := (s.logEv a b c d).regs } := State.report_only s a b c 0 0 d

theorem State.logTile_only (s : State) (t u c d : Nat) :
    s.logTile t u c d = { s with log := (s.logTile t u c d).log, regs := (s.logTile t u c d).regs } :=
  State.report_only s _ _ _ 0 0 d

/-- While the ingest queue holds fewer than 256 reports, a report is its last entry and nothing else changes (R377). -/
theorem State.ingest_room (s : State) (e : Entry) (h : s.log.ingest.length < 256) :
    s.ingest e = { s with log := { s.log with ingest := s.log.ingest ++ [e] } } := by
  unfold State.ingest; rw [if_pos h]

/-! ## Messages, replies and interrupts -/

theorem State.sendMsg_only (s : State) (m : LinkMsg) : s.sendMsg m = { s with linkOut := (s.sendMsg m).linkOut } := rfl

@[simp] theorem State.sendMsg_linkOut (s : State) (m : LinkMsg) :
    (s.sendMsg m).linkOut = s.linkOut ++ [{ m with dest := s.redirect m.dest }] := rfl

theorem State.sendRime_only (s : State) (a b c d : Nat) (w : List Word) :
    s.sendRime a b c d w = { s with rimeOut := rimeQueue s.rimeOut ⟨a, b, c, d, w⟩ } := rfl

theorem State.reply_only (s : State) (x : Sender) (tag : BitVec 32) (st d : Nat) (p : Bytes) :
    s.reply x tag st d p = { s with replies := s.replies ++ [⟨x, tag, st, s.slot, d, p⟩] } := rfl

theorem State.irqSend_only (s : State) (n v c : Nat) :
    s.irqSend n v c = { s with linkOut := (s.irqSend n v c).linkOut, parts := (s.irqSend n v c).parts } := rfl

/-- An interrupt event changes the partition's coalescing and the messages sent (R344). -/
theorem State.irq_only (s : State) (n c : Nat) :
    s.irq n c = { s with linkOut := (s.irq n c).linkOut, parts := (s.irq n c).parts } := by
  unfold State.irq
  split
  · rfl
  · dsimp only
    split
    · rfl
    · split <;> rfl

/-! ## Counters -/

theorem State.ctrSet_only (s : State) (lo v : Nat) : s.ctrSet lo v = { s with ctr := (s.ctrSet lo v).ctr } := rfl

theorem State.pcAdd_only (s : State) (t k n : Nat) :
    s.pcAdd t k n = { s with ctr := (s.pcAdd t k n).ctr, regs := (s.pcAdd t k n).regs } := by
  simp only [State.pcAdd]
  split
  · simp only [State.ctrSet]
  · split <;> simp only [State.ctrSet, State.setR]

/-- Counting changes counters and the overflow bits (R454, R456). -/
theorem State.count_only (s : State) (t c j : Nat) (l : Option Nat) (n : Nat) :
    s.count t c j l n = { s with ctr := (s.count t c j l n).ctr, regs := (s.count t c j l n).regs } := by
  unfold State.count
  split
  · rfl
  · rename_i h
    clear h
    generalize (List.range 16).filter _ = ks
    induction ks generalizing s with
    | nil => rfl
    | cons k ks ih =>
      rw [List.foldl_cons]
      rw [ih]
      rw [State.pcAdd_only]

/-! ## HBM4 -/

/-- A byte after a write of bytes (R16). -/
theorem State.hbmByte_hbmWrite (s : State) (a k : Nat) (bs : Bytes) :
    (s.hbmWrite a bs).hbmByte k = if a ≤ k ∧ k < a + bs.length then bs.getD (k - a) 0 else s.hbmByte k := by
  simp [State.hbmByte, State.hbmWrite, Sparse.get_setRange]

/-- A byte after a range has been zeroed. -/
theorem State.hbmByte_hbmZero (s : State) (a n k : Nat) :
    (s.hbmZero a n).hbmByte k = if a ≤ k ∧ k < a + n then 0 else s.hbmByte k := by
  unfold State.hbmByte State.hbmZero Sparse.get
  by_cases h : a ≤ k ∧ k < a + n
  · rw [if_pos h, Sparse.lookup_filter_drop _ _ _ (by intro v; simp; omega)]; rfl
  · rw [if_neg h, Sparse.lookup_filter_keep _ _ _ (by intro v; simp; omega)]

/-- Both keep the canonical form of the memory. -/
theorem State.hbmWrite_wf (s : State) (a : Nat) (bs : Bytes) (h : Sparse.wf (fun _ => (0 : Byte)) s.hbm = true) :
    Sparse.wf (fun _ => (0 : Byte)) (s.hbmWrite a bs).hbm = true := Sparse.wf_setRange _ _ _ _ _ h
/-- See `State.hbmWrite_wf`. -/
theorem State.hbmZero_wf (s : State) (a n : Nat) (h : Sparse.wf (fun _ => (0 : Byte)) s.hbm = true) :
    Sparse.wf (fun _ => (0 : Byte)) (s.hbmZero a n).hbm = true := Sparse.wf_filter _ _ _ h

end Sys2Proof.Machine
end

