-- ==== Sys2Proof/Laws/Units.lean ====
section
/-! SUPPORT. The laws of the units' own operations: the digital engine's prediction, a link port's lanes, the rime queue,
a request's HBM4 bursts, lost KV pages, the image salt. -/

namespace Sys2Proof.Machine

/-! ## The digital engine's check (R150) -/

theorem residue15_cast (x : Int) : ((residue15 x : Nat) : Int) = x % 15 :=
  Int.toNat_of_nonneg (Int.emod_nonneg _ (by decide))

/-- A sum of products and the sum of the products of their residues have one residue. -/
theorem residue15_sum (f g : Nat → Int) (l : List Nat) (n : Int) (m : Nat) (h : (m : Int) % 15 = n % 15) :
    ((l.foldl (fun k i => k + residue15 (f i) * residue15 (g i)) m : Nat) : Int) % 15 =
      (l.foldl (fun k i => k + f i * g i) n) % 15 := by
  induction l generalizing n m with
  | nil => exact h
  | cons i l ih =>
    rw [List.foldl_cons, List.foldl_cons]
    apply ih
    push_cast
    rw [residue15_cast, residue15_cast, Int.add_emod, h, ← Int.mul_emod, ← Int.add_emod]

/-- The engine delivers every narrow value that it computes: the residue of a right one is the predicted one. -/
@[simp] theorem deFormed_eq (x : DeBuf) (cls : Nat) (r : Bytes) (j : Nat) : deFormed x cls r j = some (deNarrow x cls r j) := by
  unfold deFormed
  rw [if_pos]
  have h := residue15_sum (fun i => runElem cls r i) (fun i => x.weight i j) (List.range 64) 0 0 rfl
  unfold deNarrow dePredict
  have h2 := residue15_cast ((List.range 64).foldl (fun n i => n + runElem cls r i * x.weight i j) 0)
  omega

/-! ## The rime queue (R214) -/

/-- A message that joins is one of those that wait, and no other one leaves. -/
theorem mem_rimeQueue (l : List RimeMsg) (m x : RimeMsg) : x ∈ rimeQueue l m ↔ x = m ∨ x ∈ l := by
  unfold rimeQueue
  conv_rhs => rw [← List.takeWhile_append_dropWhile (p := fun x => decide (rimeRank x.type ≤ rimeRank m.type)) (l := l)]
  simp only [List.mem_append, List.mem_cons]
  tauto

/-! ## Bursts of HBM4 (R339, R340) -/

/-- Drawing bursts touches the drawing partition's record alone. -/
theorem State.hbmPay_spec (s : State) (n a need key : Nat) :
    s.hbmPay n a need key = s ∨ ∃ f, s.hbmPay n a need key = s.modPrt n f := by
  unfold State.hbmPay
  split
  · exact .inl rfl
  · exact .inr ⟨_, rfl⟩

/-- Outside locked cadence no bucket is drawn from, and every request is served. -/
theorem State.hbmPay_free (s : State) (n a need key : Nat) (h : s.locked = false) :
    s.hbmServed n a need key = true ∧ s.hbmPay n a need key = s := by
  simp [State.hbmServed, State.hbmPay, h]

/-- In locked cadence a request of which no burst is served yet waits on empty buckets. -/
theorem State.hbmServed_empty (s : State) (n a need key : Nat) (h : s.locked = true) (hw : (s.prt n).bucketW = 0)
    (he : (s.prt n).bucketE = 0) (hp : Sparse.get (fun _ => 0) (s.prt n).hbmPaid key = 0) (hn : 0 < need) :
    s.hbmServed n a need key = false := by
  simp [State.hbmServed, State.bucketOf, h, hw, he, hp]
  omega

/-! ## Lost KV pages and the image salt (R321, R435) -/

/-- A request over the loss of pages keeps its tag, and is as it was or restarts. -/
theorem State.kvOver_spec (s : State) (n f : Nat) (r : Request) :
    (s.kvOver n f r).tag = r.tag ∧ (s.kvOver n f r = r ∨ r.active = true ∧ (s.kvOver n f r).state = .restart) := by
  unfold State.kvOver
  split
  · rename_i h
    exact ⟨rfl, .inr ⟨by simp_all, rfl⟩⟩
  · exact ⟨rfl, .inl rfl⟩

/-- The loss of pages touches the services of the partition alone. -/
theorem State.kvRestart_spec (s : State) (n f : Nat) (sel : Request → Bool) :
    ∃ g, s.kvRestart n f sel = s.modPrt n (fun x => { x with svcs := x.svcs.map g }) := ⟨_, rfl⟩

/-- After power-on there is an image salt, and one that was there stays. -/
theorem State.saltOn_spec (s : State) :
    s.saltOn.firn.imageSalt.isSome = true ∧ (s.firn.imageSalt.isSome = true → s.saltOn = s) := by
  unfold State.saltOn
  split <;> simp_all

end Sys2Proof.Machine
end

