-- ==== Sys2Proof/WellFormed.lean ====
section
/-! DEFINITION. Well-formed commands: those whose operands have a value that their sender can give, by the widths and ranges of the fields
that carry them. What the module answers to a command that is well-formed and still wrong (BAD_PARAM, a discard) is its meaning's. -/

namespace Sys2Proof

/-- A number that a field of four bytes holds. -/
def fits4 (k : Nat) : Bool := decide (k < 2 ^ 32)
/-- A number that a field of eight bytes holds. -/
def fits8 (k : Nat) : Bool := decide (k < 2 ^ 64)

/-- The parameters of a command fit LENGTH (Table 10.1). -/
def paramsFit (k : Nat) : Bool := decide (k ≤ 61408)

/-- A key message's payload: what the fragments of one message carry, at most 255 fragments of 60 bytes (R440). -/
def keyMsgWf (payload : Bytes) : Bool := decide (payload.length ≤ 15300)

/-- A command's header: a slot (Table 8.2) or a function (R250) sends it, and RBUF_LEN has four bytes (R298). -/
def CmdHdr.wf (h : CmdHdr) : Bool :=
  (match h.sender with
   | .host f => decide (f < 64)
   | .slot d => decide (d < 1024)) && fits4 h.rbuf

/-- The further fields of QA4 (R178): the loader refuses L outside 0x01 to 0xFE, K above 16 and SEG above 2. -/
def QuantArgs.wf (q : QuantArgs) : Bool :=
  decide (1 ≤ q.l.toNat ∧ q.l.toNat ≤ 0xFE) && decide (q.k ≤ 16) && decide (q.seg ≤ 2) && fits4 q.off

/-- A row operation's range (R176). -/
def rowSpan (first : Fin 1024) (count last : Nat) : Bool := decide (1 ≤ count ∧ count ≤ 1024 ∧ first.val + count ≤ last)

/-- A log entry's fields have the widths of Table 13.6. -/
def entryWf (e : Machine.Entry) : Bool :=
  fits4 e.subns && decide (e.source < 65536) && decide (e.code < 65536) && decide (e.part < 256) && decide (e.flags < 256) && fits4 e.tag

/-- A command is well-formed. -/
def Instr.wf : Instr → Bool
  | .powerOn => true
  | .presenceMade => true
  | .presenceBreak => true
  | .resetN => true
  | .wakeN => true
  | .inputLoss _ => true
  | .inputRecovery => true
  | .supplyWarning _ _ => true
  | .supplyWarningRelease _ _ _ => true
  | .supplyHoldEnd => true
  | .supplyReset _ _ _ => true
  | .supplyResetRecovery => true
  | .sensorSample _ _ _ => true
  | .reqKeepalive => true
  | .pwrDomReqWrite _ _ _ => true
  | .domainSwitchDone _ => true
  | .hkTimerExpiry => true
  | .pwmEvent _ => true
  | .pwmDelayExpiry _ => true
  | .hkConversionDone _ => true
  | .hkUrgentWrite _ => true
  | .hkFifoRead => true
  | .hkCmpWrite _ _ _ => true
  | .thmCfgWrite _ => true
  | .supCfgWrite _ => true
  | .pwrInstallSave => true
  | .cadenceRelease => true
  | .beatWordIssue _ => true
  | .windowBoundary _ => true
  | .stretchChange => true
  | .glbTmapCtrlArm _ => true
  | .tileTcEntryWrite _ _ _ => true
  | .programStart _ => true
  | .mul _ _ _ _ _ => true
  | .conversionEnd _ _ => true
  | .segmentClose _ _ => true
  | .scaleLineRestored _ _ => true
  | .arbitrationDone _ _ => true
  | .spareLive _ _ _ => true
  | .spareAssign _ _ _ _ => true
  | .spareRelease _ _ _ => true
  | .rowPortAccess _ _ => true
  | .arrPortReadRow _ _ _ => true
  | .arrPortWriteRow _ _ _ => true
  | .arrPortReadScaleLine _ _ _ => true
  | .arrPortWriteScaleLine _ _ _ => true
  | .arrCfgWrite _ _ _ => true
  | .scrubRead _ _ => true
  | .suspectRowRewritten _ _ _ => true
  | .cal _ _ => true
  | .calIntervalEnd _ _ => true
  | .forcedCalSetInsert _ _ => true
  | .initialCalibrationDone _ _ => true
  | .canaryInterval _ _ => true
  | .canaryMultiply _ _ => true
  | .tileStoreWordRestored _ _ => true
  | .tileStoreScrub _ => true
  | .tileRegionWrite _ _ => true
  | .pageCacheFill _ _ => true
  | .pfCtrlPush _ _ => true
  | .pfCtrlStop _ _ => true
  | .descriptorStart _ _ => true
  | .chunkIssue _ _ => true
  | .chunkLand _ _ _ _ => true
  | .cqCfgWrite _ _ _ => true
  | .deLoadw _ _ _ _ => true
  | .deRun _ _ _ _ _ _ _ _ => true
  | .deDrain _ _ _ _ _ => true
  | .deClear _ _ _ => true
  | .vuFma _ _ => true
  | .vuAdd _ _ => true
  | .vuMul _ _ => true
  | .vuMin _ _ => true
  | .vuMax _ _ => true
  | .vuSub _ _ => true
  | .vuIadd _ _ => true
  | .vuIsub _ _ => true
  | .vuAnd _ _ => true
  | .vuOr _ _ => true
  | .vuXor _ _ => true
  | .vuShl _ _ => true
  | .vuShr _ _ => true
  | .vuSra _ _ => true
  | .vuCmplt _ _ => true
  | .vuCmpeq _ _ => true
  | .vuSel _ _ => true
  | .vuImul _ _ => true
  | .vuCvt16 _ _ => true
  | .vuCvt32 _ _ => true
  | .vuCvti2f _ _ => true
  | .vuCvtf2i _ _ => true
  | .qa4 _ _ q => q.wf
  | .qa8 _ _ _ off => fits4 off
  | .vuExp2 _ _ => true
  | .vuLog2 _ _ => true
  | .vuRecip _ _ => true
  | .vuRsqrt _ _ => true
  | .vuSqrt _ _ => true
  | .vuSin _ _ => true
  | .vuCos _ _ => true
  | .vuTanh _ _ => true
  | .vuRsum _ _ => true
  | .vuRmax _ _ => true
  | .vuRmin _ _ => true
  | .vuPsum _ _ => true
  | .vuPerm _ _ => true
  | .vuSort _ _ => true
  | .vuRand _ _ => true
  | .vuLd _ _ off => fits4 off
  | .vuSt _ _ off => fits4 off
  | .vuLdb _ _ off => fits4 off
  | .tcNop _ => true
  | .tcAdd _ => true
  | .tcSub _ => true
  | .tcAnd _ => true
  | .tcOr _ => true
  | .tcXor _ => true
  | .tcShl _ => true
  | .tcShr _ => true
  | .tcSra _ => true
  | .tcSlt _ => true
  | .tcSltu _ => true
  | .tcMul _ => true
  | .tcMulh _ => true
  | .tcAddi _ => true
  | .tcAndi _ => true
  | .tcOri _ => true
  | .tcLui _ => true
  | .tcLd _ => true
  | .tcSt _ => true
  | .tcRdr _ => true
  | .tcWrr _ => true
  | .synop _ => true
  | .pfpush _ => true
  | .tcBeq _ => true
  | .tcBne _ => true
  | .tcBlt _ => true
  | .tcBge _ => true
  | .tcJal _ => true
  | .tcJr _ => true
  | .tcHalt _ => true
  | .tcRefusedOp _ _ => true
  | .aopnd _ _ _ => true
  | .ares _ _ _ => true
  | .xfer _ _ _ _ => true
  | .hst _ _ _ _ => true
  | .pfq _ _ _ => true
  | .rsend _ _ => true
  | .rsendi _ _ => true
  | .lsend _ _ _ _ _ => true
  | .lsendc _ _ _ _ _ => true
  | .signal _ _ _ => true
  | .wait _ _ _ => true
  | .arrive _ _ _ => true
  | .bwait _ _ _ => true
  | .eset _ _ _ => true
  | .eclr _ _ _ => true
  | .ewait _ _ _ => true
  | .cnry _ _ => true
  | .cmpw _ _ => true
  | .cqchk _ _ _ => true
  | .chkMark _ _ => true
  | .linkEngineGrant _ _ _ _ => true
  | .hbmEngineGrant _ _ _ => true
  | .flitReceive _ _ _ _ => true
  | .reductionAdd _ _ _ => true
  | .reductionLanding _ _ => true
  | .applyBeat => true
  | .freeze _ => true
  | .snapshot _ => true
  | .unfreeze _ => true
  | .partBegin _ _ => true
  | .partEnd _ _ => true
  | .tileReset _ _ => true
  | .fault _ _ _ _ => true
  | .late _ _ => true
  | .cadence _ _ => true
  | .stretch _ => true
  | .sync _ _ _ _ _ => true
  | .syncAck _ _ => true
  | .event _ _ _ => true
  | .rimeUnknownType _ _ => true
  | .linkFlitReceive _ _ _ => true
  | .linkFlitSend _ => true
  | .init _ _ pools n l256 => decide (pools.length = 6) && pools.all (fun k => decide (k < 65536)) && decide (n < 256) && decide (l256 < 65536)
  | .replay _ _ => true
  | .replayRepeatTimer _ => true
  | .echo _ _ _ => true
  | .echoReply _ _ _ _ => true
  | .lanes _ _ => true
  | .lanesAck _ _ => true
  | .linkDrain _ => true
  | .laneFail _ _ => true
  | .lastLaneRetrainTimeout _ => true
  | .portReset _ => true
  | .drainWaitEnd _ => true
  | .markSend => true
  | .markReceive _ _ => true
  | .markLoss => true
  | .reqReceive _ _ _ => true
  | .cadenceLate _ _ _ _ => true
  | .masterTakeover => true
  | .silentSlot _ => true
  | .domainJoinTimeout _ => true
  | .topoInfoTimeout => true
  | .syncRemote _ _ _ _ _ => true
  | .mbxMsg _ _ data => decide (data.length = 16)
  | .mbxDone _ _ => true
  | .irqRaise _ _ _ _ _ => true
  | .topoQuery _ _ off max => fits4 off && decide (max ≤ 61000)
  | .topoInfo _ total off data => fits4 total && fits4 off && decide (data.length ≤ 61000)
  | .echoE2e _ _ _ => true
  | .echoE2eReply _ _ _ _ => true
  | .join _ _ _ _ => true
  | .domainRun _ leftOut => leftOut.all (fun k => decide (k < 1024))
  | .laneReport _ _ _ _ => true
  | .variant _ _ _ => true
  | .shardSeg _ _ off _ data => fits4 off && fits4 data.length
  | .shardReq _ _ _ off len _ => fits4 off && fits4 len
  | .loadDeadline _ => true
  | .swapCtrlQuery _ _ _ => true
  | .swapCtrlStaged _ _ _ => true
  | .swapCtrlStageFailed _ _ _ _ _ => true
  | .swapCtrlLayersDone _ _ _ => true
  | .swapCtrlCommit _ _ => true
  | .swapCtrlRollback _ _ _ => true
  | .swapCtrlRolledBack _ _ _ => true
  | .swapFront _ _ _ _ _ => true
  | .layerDrained _ _ => true
  | .layerRewriteDone _ _ => true
  | .swapLimitExpiry _ => true
  | .loaderRowWrite _ _ _ _ _ => true
  | .firnImageWriteDone _ => true
  | .arrayVerified _ _ => true
  | .logBatch _ entries => decide (1 ≤ entries.length ∧ entries.length ≤ 7) && entries.all entryWf
  | .ctrApply _ _ => true
  | .hold _ _ _ _ _ => true
  | .failed _ _ _ => true
  | .resume _ _ => true
  | .mirrorRec _ _ _ _ off data => fits8 off && fits4 data.length
  | .managementUnknownSubtype _ _ => true
  | .functionLevelReset _ => true
  | .pcieLinkDown => true
  | .msixUnmask _ _ => true
  | .commandFetch _ entry => decide (entry.length = 128)
  | .relayReply _ _ _ _ payload => decide (payload.length ≤ 61424)
  | .streamRecordWrite _ svc read _ => fits4 svc && fits4 read
  | .commandBadOpcode h _ => h.wf
  | .ping h => h.wf
  | .query h _ => h.wf
  | .regRead h _ _ => h.wf
  | .regWrite h _ _ words => h.wf && paramsFit (8 + 4 * words.length)
  | .syncOp h _ _ _ => h.wf
  | .partCreate h desc => h.wf && paramsFit (desc.length)
  | .partDestroy h => h.wf
  | .partDestroyZeroDone _ => true
  | .partReset h => h.wf
  | .partResetZeroDone _ => true
  | .partQos h ovr => h.wf && paramsFit (ovr.length)
  | .partIrq h _ _ _ => h.wf
  | .irqCoalesceTimeout _ _ => true
  | .topoGet h => h.wf
  | .topoPut h _ _ data => h.wf && paramsFit (8 + data.length)
  | .domainJoin h => h.wf
  | .domainLeave h => h.wf
  | .manifestPut h _ _ data => h.wf && paramsFit (8 + data.length)
  | .stage h _ => h.wf
  | .shardPut h _ _ data => h.wf && paramsFit (8 + data.length)
  | .swap h _ => h.wf
  | .progPut h _ data => h.wf && paramsFit (8 + data.length)
  | .progLoad h _ => h.wf
  | .progStart h _ => h.wf
  | .progStop h => h.wf
  | .progVariant h _ => h.wf
  | .svcOpen h desc => h.wf && paramsFit (desc.length)
  | .svcClose h _ => h.wf
  | .reqSubmit h desc prompt _ => h.wf && paramsFit (desc.length + prompt.length)
  | .reqCancel h _ => h.wf
  | .streamCfg h _ _ _ => h.wf
  | .logRead h _ _ => h.wf
  | .moulinCfg h desc => h.wf && paramsFit (desc.length)
  | .ctrCfg h _ _ _ => h.wf
  | .ctrSnap h _ _ => h.wf
  | .nvRead h _ _ => h.wf
  | .fwPut h _ _ data => h.wf && paramsFit (8 + data.length)
  | .fwActivate h => h.wf
  | .fwHandover => true
  | .fwActivationTimeout => true
  | .fuseBlow => true
  | .attest h _ => h.wf
  | .certGet h => h.wf
  | .debugOpen h token _ => h.wf && paramsFit (token.length)
  | .debugEraseDone _ => true
  | .debugLockoutEnd => true
  | .pwrStateRun h => h.wf
  | .pwrStateIdle h => h.wf
  | .idleEntry => true
  | .pwrStateRetain h => h.wf
  | .pwrStateDeep h => h.wf
  | .pwrWakeGo => true
  | .tileRetire h _ => h.wf
  | .retirementLoadDone _ _ _ => true
  | .standbyReady _ _ => true
  | .ejectPrep h _ => h.wf
  | .logDrainDone => true
  | .resetWarm h => h.wf
  | .resetModule h => h.wf
  | .thermalClear h => h.wf
  | .sendCtrlGo _ _ _ => true
  | .recvCtrlDone _ _ _ => true
  | .syncObjWrite _ _ => true
  | .kvAlloc _ _ _ count => decide (1 ≤ count ∧ count ≤ 1024)
  | .kvFree _ _ _ page => fits4 page
  | .kvRead _ _ _ page off len => fits4 page && fits4 off && decide (off % 64 = 0 ∧ len % 64 = 0 ∧ len ≤ 61376)
  | .kvWrite _ _ _ page off data => fits4 page && fits4 off && decide (off % 64 = 0 ∧ data.length % 64 = 0 ∧ data.length ≤ 61376)
  | .kvPageReply _ _ _ _ pages data => pages.all fits4 && decide (data.length ≤ 61424)
  | .hbmBurst _ addr _ _ => decide (addr % 64 = 0)
  | .hbmLineRestored _ data => decide (data.length = 4096)
  | .logReport e => entryWf e
  | .logWrite => true
  | .moulinBatch _ => true
  | .spillDrain => true
  | .tenantKey _ payload => keyMsgWf payload
  | .manifestKeyAdd _ payload => keyMsgWf payload
  | .manifestKeyRemove _ payload => keyMsgWf payload
  | .operatorKeySet _ payload => keyMsgWf payload
  | .operatorKeyRevoke _ payload => keyMsgWf payload
  | .secSessCtrlGo => true
  | .secSessCtrlEnd => true
  | .counterLoRead _ => true
  | .cadBeatLoRead => true
  | .partWgtEpochLoRead _ => true
  | .tileSeqLagRead _ => true
  | .cadAlignRead => true
  | .smbusRegisterRead _ _ => true
  | .smbusRegisterWrite _ _ _ => true
  | .smbusFirmwareChunk _ data _ => decide (data.length ≤ 24)
  | .smbusBlockRead => true
  | .registerWrite _ addr _ => decide (addr < 0x100000000)
  | .wrrow _ _ first count _ => rowSpan first count 1024
  | .wrscale _ _ first count _ => rowSpan first count 32
  | .rdrow _ _ first count _ => rowSpan first count 1024
  | .resetNRelease => true
  | .fwIntakeResumed => true
  | .linkTrainingDone _ _ => true
  | .holdUpExhausted => true
  | .presenceContactEdge _ _ => true
  | .setPointHoldEnd => true

end Sys2Proof
end

