-- ==== Sys2Proof/Tests/Slice0.lean ====
section
/-! SUPPORT. The model's own tests: ill-formed commands that the well-formedness check refuses; for the statements that have hypotheses,
states and operands that meet them, clause by clause; and single steps on small states, with what the spec says of them. A clause whose
hypothesis speaks of a value that the spec leaves open (a signature, a digest: constants without a body) has no witness that can be
computed. -/

namespace Sys2Proof.Tests

open Sys2Proof Sys2Proof.Machine
set_option Elab.async false

/-! ## States -/

/-- Power is there and firmware runs. -/
def up : PwrSt :=
  { booted := true, island := true, cores := true, railsOn := true, inputGood := true, hotSwap := true, presA := true, presB := true }
/-- A module that runs, with tile pair 0 powered. -/
def on : State := ({ State.reset with pwr := up } : State).setF (F.pwrDomState 0) 2
/-- The same in locked cadence. -/
def locked : State := on.setFlag F.cadCfgLocked true
/-- Array 3 of tile 0 changed. -/
def withArr (f : ArrSt → ArrSt) : State := on.modArr 0 3 f
/-- Tile 0 changed. -/
def withTile (f : TileSt → TileSt) : State := on.modTile 0 f
/-- A command of another slot that names partition 1. -/
def hdr : CmdHdr := ⟨.slot 5, 0, 1, 7, 0, 0⟩
/-- Partition 1 with tile 0, and a program of it in a state. -/
def own (k : Nat) (s : State) : State := ((s.setF (F.partCfgState 1) 1).setR (R.partTiles 1 0) 1).setF (F.partProgStatusState 1) k
/-- A program of partition 1 runs on tile 0, with a layer slot and a COMPAT flag as given. -/
def runs (l : LayerSlot) (c : Bool) (s : State) : State := (own 2 s).modPrt 1 (fun x => { x with prog := some { compat := c, layers := [l] } })

/-! ## Witnesses: lamlet arrays -/

/-- An array that can multiply. -/
def ready : State := (withArr (fun x => { x with opQ := [{}] })).setFlag (F.arrStatusCalValid 0 3) true

theorem wit_MultiplyStartsInReadyArrays :
    ready.tileRuns 0 = true ∧
    (∀ a ∈ maskArrays 8, (ready.arr 0 a).opQ ≠ [] ∧ (ready.arr 0 a).resQ.length < 2 ∧ (ready.arr 0 a).mul = none ∧
      (ready.arr 0 a).writesWait = false ∧ ready.flag (F.arrStatusCalValid 0 a) = true) ∧
    (on.tileRuns 0 = true ∧ ∃ a ∈ maskArrays 8, (on.arr 0 a).opQ = [] ∨ 2 ≤ (on.arr 0 a).resQ.length ∨ (on.arr 0 a).mul ≠ none) := by
  and_intros <;> decide +kernel

/-- Array 3 of tile 0 with a multiply. -/
def multiplying (m : MulSt) : State := withArr (fun x => { x with mul := some m })

theorem wit_MultiplyGoesThroughItsSegments :
    ((multiplying {}).tileRuns 0 = true ∧ ((multiplying {}).arr 0 3).mul = some {} ∧ ({} : MulSt).closing = false ∧
      ({} : MulSt).wait = .none ∧ ({} : MulSt).entry.invalid = false ∧ ({} : MulSt).scale = 0 ∧
      ((multiplying {}).arr 0 3).exactSeg 0 ((multiplying {}).segSize 0 3) = false) ∧
    (∀ m ∈ [({ entry := { scales := 0xFF } } : MulSt)], (multiplying m).tileRuns 0 = true ∧ ((multiplying m).arr 0 3).mul = some m ∧ m.closing = false ∧
      m.wait = .none ∧ m.scale = 0xFF) ∧
    (∀ m ∈ [({ closing := true, residual := true, seg := 3 } : MulSt)], (multiplying m).tileRuns 0 = true ∧
      ((multiplying m).arr 0 3).mul = some m ∧ m.wait = .none ∧ m.scale = 0 ∧ (m.residual = true ∨ m.entry.rmask.getLsbD m.seg = false) ∧
      (multiplying m).segs 0 3 ≤ m.seg + 1 ∧
      ((multiplying m).arr 0 3).exactSeg (m.seg * (multiplying m).segSize 0 3) ((multiplying m).segSize 0 3) = false) ∧
    (∀ m ∈ [({ wait := .scaleLine 31 } : MulSt), { wait := .arbitration }], (multiplying m).tileRuns 0 = true ∧
      ((multiplying m).arr 0 3).mul = some m) := by
  and_intros <;> decide +kernel

theorem wit_RowPortAndScrub :
    (on.tileOn 0 = true ∧ on.flag (F.arrPortCmdBusy 0 3) = false ∧ (on.arr 0 3).portWait = [] ∧ (on.arr 0 3).mul = none ∧
      on.portBad 0 3 1023 = false ∧ (on.arr 0 3).lineBad 31 = false ∧ (on.arr 0 3).writesWait = false) ∧
    (∀ s ∈ [on.setFlag (F.arrPortCmdBusy 0 3) true], s.tileOn 0 = true ∧ s.flag (F.arrPortCmdBusy 0 3) = true) ∧
    (∀ s ∈ [withArr (fun x => { x with portWait := [.readRow 5] })], s.tileOn 0 = true ∧ (s.arr 0 3).nextPort = some (.readRow 5) ∧
      s.portBlocked 0 3 (.readRow 5) = false) ∧
    (∀ s ∈ [withArr (fun x => { x with scale := [(248, ⟨1, false⟩)] })], s.tileOn 0 = true ∧ s.flag (F.arrPortCmdBusy 0 3) = false ∧
      (s.arr 0 3).portWait = [] ∧ (s.arr 0 3).mul = none ∧ (s.arr 0 3).lineBad 31 = true) ∧
    (∀ s ∈ [withArr (fun x => { x with scale := [(248, ⟨1, false⟩)], portWait := [.readLine 31] })], s.tileOn 0 = true ∧
      (s.arr 0 3).mul = none ∧ (s.arr 0 3).portWait = [.readLine 31] ∧ (s.arr 0 3).lineBad 31 = true) ∧
    (∀ s ∈ [withArr (fun x => { x with suspects := [1023] })], s.tileOn 0 = true ∧ 1023 ∈ (s.arr 0 3).suspects ∧
      (s.arr 0 3).convDone (s.segs 0 3) = true ∧ (s.arr 0 3).fwWaits = false) ∧
    (∀ s ∈ [withArr (fun x => { x with suspects := [1023], portWait := [.readRow 5] })], s.tileOn 0 = true ∧
      (s.arr 0 3).convDone (s.segs 0 3) = true ∧ (s.arr 0 3).fwWaits = true) ∧
    (∀ s ∈ [withArr (fun x => { x with scrubPass := true })], s.tileOn 0 = true ∧ s.canVerify 0 3 = true) ∧
    (∀ s ∈ [multiplying {}], s.tileOn 0 = true ∧ (s.arr 0 3).mul ≠ none ∧ (s.arr 0 3).convDone (s.segs 0 3) = false) ∧
    (∀ s ∈ [multiplying { wait := .scaleLine 31, seg := 3, residual := true }, withArr (fun x => { x with rewrite := [1023] })],
      (s.arr 0 3).convDone (s.segs 0 3) = true ∧ (s.arr 0 3).fwWaits = false) := by
  and_intros <;> decide +kernel

theorem wit_SparesTakeTheirTargets :
    (on.tileOn 0 = true ∧ (0x80000005 : Word).getLsbD 31 = true ∧ on.flag (F.arrSpareMapValid 0 3 63) = false ∧
      bitsOf 0x80000005 10 0 < 1120 ∧ (colKind (bitsOf 0x80000005 10 0)).1 ≠ 2) ∧
    (∀ s ∈ [withArr (fun x => { x with fills := [⟨63, 5, false⟩] })],
      (s.arr 0 3).fills.find? (fun f => f.spare = 63 && !f.release) = some ⟨63, 5, false⟩) ∧
    (∀ s ∈ [on.setFlag (F.arrSpareMapValid 0 3 63) true], s.flag (F.arrSpareMapValid 0 3 63) = true) := by
  and_intros <;> decide +kernel

theorem wit_CalibrationAndCanaries :
    (∀ s ∈ [on.setFlag (F.arrStatusCalValid 0 3) true], s.tileRuns 0 = true ∧ (s.arr 0 3).calPaused = false ∧
      (8 : BitVec 128).getLsbD 3 = true ∧ (∀ b ∈ maskArrays 8, s.flag (F.arrStatusCalValid 0 b) = true)) ∧
    (∀ s ∈ [withArr (fun x => { x with cal := some { kind := .forced } })], s.tileRuns 0 = true ∧ (s.arr 0 3).calPaused = false ∧
      (s.arr 0 3).cal = some { kind := .forced }) ∧
    (on.flag (F.arrStatusCalValid 0 3) = false ∧ (on.arr 0 3).calPaused = false) ∧
    (∀ s ∈ [on.setFlag (F.arrCfgLoaded 0 3) true], s.tileRuns 0 = true ∧ s.flag (F.arrCfgLoaded 0 3) = true ∧ (s.arr 0 3).canary = none ∧
      s.getF F.pwrModeState ≠ 1) ∧
    (∀ s ∈ [(withArr (fun x => { x with canary := some { made := 2 } })).setFlag (F.arrStatusCalValid 0 3) true],
      s.tileRuns 0 = true ∧ (s.arr 0 3).canary = some { made := 2 } ∧ s.canaryReady 0 3 = true ∧ s.getF F.pwrModeState ≠ 1 ∧
      maskArrays 8 = [3]) := by
  and_intros <;> decide +kernel

theorem wit_RowOperationsOfTheBeatProgram :
    (rowRange 1023 2 1024 = false ∧ rowRange 31 2 32 = false) ∧
    (on.tileRuns 0 = true ∧ (on.arr 0 3).mul = none ∧ (on.arr 0 3).writesWait = false ∧ rowRange 1023 1 1024 = true ∧
      rowRange 31 1 32 = true ∧ on.soundAt 0 (0, 128) = true ∧ on.soundAt 0 (0, 64) = true ∧ (∀ i < 1, on.portBad 0 3 (1023 + i) = false) ∧
      on.actOk 0 (128 * 65535) 128 = true) := by
  and_intros <;> decide +kernel


/-! ## Witnesses: tile store, prefetchers, MOV and the digital engine -/

theorem wit_StoreRestoresRegionsAndPageCache :
    (∀ s ∈ [withTile (fun x => { x with store := [(1, { data := 1 })] })], ((s.tile 0).word 1).good = false ∧ (s.tile 0).deRun = none ∧
      8 * 1 < s.dwEnd 0) ∧
    (∀ s ∈ [withTile (fun x => { x with
        store := [(262144, { data := 1 })], writers := [(4096, ⟨7, 0, [], 2097152, leBytes 64 5⟩)] })],
      ((s.tile 0).word 262144).good = false ∧ (s.tile 0).deRun = none ∧ s.dwEnd 0 ≤ 8 * 262144 ∧ 8 * 262144 < s.scratchEnd 0 ∧
      (s.tile 0).rebuilt 262144 = some (leBytes 8 5)) ∧
    (∀ s ∈ [(withTile (fun x => { x with
        store := [(925184, { data := 1 })], pcache := [⟨77, 0, 15, 1⟩] })).setR (R.tileRegion 0) 0x00010010],
      ((s.tile 0).word 925184).good = false ∧ (s.tile 0).deRun = none ∧ s.dwEnd 0 ≤ 8 * 925184 ∧ s.scratchEnd 0 ≤ 8 * 925184 ∧
      (s.tile 0).pcache.find? (fun l => s.pcAddr 0 l.set l.way ≤ 8 * 925184 && 8 * 925184 < s.pcAddr 0 l.set l.way + 4096) =
        some ⟨77, 0, 15, 1⟩) ∧
    (on.tileOn 0 = true ∧ (on.tile 0).badWords (512 * (on.tile 0).scrubLine) 512 = []) ∧
    (∀ s ∈ [withTile (fun x => { x with pfills := [{ line := 9, pf := 0 }] })], (s.tile 0).pfills.find? (fun f => f.line = 9) = some { line := 9, pf := 0 } ∧
      s.linesGood (4096 * 9) 4096 = true ∧ s.hbmServed (s.ownerOf 0) (4096 * 9) 64 (tileKey 0 31 9) = true) ∧
    (∀ s ∈ [locked.modTile 0 (fun x => { x with pfills := [{ line := 9, pf := 0 }] })], s.linesGood (4096 * 9) 4096 = true ∧
      s.hbmServed (s.ownerOf 0) (4096 * 9) 64 (tileKey 0 31 9) = false) ∧
    (∀ s ∈ [{ withTile (fun x => { x with pfills := [{ line := 9, pf := 0 }] }) with hbmBad := [9] }], s.linesGood (4096 * 9) 4096 = false) ∧
    (∀ s ∈ [withTile (fun x => { x with pfills := [{ line := 9, pf := 0, stale := true }] })],
      (s.tile 0).pfills.find? (fun f => f.line = 9) = some { line := 9, pf := 0, stale := true }) := by
  and_intros <;> decide +kernel

/-- A descriptor of kind 0: 64 bytes a chunk, one chunk, ring at the start of the scratch region. -/
def desc0 : PfDesc := { w2 := 64, w3 := 1 }

theorem wit_PrefetchersAndCreditQueues :
    (on.tileOn 0 = true ∧ on.tileRuns 0 = true) ∧
    (∀ s ∈ [withTile (fun x => { x with pf := [(15, { queue := [desc0] })] })], s.tileRuns 0 = true ∧
      ((s.tile 0).pfSt 15).queue = desc0 :: [] ∧ ((s.tile 0).pfSt 15).started = false) ∧
    (∀ s ∈ [(withTile (fun x => { x with pf := [(15, { queue := [desc0], started := true })] })).setF (F.cqStateCredits 0 desc0.cq) 1],
      s.tileRuns 0 = true ∧ ((s.tile 0).pfSt 15).queue = desc0 :: [] ∧ ((s.tile 0).pfSt 15).started = true ∧
      1 ≤ s.getF (F.cqStateCredits 0 desc0.cq)) ∧
    (∀ c ∈ [({ num := 0, cq := 0, kind := 0, unit := 0, src := 0, dst := 2097152, size := 64 } : Chunk)],
      ∀ s ∈ [(withTile (fun x => { x with pf := [(15, { flight := [c] })] })).setF (F.cqStateInflight 0 0) 1],
      ((s.tile 0).pfSt 15).flight = [c] ∧ c.num = 0 ∧ c.landed = false ∧ c.kind = 0 ∧ c.done = none ∧
      s.hbmOwns (s.ownerOf 0) c.src c.size = true ∧ s.landOk 0 c = true ∧ s.linesGood c.src c.size = true ∧
      s.hbmServed (s.ownerOf 0) c.src (burstsOf c.src c.size) (tileKey 0 15 0) = true ∧
      1 ≤ s.getF (F.cqStateInflight 0 c.cq) ∧ (s.tile 0).deRun = none ∧
      s.locked = false ∧ (s.setFlag F.cadCfgLocked true).hbmOwns (s.ownerOf 0) c.src c.size = true ∧
      (s.setFlag F.cadCfgLocked true).hbmServed (s.ownerOf 0) c.src (burstsOf c.src c.size) (tileKey 0 15 0) = false) ∧
    (on.soundAt 0 (512 * 16383, 28) = true ∧ ((on.tile 0).pfSt 15).queue.length < 4) := by
  and_intros <;> decide +kernel

/-- An image of 256 results waits in array 3. -/
def results : State := withArr (fun x => { x with resQ := [{ vals := List.replicate 256 0 }] })

theorem wit_MovesAndChecks :
    (on.tileRuns 0 = true ∧ on.srcAddr 0 (.line 4096) = some 2097152 ∧ on.soundAt 0 (2097152, 2560) = true ∧
      (∀ b ∈ maskArrays 8, (on.arr 0 b).opQ.length < 2)) ∧
    ((results.arr 0 3).resQ = { vals := List.replicate 256 0 } :: [] ∧ logCols (results.mode 0 3) = 256 ∧
      results.actOk 0 (512 * 4096) (512 * aresLines (results.mode 0 3)) = true ∧ results.tileRuns 0 = true) ∧
    (on.soundAt 0 (2097152, 512 * (63 + 1)) = true ∧ on.actOk 0 2097152 (512 * (63 + 1)) = true ∧
      on.actOk 0 (512 * 4160) (512 * (63 + 1)) = true ∧ on.hbmOwns (on.ownerOf 0) 0 (512 * (63 + 1)) = true ∧
      on.hbmServed (on.ownerOf 0) 0 (8 * (63 + 1)) (tileKey 0 16 0) = true ∧
      locked.tileRuns 0 = true ∧ locked.hbmOwns (locked.ownerOf 0) 0 (512 * (63 + 1)) = true ∧
      locked.hbmServed (locked.ownerOf 0) 0 (8 * (63 + 1)) (tileKey 0 16 0) = false) ∧
    (on.log.ingest.length < 256 ∧ on.soundAt 0 (8 * 262144, 8) = true ∧ on.actOk 0 (8 * 262144) 8 = true) ∧
    (on.compat (on.ownerOf 0) = false ∧ (runs {} true on).compat ((runs {} true on).ownerOf 0) = true ∧ (runs {} true on).tileRuns 0 = true ∧
      (runs {} true on).log.ingest.length < 256) := by
  and_intros <;> decide +kernel

/-- A vector of 128 bytes with a scale waits in credit queue 31. -/
def fed : State :=
  (withTile (fun x => { x with cq := [(31, { ready := [(2097152, 128)] })] })).setF (F.cqStateReady 0 31) 1

theorem wit_DigitalEngineLoadsRunsDrains :
    (on.tileRuns 0 = true ∧ (on.tile 0).deRun = none ∧ on.soundAt 0 (512 * 4096, deRecord 0) = true ∧
      on.actOk 0 (512 * 4096) (4 * (0 + 1) * deCols 0) = true) ∧
    (((fed.tile 0).cqSt 31).ready = (2097152, 128) :: [] ∧ 1 ≤ fed.getF (F.cqStateReady 0 31) ∧ (fed.tile 0).dePrio = 0 ∧
      0 < deVecs 0 ∧ fieldAt ((fed.tile 0).bytes 2097152 128) 64 1 ≠ 0xFF ∧
      fed.soundAt 0 (2097152, 128) = true ∧ (fed.tile 0).deIn = [] ∧ (fed.tile 0).deRun = none ∧ fed.tileRuns 0 = true ∧
      (∀ j < deCols 0, ((fed.tile 0).deBuf false).scale j ≠ 0xFF)) ∧
    (∀ s ∈ [runs { flags := 1 } false fed], (s.layerSlot 0 0).flags % 2 = 1 ∧ ((s.tile 0).cqSt 31).ready = (2097152, 128) :: [] ∧
      1 ≤ s.getF (F.cqStateReady 0 31) ∧ 0 < deVecs 3 ∧ s.soundAt 0 (2097152, 128) = true ∧
      Sparse.get (fun _ => 0) (s.tile 0).deCnt 0 + 1 < segRows (s.layerSlot 0 0).seg / 64) ∧
    (∀ s ∈ [withTile (fun x => { x with deRun := some { cls := 0, buf := true, lslot := 0, vbase := 0, nruns := 1, cq := 0, chk := .pass } })],
      ∀ r, (s.tile 0).deRun = some r → r.buf ≠ false) := by
  and_intros <;> decide +kernel

/-- Objects 5 a semaphore, 6 a barrier that expects one arrival, 7 an event. -/
def objects : State :=
  ((((on.setF (F.syncCfgType 5) 0).setF (F.syncCfgType 6) 1).setF (F.syncCfgType 7) 2).setR (R.syncObj 6) 0x00010000).setR (R.syncObj 5) 2

theorem wit_SynSlotOperations :
    (objects.tileRuns 0 = true ∧ objects.syncWaits = [] ∧ objects.opOk (objects.ownerOf 0) opSignal 5 = true ∧
      objects.opOk (objects.ownerOf 0) opArrive 6 = true ∧ objects.opOk (objects.ownerOf 0) opEset 7 = true ∧
      objects.opOk (objects.ownerOf 0) opEclr 7 = true) ∧
    (∀ o ∈ [5, 6, 7], objects.acked 0 9 o = false ∧ objects.waitHeld 0 9 o = false) ∧
    (objects.opOk (objects.ownerOf 0) opWait 5 = true ∧ 2 ≤ (objects.getR (R.syncObj 5)).toNat ∧ (objects.getR (R.syncObj 5)).toNat < 3) ∧
    (objects.opOk (objects.ownerOf 0) opBwait 6 = true ∧ bitsOf (objects.getR (R.syncObj 6)) 31 31 ≠ 1 % 2) ∧
    (∀ s ∈ [objects.setR (R.syncObj 7) 1], s.opOk (s.ownerOf 0) opEwait 7 = true ∧ (s.getR (R.syncObj 7)).getLsbD 0 = true) ∧
    (objects.opOk (objects.ownerOf 0) opSignal 16383 = false ∧ objects.compat (objects.ownerOf 0) = false) ∧
    (∀ s ∈ [runs {} true on], s.compat (s.ownerOf 0) = true ∧ s.tileRuns 0 = true ∧ s.acked 0 9 5 = false ∧ s.waitHeld 0 9 5 = false) ∧
    (∀ s ∈ [withTile (fun x => { x with acks := [(9, 5)] })], s.acked 0 9 5 = true ∧ s.tileRuns 0 = true) := by
  and_intros <;> decide +kernel

theorem wit_SyncMessagesReachTheirHomes :
    (objects.opOk 0 opSignal 5 = true ∧ objects.syncWaits = [] ∧ objects.opOk 0 opWait 5 = true ∧
      (objects.getR (R.syncObj 5)).toNat < (3 : BitVec 14).toNat) ∧
    (∀ s ∈ [withTile (fun x => { x with ackDue := [(9, 5)] })], (s.tile 0).ackDue = [(9, 5)]) ∧
    (∀ s ∈ [({ objects with syncWaits := [⟨opWait, 5, 3, 0, 0, 9⟩] } : State)],
      s.syncWaits = [⟨opWait, 5, 3, 0, 0, 9⟩] ∧ opWait = 1) := by
  and_intros <;> decide +kernel

/-! ## Witnesses: vector unit and tile cores -/

/-- A vector operation on lanes 0 to 1. -/
def vop : VuArgs := ⟨1, 2, 3, 4, false, 1, .pass⟩

theorem wit_Vector : on.vuRuns 0 vop ∧ on.vuRuns 0 { vop with lanes := 1023, bf := true, chk := .replayPassed } := by and_intros <;> decide +kernel

theorem wit_VectorLoadsAndStores :
    (on.vuRuns 0 vop ∧ on.actOk 0 2097152 (elemBytes false * 2) = true ∧ (on.tile 0).sound 2097152 (elemBytes false * 2) = true ∧
      on.actOk 0 2097152 (elemBytes false) = true ∧ (on.tile 0).sound 2097152 (elemBytes false) = true ∧
      (partialWords 2097152 (elemBytes false * 2)).all (on.soundAt 0) = true) ∧
    (on.actOk 0 8388604 (elemBytes false * 2) = false ∧ (partialWords 8388604 (elemBytes false * 2)).all (on.soundAt 0) = true) := by
  and_intros <;> decide +kernel

/-- What QA4 and QA8 take beside the vector registers. -/
def qop : QuantArgs := ⟨0xFE, 16, false, 63, 2, 2097152⟩

theorem wit_QuantisersWriteTheirRecords :
    on.vuRuns 0 vop ∧ on.actOk 0 qop.off 2560 = true ∧ qop.off % 512 = 0 ∧ qop.k ≤ 16 ∧ on.actOk 0 qop.off 2048 = true ∧ qop.off % 8 = 0 ∧
    (Instr.qa4 0 vop qop).wf = true := by
  and_intros <;> decide +kernel

/-- Operands of a core instruction: rd 3, rs1 4, rs2 5, imm 16. -/
def cop (imm : BitVec 16) : TcArgs := ⟨0, 1, 3, 4, 5, imm, .pass⟩

/-- Core 1 of tile 0 in free mode at the word of an instruction. -/
def free (op : Nat) (r : TcArgs) : State :=
  withTile (fun x => { x with
    store := [(0, PWord.mk' (BitVec.ofNat 64 (tcWord op r)))], tc := [(1, { free := true, run := true })] })

theorem wit_TileCoreRegisterOperations :
    (∀ op ∈ [0x00, 0x01, 0x02, 0x03, 0x04, 0x05, 0x06, 0x07, 0x08, 0x09, 0x0A, 0x0B, 0x0C, 0x10, 0x11, 0x12, 0x13],
      on.tcRuns (cop 16) op ∧ (op ≠ 0 → (free op (cop 16)).tcRuns (cop 16) op)) ∧
    (∀ s ∈ [withTile (fun x => { x with tc := [(1, { free := true, run := true, pc := 2097152 })] })],
      s.tcLive 0 1 = true ∧ s.tcInside 0 1 = false) := by
  and_intros <;> decide +kernel

theorem wit_TileCoreControlFlowAndStart :
    (∀ op ∈ [0x20, 0x21, 0x22, 0x23, 0x24, 0x25, 0x26], ((free op (cop 16)).tcore (cop 16)).free = true ∧
      (free op (cop 16)).tcRuns (cop 16) op) ∧
    ((free 0x3F (cop 16)).tcLive 0 1 = true ∧ tcFormat (bitsOf ((free 0x3F (cop 16)).tcFetch 0 1) 31 26) = none ∧
      ((free 0x3F (cop 16)).tile 0).sound ((free 0x3F (cop 16)).tcore (cop 16)).pc 4 = true) ∧
    on.tileOn 0 = true := by
  and_intros <;> decide +kernel

/-- Core 1 of tile 0, slotted, with a word in its register 4. -/
def cored (w : Word) : State := withTile (fun x => { x with tc := [(1, { regs := [(4, w)] })] })

theorem wit_TileCoreStoreAndRegisters :
    (∀ s ∈ [cored 0x200000], s.tcRuns (cop 16) 0x18 ∧ s.tcRuns (cop 16) 0x19 ∧ s.actOk 0 2097168 4 = true ∧
      (s.tcRs1 (cop 16) + (cop 16).imm.signExtend 32).toNat / 4 * 4 = 2097168 ∧ (s.tile 0).sound 2097168 4 = true ∧
      (partialWords 2097168 4).all (s.soundAt 0) = true ∧
      s.tcRuns (cop 16) 0x1D ∧ s.pfOpen (cop 16) 0 = true ∧ s.actOk 0 (s.tcRs1 (cop 16)).toNat 28 = true ∧
      (s.tile 0).sound (s.tcRs1 (cop 16)).toNat 28 = true ∧ ((s.tile 0).pfSt 0).queue.length < 4) ∧
    (∀ s ∈ [cored 0xFFFFFFF0], s.tcRuns (cop 16) 0x18 ∧
      s.actOk 0 ((s.tcRs1 (cop 16) + (cop 15).imm.signExtend 32).toNat / 4 * 4) 4 = false) ∧
    (on.tcRuns (cop 0) 0x1A ∧ on.tcReg (cop 0) = some (R.tileId 0)) ∧
    (on.tcRuns (cop 0) 0x1B ∧ on.tcReg { cop 0x1000 with rs1 := 0 } = some (R.pfDesc 0 0 0) ∧ (R.pfDesc 0 0 0).kind = .pfDesc ∧
      on.tcRuns { cop 0x1000 with rs1 := 0 } 0x1B) ∧
    (∀ s ∈ [objects.modTile 0 (fun x => { x with tc := [(1, { regs := [(4, 5), (5, 3)] })] })], ∀ r ∈ [{ cop 0 with rd := 16 }],
      s.tcRuns r 0x1C ∧ r.rd.val % 16 = opSignal ∧ (s.tcRs1 r).toNat = 5 ∧ (s.tcRs2 r).toNat < 16384 ∧
      s.opOk (s.ownerOf r.t) opSignal 5 = true ∧ s.compat (s.ownerOf r.t) = false ∧ s.syncWaits = [] ∧
      (runs {} true s).tcRuns r 0x1C ∧ (runs {} true s).compat ((runs {} true s).ownerOf r.t) = true) ∧
    (∀ s ∈ [cored 0x80050003], ∀ r ∈ [{ cop 0 with rd := 16 }], s.tcRuns r 0x1C ∧ (s.tcRs1 r).getLsbD 31 = true) ∧
    (on.tcRuns (cop 0x7FFC) 0x1A ∧ on.tcReg (cop 0x7FFC) = none ∧ on.tcRuns (cop 0x7FFC) 0x1B) := by
  and_intros <;> decide +kernel

/-! ## Witnesses: beat program and cadence -/

/-- In locked cadence, tile 0 runs a program of partition 1 whose next words are given. -/
def seqAt (lo hi : DWord) (q : SeqSt) : State :=
  (own 2 (locked.modTile 0 (fun x => { x with store := [(0, PWord.mk' lo), (1, PWord.mk' hi)], seq := q }))).setF (F.cqStateReady 0 31) 1

/-- At a beat of the window, with a slack run of four beats next. -/
def seqLag (b : BitVec 64) : State := { seqAt 0x80000003 1 { part := 1 } with cad := { locked.cad with beat := b } }

theorem wit_SequencerStepsThroughItsWindow :
    (on.tileRuns 0 = true ∧ (on.tile 0).deRun = none ∧ on.seqRuns 0 = false ∧ State.reset.tileRuns 0 = false) ∧
    (∀ s ∈ [seqAt 0x40000007 1 { part := 1, masks := [8] }, seqAt 1 1 { part := 1, masks := [8] }, seqAt 0x40000000 1 { part := 1, runLeft := 9 }],
      s.locked = true ∧ s.tileRuns 0 = true ∧ (s.tile 0).deRun = none ∧ s.seqRuns 0 = true ∧ s.seqReleased 0 = true ∧ (s.tile 0).seq.ended = false ∧
        s.getF (F.tileSeqPosPos 0) + 1 < min s.winLen (2 ^ 16)) ∧
    ((seqAt 0 0 { part := 1, runLeft := 9 }).tile 0).seq.runLeft = 8 + 1 ∧
    (∀ s ∈ [seqAt 0x40000007 1 { part := 1 }], (s.tile 0).seq.runLeft = 0 ∧ s.seqWord 0 (s.tile 0).seq.off = some 0x40000007 ∧
      bitsOf (0x40000007 : Word) 31 30 = 1) ∧
    (∀ s ∈ [seqLag 0, seqLag 2],
      s.locked = true ∧ s.tileRuns 0 = true ∧ (s.tile 0).deRun = none ∧ s.seqRuns 0 = true ∧ s.seqReleased 0 = true ∧
      (s.tile 0).seq.ended = false ∧ s.getF (F.tileSeqPosPos 0) + 4 < min s.winLen (2 ^ 16) ∧ (s.tile 0).seq.runLeft = 0 ∧
      s.seqWord 0 (s.tile 0).seq.off = some 0x80000003 ∧ bitsOf (0x80000003 : Word) 31 30 = 2) ∧
    ((seqLag 0).lag 0 = 0 ∧ (seqLag 2).lag 0 = 2) ∧
    (∀ s ∈ [seqAt 0x300000400 0 { part := 1 }], s.locked = true ∧ s.tileRuns 0 = true ∧ (s.tile 0).deRun = none ∧ s.seqRuns 0 = true ∧
      s.seqReleased 0 = true ∧ (s.tile 0).seq.ended = false ∧ (s.tile 0).seq.runLeft = 0 ∧
      s.seqWord 0 0 = some 0x400 ∧ bitsOf (0x400 : Word) 31 30 = 0 ∧
      s.seqWords 0 4 ((slotUnits 0 (bitsOf (0x400 : Word) 10 0)).map slotWords).sum = some [3] ∧
      takeSlots (slotUnits 0 (bitsOf (0x400 : Word) 10 0)) [3] = some ([slotOf 10 [3]], []) ∧
      Ready.all ([slotOf 10 [3]].map (fun x => s.actReady 0 (s.slotAct 0 (s.tile 0).seq.masks x))) = .ok ∧
      (∀ x ∈ [slotOf 10 [3]], x.unit ≠ 9 ∧ x.isTc = false)) ∧
    (∀ s ∈ [seqAt 0 1 { part := 1 }], (s.tile 0).seq.runLeft = 0 ∧ s.seqWord 0 (s.tile 0).seq.off = some 0 ∧
      bitsOf (0 : Word) 31 30 = 0 ∧ bitsOf (0 : Word) 10 0 = 0) ∧
    (∀ s ∈ [seqAt 1 0 { part := 1, masks := [8] }], s.seqWord 0 0 = some 1 ∧ bitsOf (1 : Word) 31 30 = 0 ∧
      s.seqWords 0 4 ((slotUnits 0 (bitsOf (1 : Word) 10 0)).map slotWords).sum = some [0, 0] ∧
      takeSlots (slotUnits 0 (bitsOf (1 : Word) 10 0)) [0, 0] = some ([slotOf 0 [0, 0]], []) ∧
      Ready.all ([slotOf 0 [0, 0]].map (fun x => s.actReady 0 (s.slotAct 0 (s.tile 0).seq.masks x))) ≠ .ok) ∧
    (∀ s ∈ [(seqAt 0 0 { part := 1 }).setF (F.cqStateReady 0 31) 0], (s.tile 0).seq.runLeft = 0 ∧ s.seqWord 0 (s.tile 0).seq.off = none) := by
  and_intros <;> decide +kernel

theorem wit_CadenceWindowsMapsAndGrants :
    (locked.locked = true ∧ locked.pwr.stopped = false ∧ locked.beatOpen = true ∧ locked.routers = [] ∧
      (∀ e ∈ locked.tiles, e.2.deRun = none)) ∧ on.locked = false ∧
    (∀ s ∈ [({ locked with cad := { locked.cad with beat := 4096 } } : State)], s.pwr.stopped = false ∧ s.pwr.running ≠ some .warm ∧
      s.pwr.ejecting = false ∧ s.locked = true ∧ s.beatOpen = false) ∧
    (on.pwr.stopped = false ∧ on.pwr.running ≠ some .warm ∧ on.pwr.ejecting = false ∧
      on.runTiles.all (fun t => on.reachedEnd t on.progNow) = true) ∧
    (∀ s ∈ [own 2 (on.modTile 0 (fun x => { x with seq := { part := 1 } }))], s.locked = false ∧
      s.runTiles.all (fun t => s.reachedEnd t s.progNow) = false) ∧
    ((1 : Word).getLsbD 0 = true ∧ on.tmapOk = true ∧ (on.setR (R.glbTmapNext 0) 0x80000080).tmapOk = true ∧
      (on.setR (R.glbTmapNext 0) 0xFF).tmapOk = false) ∧
    locked.portOwner 0 (locked.cad.beat.toNat % locked.winLen) = 0 := by
  and_intros <;> decide +kernel

/-- A program with one slice, of tile 0, held whole by its buffer. -/
def prog1 : Prog := { variants := 2, slices := [{ kind := 0, num := 0, variant := 0, len := 64 }] }

/-- Partition 1 with that program. -/
def loaded (k : Nat) : State := (own k on).modPrt 1 (fun x => { x with prog := some prog1 })

theorem wit_ProgramsStartAndStop :
    (∀ k ∈ [0, 1, 2], (loaded k).accepts hdr true false ∧ (loaded k).partState 1 = 1 ∧ (loaded k).progState 1 = k) ∧
    ((loaded 1).prt 1).startWin = none ∧ ((loaded 1).prt 1).hold = none ∧ (loaded 1).locked = false ∧
      (∀ s ∈ [({ (loaded 1).setFlag F.cadCfgLocked true with cad := { on.cad with running := true } } : State)], s.locked = true ∧
        s.cad.running = true) ∧ (loaded 1).arraysLoaded 1 = true ∧ (loaded 1).startEarliest ≤ 1 ∧
    (2 ≤ (loaded 2).progState 1 ∧ ((loaded 2).prt 1).prog = some prog1 ∧ (1 : Byte).toNat < prog1.variants ∧ (1 : Byte).toNat < 4) ∧
    (∀ s ∈ [(((loaded 1).modTile 0 (fun x => { x with seq := { part := 1 } })).modPrt 1 (fun x => { x with startWin := some 0 })).setF
        (F.cqStateReady 0 31) 1], (s.prt 1).startWin = some 0 ∧ s.progState 1 = 1 ∧ s.cad.held = 0 ∧ s.locked = false ∧ (s.prt 1).wgt.loading = [] ∧ s.progTiles 1 ≠ [] ∧
      (s.progTiles 1).all (fun e => (s.tile e.1).seq.part = 1 && s.firstHeld e.1 e.2) = true ∧ 0 ≤ s.cad.edge) ∧
    (∀ s ∈ [(loaded 1).modPrt 1 (fun x => { x with startWin := some 5 })], (s.prt 1).startWin = some 5 ∧ s.cad.edge < 5) := by
  and_intros <;> decide +kernel

/-! ## Witnesses: fabric and rime -/

/-- A flit of channel v, partition n, to endpoint d, reduction ID r, LAST. -/
def flit (v n d r : Nat) : Flit := flitOf (BitVec.ofNat 64 (v + 4 * n + 64 * d + 2 ^ 22 * r + 2 ^ 30)) 0

theorem wit_FabricFlitsArriveAndGo :
    (∀ n ∈ [0, 96, 97], on.nodeOn n = true ∧ on.mayArrive n (inputOf n 0 (flit 0 0 1 0)) (flit 0 0 1 0) = true) ∧
    (on.nodeOn 95 = false ∧ on.mayArrive 0 (inputOf 0 3 (flit 0 0 1 0)) (flit 0 0 1 0) = false) ∧
    (∀ s ∈ [on.modRouter 1 (fun x => { x with sent := [(1, flit 0 0 0 0)] })], s.nodeOn 0 = true ∧
      s.mayArrive 0 (inputOf 0 3 (flit 0 0 0 0)) (flit 0 0 0 0) = true) ∧
    Sparse.get (fun _ => 0) (on.router 0).retries 0 < 2 ∧ seamInput 0 0 = none ∧
    (∀ s ∈ [on.modRouter 0 (fun x => { x with discarding := [(0, flit 0 0 1 0)] })],
      (s.router 0).discarding.find? (fun e => e.1 = 0) = some (0, flit 0 0 1 0) ∧ flit 0 0 1 0 ≠ flit 0 0 2 0 ∧ s.nodeOn 0 = true) ∧
    (on.mayArrive 0 0 (flit 0 0 0x75 0) = true ∧ on.mayArrive 0 0 (flit 0 1 1 0) = true ∧ on.mayArrive 0 0 (flit 0 0 2 0) = true ∧
      inputOf 0 0 (flit 0 0 0x75 0) = 0) ∧
    (on.router 0).discarding.find? (fun e => e.1 = 4 * inputOf 0 0 (flit 0 0 1 0) + (flit 0 0 1 0).vc) = none ∧
    (∀ f ∈ [flit 0 0 0x75 0, flit 0 1 1 0, flit 0 0 1 0, flit 0 1 0x60 0], f.sound = true) ∧
    { flit 0 0 1 0 with par := 7 }.sound = false ∧
    (on.nodeOn 96 = true ∧ on.mayArrive 96 (inputOf 96 0 (flit 0 1 0x60 0)) (flit 0 1 0x60 0) = true ∧
      route 96 (flit 0 1 0x60 0) = some 128 ∧ on.discards (flit 0 1 0x60 0).part = false ∧ (on.router 96).bufs = [] ∧
      (on.router 96).discarding = [] ∧ (flit 0 1 0x60 0).vc = 0 ∧ (flit 0 1 0x60 0).part = 1 ∧ (flit 0 1 0x60 0).dest = 0x60 ∧
      on.getF (F.partLinkShareEntries 1 0) = 0) ∧
    route 0 (flit 0 0 0x75 0) = none ∧
    (∀ s ∈ [on.modPrt 1 (fun x => { x with discard := true })], route 0 (flit 0 1 1 0) ≠ none ∧ s.discards (flit 0 1 1 0).part = true ∧
      s.nodeOn 0 = true) ∧
    (∀ s ∈ [on.setF (credField 0 3 0) 1, on.setF (credField 0 3 0) 0], s.nodeOn 0 = true ∧ route 0 (flit 0 0 1 0) = some 3 ∧
      s.discards (flit 0 0 1 0).part = false ∧ (s.router 0).bufs = [] ∧ (flit 0 0 1 0).vc ≠ 2 ∧
      (s.router 0).sent = []) ∧
    (on.setF (credField 0 3 0) 1).hasCredit 0 3 0 = true ∧ (on.setF (credField 0 3 0) 0).hasCredit 0 3 0 = false := by
  and_intros <;> decide +kernel

/-- An action of NET: a line of scratch to logical tile 1, reduction ID 9. -/
def net (f : Option ArrN) : NetArgs := ⟨4096, none, 0, 1, 9, f⟩

/-- Tile 0 adds reduction 9 of its own and from the south, for the tile to the south. -/
def adding : State :=
  ((((on.setFlag (F.netRctxValid 0 9) true).setF (F.netRctxMask 0 9) 17).setF (credField 0 3 2) 1).modRouter 0 (fun x =>
    (x.setBuf 0 2 [flit 2 0 1 9]).setBuf 3 2 [flit 2 0 1 9]))

theorem wit_ReductionsAreSentAddedAndLanded :
    (on.tileRuns 0 = true ∧ on.phys (net none).dest = some 1 ∧ ((on.router 0).buf 0 2).length < 4 ∧ (on.router 0).inj = [] ∧
      on.actOk 0 (512 * 4096) (512 * (0 + 1)) = true ∧ (on.tile 0).sound (512 * 4096) (512 * (0 + 1)) = true) ∧
    (∀ s ∈ [withArr (fun x => { x with resQ := [{ vals := [1], net := true }] })], (net (some 3)).fromArr = some 3 ∧
      s.netResult 0 3 = some { vals := [1], net := true } ∧ s.tileRuns 0 = true) ∧
    (adding.tileRuns 0 = true ∧ adding.redHeads 0 9 = some ((0, flit 2 0 1 9) :: (3, flit 2 0 1 9) :: []) ∧ route 0 (flit 2 0 1 9) = some 3 ∧
      adding.hasCredit 0 3 2 = true ∧ (flit 2 0 1 9).vc = 2 ∧ (adding.router 0).added = [] ∧
      (∀ e ∈ (adding.router 0).bufs, ∃ h ∈ (0, flit 2 0 1 9) :: (3, flit 2 0 1 9) :: [], e = (4 * h.1 + 2, [h.2])) ∧
      (adding.setF (credField 0 3 2) 0).hasCredit 0 3 2 = false ∧
      (adding.setF (credField 0 3 2) 0).redHeads 0 9 = some ((0, flit 2 0 1 9) :: (3, flit 2 0 1 9) :: [])) ∧
    (∀ s ∈ [(on.setF (F.syncCfgType 9) 0).modRouter 0 (fun x => { x with eject := [flit 2 0 0 9] })],
      roundFlits ((s.router 0).eject.filter (fun f => f.rid = 9)) = [flit 2 0 0 9] ∧ (flit 2 0 0 9).last = true ∧ (flit 2 0 0 9).part < 16 ∧
      s.compat (s.ownerOf 0) = false ∧ s.getR (R.syncObj (s.landingObj 0 9)) = 0 ∧ s.opOk 0 opSignal (s.landingObj 0 9) = true ∧ s.syncWaits = []) := by
  and_intros <;> decide +kernel

theorem wit_RimeMessagesAndApplyBeats :
    (locked.locked = true ∧ (locked.win / 2 ^ 32 * 2 ^ 32 + 0xFFFFFFFF) ∉ locked.cad.lateSent ∧ on.locked = false) ∧
    (∀ s ∈ [({ locked with cad := { locked.cad with lateNotes := [(7, 5, true)] } } : State)],
      (s.win / 2 ^ 32 * 2 ^ 32 + 7) ∉ s.cad.lateSent ∧
      s.cad.lateNotes.find? (fun e => e.1 = s.win / 2 ^ 32 * 2 ^ 32 + (7 : Word).toNat) = some (7, 5, true)) ∧
    (∀ s ∈ [({ on with cad := { on.cad with stretchAt := some 0 } } : State)], s.cad.stretchAt = some 0 ∧ 0 ≤ s.cad.beat.toNat) ∧
    (∀ s ∈ [({ on with cad := { on.cad with stretchAt := some 1 } } : State)], s.cad.stretchAt = some 1 ∧ s.cad.beat.toNat < 1) ∧
    (∀ m ∈ [((0, ⟨1, 0xFF, 0x72, 0, []⟩) : BitVec 64 × RimeMsg)], ∀ s ∈ [({ on with rime := [m] } : State)],
      m ∈ s.rime ∧ s.rime = m :: [] ∧ m.1.toNat ≤ s.cad.beat.toNat) ∧
    (∀ s ∈ [({ on with rime := [(1, ⟨1, 0xFF, 0x72, 0, []⟩)] } : State)], ∀ e ∈ s.rime, s.cad.beat.toNat < e.1.toNat) ∧
    (on.pwr.running = none ∧ (on.prt (on.ownerOf 0)).resetting = false) ∧
    (∀ s ∈ [(own 2 on).modPrt 1 (fun x => { x with resetting := true })], (s.prt (s.ownerOf 0)).resetting = true) ∧
    (∀ s ∈ [({ on with pwr := { on.pwr with running := some .warm } } : State)], s.pwr.running ≠ none) := by
  and_intros <;> decide +kernel

/-! ## Witnesses: links -/

/-- Port 0 in a state, with its records changed. -/
def port0 (k : Nat) (f : PortSt → PortSt) : State := (on.setF (F.portStatusState 0) k).modPort 0 f

/-- A link flit of class c and partition n. -/
def lflit (c n : Nat) : LFlit := LFlit.seal { hdr := BitVec.ofNat 64 (c + 16 * n + 2 ^ 60) }

theorem wit_LinkFlitsArrive :
    on.portUp 0 = false ∧ (port0 3 id).portUp 0 = true ∧ ((port0 3 id).port 0).gap = false ∧ (port0 3 id).failingLanes 0 = 0 ∧
    ((lflit 5 0).cls = 5 ∧ { lflit 5 0 with par := 7 }.sound = false) ∧
    (∀ c ∈ [1, 2, 3, 4, 5, 6, 7, 9], (lflit c 1).sound = true ∧ (lflit c 1).cls = c ∧ (lflit c 1).seq = 0 ∧ (lflit c 1).index = 0 ∧
      (lflit c 1).fill ≠ 0) ∧
    ((mgmtSize (lflit 7 1).stream (lflit 7 1).bytes).any (fun n => (lflit 7 1).bytes.length < n) = false ∧
      (∀ f ∈ [LFlit.seal { hdr := linkHdr 7 0 0 3 0x0010 0 0 0 } , LFlit.seal { hdr := linkHdr 7 0 0 3 0x0011 0 0 1 }], f.cls = 7 ∧ f.sound = true) ∧
      (∀ f ∈ [LFlit.seal { hdr := linkHdr 7 0 0 3 0x0011 0 0 1 }], f.index = 0 ∧ f.fill ≠ 0 ∧
        (mgmtSize f.stream f.bytes).any (fun n => f.bytes.length < n) = true)) ∧
    (later (1 : BitVec 16) ((port0 3 id).port 0).rxSeq = true ∧ 9 ≤ (lflit 9 0).cls) ∧
    (∀ s ∈ [own 2 (port0 3 id)], s.portUp 0 = true ∧ (lflit 1 1).cls = 1 ∧ (lflit 1 1).seq = (s.port 0).rxSeq ∧ s.running (lflit 1 1).part = true ∧
      s.discards (lflit 1 1).part = false ∧ s.failingLanes 0 = 0) ∧ (port0 3 id).running (lflit 6 1).part = false := by
  and_intros <;> decide +kernel

theorem wit_LinkFlitsLeave :
    (∀ s ∈ [port0 3 id, port0 3 (fun x => { x with txQ := [lflit 1 1] }), port0 3 (fun x => { x with txQ := [lflit 4 1] }),
        port0 3 (fun x => { x with retry := [lflit 1 1], resending := 1 })],
      s.pwr.stopped = false ∧ s.portUp 0 = true ∧ s.flag (F.portCfgLoopback 0) = false ∧ (s.port 0).control = [] ∧ (s.port 0).drainWait = false) ∧
    ((port0 3 id).port 0).txQ = [] ∧ ((port0 3 id).port 0).resending = 0 ∧ (port0 3 id).linkOut = [] ∧ ((port0 3 id).port 0).retry.length < 512 ∧
    (∀ m ∈ [({ cls := 7, part := 0, dest := 5, stream := 0x0012, payload := leBytes 4 9 } : LinkMsg)],
      ∀ s ∈ [({ port0 3 id with linkOut := [m] } : State)], s.linkOut = [m] ∧ m.dest ≠ s.slot ∧ 1 ≤ m.cls ∧ m.cls ≤ 7 ∧ m.part < 16 ∧
        (∀ f ∈ (linkFlits m.cls m.part m.dest s.slot m.stream s.win m.payload), s.mayLeave 0 f = true) ∧
        (linkFlits m.cls m.part m.dest s.slot m.stream s.win m.payload).length = 1 ∧ { m with dest := 0 }.dest = s.slot) ∧
    (∀ c ∈ [1, 4], ∀ s ∈ [port0 3 (fun x => { x with txQ := [lflit c 1] })], (s.port 0).txQ = [lflit c 1] ∧ (s.port 0).resending = 0 ∧
      (s.port 0).retry.length < 512 ∧ 1 ≤ (lflit c 1).cls ∧ (lflit c 1).cls ≤ 7 ∧ s.mayLeave 0 (lflit c 1) = true) ∧
    (∀ s ∈ [locked.modPort 0 (fun x => { x with txQ := [lflit 1 1] })], s.mayLeave 0 (lflit 1 1) = false) ∧
    (∀ s ∈ [port0 3 (fun x => { x with retry := [lflit 1 1], resending := 1 })], (s.port 0).resending = 0 + 1 ∧
      (s.port 0).retry[(s.port 0).retry.length - (0 + 1)]? = some (lflit 1 1)) ∧
    (∀ s ∈ [({ on with pwr := { on.pwr with stopped := true } } : State)], s.pwr.stopped = true) ∧
    (on.tileRuns 0 = true ∧ on.actOk 0 (512 * 4096) (512 * (63 + 1)) = true ∧ (on.tile 0).sound (512 * 4096) (512 * (63 + 1)) = true ∧
      on.ownerOf 0 = 0) ∧
    (∀ s ∈ [own 2 on, (own 2 on).setF (F.partLinkShareEntries 1 0) 9], s.tileRuns 0 = true ∧ s.actOk 0 (512 * 4096) (512 * (63 + 1)) = true ∧
      (s.tile 0).sound (512 * 4096) (512 * (63 + 1)) = true ∧ s.ownerOf 0 = 1) ∧
    ((own 2 on).getF (F.partLinkShareEntries 1 0) = 0 ∧ ((own 2 on).setF (F.partLinkShareEntries 1 0) 9).getF (F.partLinkShareEntries 1 0) ≠ 0) := by
  and_intros <;> decide +kernel

theorem wit_LinkPortsTrainAndMeasure :
    ((port0 1 id).getF (F.portStatusState 0) = 1 ∧ (1 : BitVec 4) ≠ 0 ∧ ((port0 1 id).port 0).retraining = false) ∧
    (∀ s ∈ [port0 1 (fun x => { x with retraining := true })], s.getF (F.portStatusState 0) = 1 ∧ (s.port 0).retraining = true ∧
      s.getF (F.portStatusLaneOk 0) = 0) ∧
    (∀ s ∈ [(port0 1 (fun x => { x with retraining := true, lanesOn := 8 })).setF (F.portStatusLaneOk 0) 8],
      s.getF (F.portStatusState 0) = 1 ∧ (s.port 0).retraining = true ∧ s.getF (F.portStatusLaneOk 0) &&& (15 : BitVec 4).toNat ≠ 0 ∧
      (s.port 0).lanesOn &&& (s.getF (F.portStatusLaneOk 0) &&& (15 : BitVec 4).toNat) = (s.port 0).lanesOn ∧
      s.getF (F.portStatusLaneOk 0) &&& (7 : BitVec 4).toNat = 0) ∧
    (port0 2 id).cad.waitPorts = false ∧ (port0 2 id).cad.masterNow = false ∧
    (∀ s ∈ [port0 3 (fun x => { x with drained := true }), port0 3 id], s.portUp 0 = true ∧ s.cad.waitPorts = false ∧
      s.getF F.cadCfgPeriod < 256 ∧ s.getF F.cadCfgWindow < 256) ∧
    (((port0 3 (fun x => { x with drained := true })).port 0).drained = true ∧ ((port0 3 id).port 0).drained = false) ∧
    ((port0 2 id).getF (F.portStatusState 0) = 2 ∧ (port0 2 id).getF F.cadCfgPeriod < 256 ∧ (port0 2 id).getF F.cadCfgWindow < 256) ∧
    (∀ s ∈ [port0 3 (fun x => { x with retry := [{ seq := 6 }, { seq := 7 }] })], s.portUp 0 = true ∧
      (List.range (s.port 0).retry.length).find? (fun i => ((s.port 0).retry[i]?).elim false (fun f => f.seq = 7)) = some 1 ∧
      (s.port 0).retry[1]? = some { seq := 7 } ∧ (s.port 0).replayCnt = 0) ∧
    (((port0 3 id).port 0).retry = [] ∧ ((port0 3 id).port 0).txSeq = 0) ∧
    (∀ s ∈ [port0 3 (fun x => { x with gap := true })], s.portUp 0 = true ∧ (s.port 0).gap = true) ∧
    ((port0 3 id).portUp 0 = true ∧ ((port0 3 id).port 0).gap = false ∧ ((port0 3 id).port 0).ecCount < 63) := by
  and_intros <;> decide +kernel

/-- Port 0 in state k with lanes ok, n of them in use. -/
def lanesOf (k ok n : Nat) : State := ((port0 k (fun x => { x with lanesOn := activeLanes ok n })).setF (F.portStatusLaneOk 0) ok).setF (F.portStatusLanes 0) n

theorem wit_LinkLanesAndPortResets :
    (∀ s ∈ [lanesOf 3 1 1], s.portUp 0 = true ∧ s.getF (F.portStatusLaneOk 0) &&& (15 - (1 : BitVec 4).toNat) = 0) ∧
    (∀ s ∈ [lanesOf 3 15 2], s.portUp 0 = true ∧ s.getF (F.portStatusLaneOk 0) &&& (15 - (3 : BitVec 4).toNat) ≠ 0 ∧
      s.getF (F.portStatusLaneOk 0) &&& (15 - (3 : BitVec 4).toNat) &&& (s.port 0).lanesOn = 0 ∧
      (s.port 0).lanesOn &&& (3 : BitVec 4).toNat ≠ 0 ∧ s.getF (F.portStatusLanes 0) ≠ 4 ∧
      s.getF (F.portStatusLaneOk 0) &&& (15 - (1 : BitVec 4).toNat) &&& (s.port 0).lanesOn ≠ 0 ∧
      (s.port 0).lanesOn &&& (1 : BitVec 4).toNat ≠ 0) ∧
    (∀ s ∈ [lanesOf 3 15 2], s.portUp 0 = true ∧ s.getF (F.portStatusLaneOk 0) &&& (15 - (8 : BitVec 4).toNat) ≠ 0 ∧
      (s.port 0).lanesOn &&& (8 : BitVec 4).toNat = 0) ∧
    (∀ s ∈ [lanesOf 3 15 4], s.portUp 0 = true ∧ s.getF (F.portStatusLaneOk 0) &&& (15 - (8 : BitVec 4).toNat) ≠ 0 ∧
      (s.port 0).lanesOn &&& (8 : BitVec 4).toNat ≠ 0) ∧
    (∀ s ∈ [((lanesOf 3 15 4).setFlag (F.portCfgEnable 0) true).setF (F.pwrDomState 48) 2], s.portUp 0 = true ∧
      s.flag (F.portCfgEnable 0) = true ∧ s.domOn (48 + 0) = true) ∧
    (lanesOf 4 15 4).getF (F.portStatusState 0) = 4 ∧ (lanesOf 4 15 4).lanesOffered 0 7 ≠ 0 ∧ (lanesOf 3 15 2).lanesOffered 0 8 = 0 ∧
    (lanesOf 3 15 2).lanesOffered 0 9 ≠ 0 ∧ (lanesOf 4 15 4).cad.masterNow = false ∧
    (∀ s ∈ [port0 1 (fun x => { x with retraining := true })], s.getF (F.portStatusState 0) = 1 ∧ (s.port 0).retraining = true) ∧
    (∀ s ∈ [port0 3 (fun x => { x with drainWait := true })], (s.port 0).drainWait = true ∧ s.log.ingest.length < 256) := by
  and_intros <;> decide +kernel

/-! ## Witnesses: weights -/

/-- A manifest of epoch 9 with layer 1 of a kind on this module's array 3 of logical tile 0, and layer 2 on slot 6. -/
def man (kind : Nat) : Manifest :=
  { epoch := 9, shards := [⟨64, 0, 0, []⟩, ⟨64, 6, 0, []⟩],
    layers := [⟨1, 0, kind, 0, 0, false, true, 0, 256, 512, 0, 1⟩, ⟨2, 1, 0, 0, 0, false, false, 0, 256, 512, 1, 1⟩],
    places := [⟨0, 0, 3, 0, 0, 0, 0, 256, 0⟩, ⟨6, 0, 3, 0, 0, 1, 0, 64, 0⟩] }

/-- Partition 1 with weights; its program is in state k. -/
def held (k : Nat) (w : WgtSt) : State := (own k on).modPrt 1 (fun x => { x with wgt := w })

theorem wit_ManifestsAndStaging :
    (∀ s ∈ [held 1 {}], s.accepts hdr true false ∧ s.partState 1 ≠ 0 ∧ (s.prt 1).usable = true ∧ s.wgtBusy 1 = false ∧
      (s.wgt 1).behind = none ∧ ({ s.wgt 1 with behind := some 9 } : WgtSt).behind = some (man 0).epoch) ∧
    (∀ s ∈ [held 1 { manifest := some (man 0) }], s.accepts hdr true false ∧ (s.wgt 1).manifest = some (man 0) ∧ s.partState 1 ≠ 0 ∧
      s.getF (F.partWgtStatusStage 1) ≠ 2 ∧ s.wgtBusy 1 = false ∧ (man 0).layersOn s.placeSlot ≠ [] ∧
      (∀ l ∈ (man 0).layersOn s.placeSlot, (man 0).shardsOf l s.placeSlot ≠ [])) ∧
    (∀ s ∈ [(held 1 { staging := { man := some (man 0) } }).setF (F.partWgtStatusStage 1) 1], s.accepts hdr true false ∧
      (s.wgt 1).staging.man = some (man 0) ∧ s.staging 1 = true ∧ (man 0).shards[1]? = some ⟨64, 6, 0, []⟩ ∧ 6 ≠ s.slot ∧
      (∀ e ∈ s.firn.topo.slots, e.buddy = 6 → e.slot ≠ s.slot) ∧ shardWire (man 0) 1 = 64) := by
  and_intros <;> decide +kernel

/-- Shard 0 on its way: a segment of a length at byte 0. -/
def shard0 (n : Nat) : ShardSt := { num := 0, segs := [(0, List.replicate n 0)] }

theorem wit_ShardsArriveOrFail :
    (∀ s ∈ [(held 1 { staging := { man := some (man 0) }, shards := [{ num := 0 }] }).setF (F.partWgtStatusStage 1) 1],
      s.staging 1 = true ∧ (s.wgt 1).staging.man = some (man 0) ∧ (s.wgt 1).shards.find? (fun x => x.num = 0) = some { num := 0 } ∧
      ({ num := 0 } : ShardSt).verified = false ∧ 9 = (man 0).epoch % 2 ^ 32 ∧ 0 + 63 < shardWire (man 0) 0 ∧
      0 + 64 = shardWire (man 0) 0 ∧ ({ num := 0 } : ShardSt).asked < 3) ∧
    (held 1 {}).staging 1 = false ∧
    (∀ s ∈ [held 1 { resShards := [{ shard0 64 with verified := true }] }], (s.wgt 1).staging.man = none ∧
      ((s.wgt 1).resShards ++ (s.wgt 1).shards).find? (fun x => x.num = 0 && x.verified) = some { shard0 64 with verified := true } ∧
      ((shard0 64).segs.map Prod.snd).flatten ≠ [] ∧ ((shard0 64).segs.map Prod.snd).flatten.length ≤ 61424) := by
  and_intros <;> decide +kernel

/-- The swap to the manifest of epoch 9. -/
def swap9 : SwapSt := { epoch := 9, coord := true, frontWin := some 5 }

theorem wit_LoaderRewritesLayers :
    (∀ k ∈ [0, 1], ∀ line ∈ [1, 1023], ∀ s ∈ [held 1 { staging := { man := some (man k) }, loading := [(0, if k = 0 then line else 0)] }],
      (s.wgt 1).loadFrom.man = some (man k) ∧ (man k).places[0]? = some ⟨0, 0, 3, 0, 0, 0, 0, 256, 0⟩ ∧
      (man k).layerOf 0 = some ⟨1, 0, k, 0, 0, false, true, 0, 256, 512, 0, 1⟩ ∧ s.phys 0 = some 0 ∧
      s.mayLoad 1 0 (man k) ⟨1, 0, k, 0, 0, false, true, 0, 256, 512, 0, 1⟩ ⟨0, 0, 3, 0, 0, 0, 0, 256, 0⟩ 0 (if k = 0 then line else 0) = true ∧
      (s.wgt 1).triesOf 0 = 0 ∧ (s.arr 0 3).fills = [] ∧ s.hbmBad = [] ∧ s.locked = false ∧
      (if k = 0 then line else 0) + 1 < placeLines ⟨1, 0, k, 0, 0, false, true, 0, 256, 512, 0, 1⟩ ⟨0, 0, 3, 0, 0, 0, 0, 256, 0⟩) ∧
    (∀ j ∈ [1, 2], ∀ s ∈ [held 1 { staging := { man := some (man 1) }, loading := [(0, 0)], tries := [(0, j)] }],
      s.mayLoad 1 0 (man 1) ⟨1, 0, 1, 0, 0, false, true, 0, 256, 512, 0, 1⟩ ⟨0, 0, 3, 0, 0, 0, 0, 256, 0⟩ 0 0 = true ∧ (s.wgt 1).triesOf 0 = j ∧
      (s.arr 0 3).fills = [] ∧
      s.mayLoad 1 0 (man 1) ⟨1, 0, 1, 0, 0, false, true, 0, 256, 512, 0, 1⟩ ⟨0, 0, 3, 0, 0, 0, 0, 256, 0⟩ 0 1 = false) ∧
    (0 : BitVec 1024) = loadWant ⟨1, 0, 1, 0, 0, false, true, 0, 256, 512, 0, 1⟩ [] 0 ∧
    (1 : BitVec 1024) ≠ loadWant ⟨1, 0, 1, 0, 0, false, true, 0, 256, 512, 0, 1⟩ [] 0 ∧
    (∀ s ∈ [held 2 { staging := { man := some (man 0) }, swap := some swap9 }], (s.wgt 1).swap = some swap9 ∧
      (s.wgt 1).staging.man = some (man 0) ∧
      ((man 0).layersOn s.placeSlot).find? (fun l => l.layer = 1) = some ⟨1, 0, 0, 0, 0, false, true, 0, 256, 512, 0, 1⟩ ∧
      swap9.rolling = false ∧ 1 ∉ swap9.drained ∧
      ((man 0).layersOn s.placeSlot).any (fun k => k.order < 0 && !swap9.drained.contains k.layer) = false ∧
      s.fed 1 (man 0) swap9 ⟨1, 0, 0, 0, 0, false, true, 0, 256, 512, 0, 1⟩ = true) ∧
    (∀ s ∈ [held 2 { staging := { man := some (man 0) }, swap := some { swap9 with rewriting := [1] } }],
      (s.wgt 1).loadFrom.man = some (man 0) ∧ 1 ∈ ({ swap9 with rewriting := [1] } : SwapSt).rewriting ∧ (s.wgt 1).rewriteFail = false ∧
      (s.wgt 1).loading.any (fun x => (((man 0).layerOf x.1).map ManLayer.layer) = some 1) = false) ∧
    (∀ s ∈ [held 2 { resident := { man := some (man 0) } }], (s.wgt 1).resident.man = some (man 0) ∧ (man 0).persistent ≠ [] ∧
      (s.wgt 1).swap = none ∧
      s.firn.images.any (fun r => r.active && r.slot.man.map Manifest.bytes = some (man 0).bytes) = false) := by
  and_intros <;> decide +kernel

/-- Partition 1 loading layer 1 in locked cadence. -/
def loadingLocked : State :=
  (held 1 { staging := { man := some (man 0) }, loading := [(0, 1)] }).setFlag F.cadCfgLocked true

theorem wit_LoaderServedOrWaiting :
    (∀ s ∈ [loadingLocked, loadingLocked.setFlag F.cadCfgLocked false], s.linesGood (s.loadAddr 1 0 1) 128 = true ∧
      s.mayLoad 1 0 (man 0) ⟨1, 0, 0, 0, 0, false, true, 0, 256, 512, 0, 1⟩ ⟨0, 0, 3, 0, 0, 0, 0, 256, 0⟩ 0 1 = true) ∧
    loadingLocked.hbmServed 1 (loadingLocked.loadAddr 1 0 1) 2 (loadKey 0) = false ∧
    (loadingLocked.setFlag F.cadCfgLocked false).hbmServed 1 ((loadingLocked.setFlag F.cadCfgLocked false).loadAddr 1 0 1) 2 (loadKey 0) = true := by
  refine ⟨by decide +kernel, ?_, ?_⟩
  · apply State.hbmServed_empty <;> decide +kernel
  · exact (State.hbmPay_free _ _ _ _ _ (by decide +kernel)).1

/-- A service of partition 1 whose front module is this one. -/
def svc1 : Svc := { id := 1 }

/-- Partition 1 running, staged for the manifest, with its service. -/
def staged (w : WgtSt) : State := ((held 2 w).modPrt 1 (fun x => { x with svcs := [svc1] })).setF (F.partWgtStatusStage 1) 2

theorem wit_SwapsCommitOrRollBack :
    (∀ s ∈ [staged { staging := { man := some (man 0) }, resident := { man := some (man 0) } }],
      s.accepts hdr true false ∧ s.running 1 = true ∧ (s.prt 1).svcs.any s.isFront = true ∧ s.wgtBusy 1 = false ∧
      (s.wgt 1).staging.man = some (man 0) ∧ s.stagedFor 1 (man 0).epoch = true ∧ s.modulesOf 1 ≠ [] ∧ (s.wgt 1).swap = none) ∧
    (∀ s ∈ [(staged { staging := { man := some (man 0) } }).setF (F.partWgtStatusStage 1) 0],
      s.accepts hdr true false ∧ s.running 1 = true ∧ (s.prt 1).svcs.any s.isFront = true ∧ s.wgtBusy 1 = false ∧
      (s.wgt 1).staging.man = some (man 0) ∧ s.stagedFor 1 (man 0).epoch = false) ∧
    (∀ w ∈ [({ swap9 with reports := [6], done := [6] } : SwapSt), { swap9 with reports := [6], done := [6], rolling := true }],
      ∀ s ∈ [staged { staging := { man := some (man 0) }, resident := { man := some (man 0) }, swap := some w }],
      (s.wgt 1).swap = some w ∧ w.epoch = (9 : BitVec 64).toNat ∧ w.coord = true ∧ w.cutover = false ∧ w.committed = false ∧ w.frontWin ≠ none ∧
      (s.slot :: s.modulesOf 1).all (fun d => d = 5 || w.reports.contains d) = decide (s.slot = 5) ∧
      (s.slot :: s.modulesOf 1).all (fun d => d = s.slot || w.reports.contains d) = true ∧
      (s.slot :: s.modulesOf 1).all (fun d => d = s.slot || w.done.contains d) = true ∧ (s.wgt 1).resident.man = some (man 0)) ∧
    (∀ s ∈ [staged { staging := { man := some (man 0) }, resident := { man := some (man 0) }, swap := some { swap9 with coord := false } }],
      (s.wgt 1).swap = some { swap9 with coord := false } ∧ (s.wgt 1).staging.man = some (man 0)) ∧
    ((staged {}).wgt 1).swap = none := by
  and_intros <;> decide +kernel

/-! ## Witnesses: services, requests and KV pages -/

/-- A service descriptor for service 1 with this module as front. -/
def desc1 : Bytes := leBytes 4 1 ++ leBytes 4 0 ++ leBytes 2 0 ++ leBytes 2 1 ++ leBytes 4 4 ++ leBytes 4 1000 ++ leBytes 12 0 ++ leBytes 32 0

theorem wit_ServicesOpenAndClose :
    (∀ s ∈ [held 2 { resident := { man := some (man 0) } }, held 2 { resident := { man := some { man 0 with places := [⟨0, 0, 3, 0, 0, 0, 0, 64, 0⟩] } } }],
      s.accepts hdr true false ∧ s.svcDescOk 1 desc1 = true ∧ fieldAt desc1 6 2 = s.placeSlot ∧ s.running 1 = true ∧ (s.prt 1).usable = true ∧
      (s.wgt 1).behind = none ∧ (s.prt 1).svcs.length < 16) ∧
    ((held 2 { resident := { man := some (man 0) } }).modulesOf 1 ≠ []) ∧
    ((held 2 { resident := { man := some { man 0 with places := [⟨0, 0, 3, 0, 0, 0, 0, 64, 0⟩] } } }).modulesOf 1 = []) ∧
    (∀ s ∈ [(held 2 { resident := { man := some (man 0) } }).setF (F.partHbmLen 1 0) 8], s.poolFits 1 (fieldAt desc1 32 8) = true) ∧
    (∀ s ∈ [held 1 { resident := { man := some (man 0) } }], s.accepts hdr true false ∧ s.svcDescOk 1 desc1 = true ∧ s.running 1 = false) ∧
    (∀ s ∈ [staged {}], s.accepts hdr true false ∧ s.svc 1 1 = some svc1 ∧ svc1.closing = false ∧ s.isFront svc1 = true ∧ svc1.reqs = []) ∧
    (∀ v ∈ [{ svc1 with reqs := [{ tag := 8 }] }, { svc1 with closing := true, reqs := [{ tag := 8 }] }],
      ∀ s ∈ [(held 2 {}).modPrt 1 (fun x => { x with svcs := [v] })], s.accepts hdr true false ∧ s.svc 1 1 = some v ∧ s.isFront v = true ∧
      v.reqs ≠ []) ∧
    (held 2 {}).svc 1 1 = none := by
  and_intros <;> decide +kernel

/-- A request descriptor for service 1: tag 3, four tokens, one prompt byte. -/
def req1 : Bytes := leBytes 4 1 ++ leBytes 4 3 ++ leBytes 4 0 ++ leBytes 4 4 ++ leBytes 12 0 ++ leBytes 4 1 ++ leBytes 160 0 ++ [65]

/-- Partition 1 running with one service. -/
def serving (v : Svc) : State := (held 2 {}).modPrt 1 (fun x => { x with svcs := [v] })

theorem wit_RequestsAndStreams :
    (∀ v ∈ [({ svc1 with ringSize := 4096 } : Svc), { svc1 with ringSize := 4096, reqs := [{ tag := 8 }], cancels := [8] }],
      ∀ s ∈ [serving v], s.accepts hdr true false ∧ s.svc 1 (fieldAt req1 0 4) = some v ∧ v.id ≠ 0 ∧ reqDescOk v req1 = true ∧
      v.opening = false ∧ v.closing = false ∧ s.isFront v = true ∧ v.ringSize ≠ 0 ∧
      decide ((v.reqs.filter (fun r => r.state = .queued)).length < v.queueDepth) = v.reqs.isEmpty ∧
      (s.prt 1).svcs.any (fun v => s.isFront v && v.reqs.any (fun r => r.tag = 8)) = !v.reqs.isEmpty ∧ v.outReady = []) ∧
    ((2 ^ 30) % 64 = 0 ∧ 4096 ≤ 2 ^ 30) ∧
    (∀ r ∈ [({ tag := 8 } : Request)], ∀ v ∈ [({ svc1 with reqs := [r] } : Svc)], v.reqs = r :: [] ∧ r.state = .queued ∧ r.tokens = [] ∧
      (v.reqs.filter Request.admittedNow).length < v.maxActive) ∧
    (∀ f ∈ [0, 1], ∀ v ∈ [({ svc1 with ringSize := 4096, outReady := [(3, f, [65])] } : Svc)], ∀ s ∈ [serving v],
      ∀ u ∈ [({ s with bridge := { s.bridge with linkUp := true } } : State)], u.svc 1 1 = some v ∧
      v.outReady = (3, f, [65]) :: [] ∧ u.bridge.linkUp = true ∧ (u.prt 1).resetting = false ∧ v.ringSize ≠ 0 ∧
      v.ringWrite % max 1 (v.ringSize - 64) + 32 ≤ v.ringSize - 64 ∧ v.ringWrite - 0 + 32 ≤ v.ringSize - 64) ∧
    (serving svc1).isBridge = false ∧
    (∀ v ∈ [({ svc1 with ringSize := 4096, outReady := [(3, 1, [65])], closing := true, reqs := [{ tag := 3 }] } : Svc)],
      (serving v).svc 1 1 = some v ∧ v.closing = true ∧ (∀ q ∈ v.reqs, q.tag = 3)) := by
  and_intros <;> decide +kernel

/-- Partition 1 with a KV pool. -/
def pool (k : KvSt) : State := (held 2 {}).modPrt 1 (fun x => { x with kv := k })

theorem wit_KvPagesAreLentAndReturned :
    (∀ s ∈ [pool { pages := 2, used := [(0, 5 * 65536 + 7)] }], 5 ≠ s.slot ∧ s.partState 1 ≠ 0 ∧ s.kvFree 1 1024 = [1] ∧
      s.kvHeld 5 1 7 0 = true ∧ s.kvHeld 5 1 7 1 = false ∧ s.pwr.serves = none ∧ s.kvRange 1 0 61376 = false ∧
      s.kvRange 1 (36864 - 64) 64 = true ∧ s.kvRange 1 0 36864 = true) ∧
    ((held 2 {}).partState 2 = 0 ∧ (held 2 {}).kvFree 1 1 = [] ∧ (pool { pages := 2 }).slot = 0 ∧
      ((pool { pages := 2 }).kvFree 1 1).length = 1) ∧
    (∀ s ∈ [pool { asking := [(7, 2 * 65536 + 1)] }], (s.prt 1).kv.asking.find? (fun a => a.1 = 7) = some (7, 2 * 65536 + 1) ∧
      (2 * 65536 + 1) / 65536 = [3, 4].length) ∧
    (∀ s ∈ [pool { borrowed := [(5 * 65536 + 7, 3)] }], s.kvRemote s.slot 1 7 3 = some 5 ∧ s.kvRemote 6 1 7 3 = none ∧
      s.kvHeld 6 1 7 3 = false ∧ s.pwr.serves = none) ∧
    (∀ s ∈ [pool { pages := 2, used := [(0, 5 * 65536 + 7)] }], s.locked = false ∧ s.kvHeld 5 1 7 0 = true ∧ s.kvRange 1 0 64 = true) := by
  and_intros <;> decide +kernel

theorem wit_KvAccessesServedOrWaiting :
    (∀ s ∈ [pool { pages := 2, used := [(0, 5 * 65536 + 7)] }], s.kvBursts 5 1 7 0 0 64 = true) ∧
    (∀ s ∈ [(pool { pages := 2, used := [(0, 5 * 65536 + 7)] }).setFlag F.cadCfgLocked true],
      s.kvHeld 5 1 7 0 = true ∧ s.kvRange 1 0 64 = true ∧ s.kvBursts 5 1 7 0 0 64 = false) := by
  simp only [List.mem_singleton, forall_eq]
  refine ⟨(State.hbmPay_free _ _ _ _ _ (by decide +kernel)).1, by decide +kernel, by decide +kernel, ?_⟩
  apply State.hbmServed_empty <;> decide +kernel

/-! ## Witnesses: bridge, interrupts and reading commands -/

/-- The bridge may fetch for function 0. -/
def fetching : State :=
  ((on.setFlag F.glbBridgeEnabled true).setFlag (F.ringStatusEnable 0) true).setF (F.ringCmdTailTail 0) 1

/-- A command entry of function 0, tag 7, for partition 0: opcode and target. -/
def entry (opcode target : Nat) : Bytes := leBytes 8 opcode ++ leBytes 4 7 ++ leBytes 20 target ++ leBytes 96 0

/-- The header that such an entry gives. -/
def hdr0 : CmdHdr := ⟨.host 0, 0, 0, 7, 0, 0⟩

/-- A relay of function 0 to slot 5 under tag 3. -/
def relay (d : Bool) : State := { on with bridge := { on.bridge with relays := [⟨3, 0, 7, 5, 0, d⟩] } }

/-- A QUERY of item 2 for partition 1, and an out-of-line PING of no bytes. -/
def query2 : Bytes := leBytes 4 1 ++ leBytes 1 0 ++ leBytes 3 1 ++ leBytes 4 7 ++ leBytes 16 0xFFFF ++ leBytes 4 4 ++ leBytes 16 0 ++ leBytes 4 2 ++ leBytes 76 0

theorem wit_BridgeFetchesAndRelays :
    on.canFetch 0 = false ∧ fetching.canFetch 0 = true ∧ opcodes.find? (fun o => o.1 = fieldAt (entry 0x0005 0xFFFF) 0 2) = none ∧
    (∀ e ∈ [entry 0x0001 0xFFFF, entry 0x0001 5], opcodes.find? (fun o => o.1 = fieldAt e 0 2) = some (fieldAt e 0 2, true, true) ∧
      fieldAt e 4 1 = 0 ∧ fieldAt e 2 2 < 4 ∧ fieldAt e 6 2 = 0 ∧ fieldAt e 14 14 = 0 ∧ fieldAt e 5 1 ≤ 15 ∧ fieldAt e 28 4 ≤ 80 ∧
      fieldAt e 44 4 = 0 ∧ 128 ≤ e.length ∧ (entry 0 0 |>.take 127).length < 128 ∧ (fieldAt e 12 2 ≤ 1023 ∨ fieldAt e 12 2 = 0xFFFF) ∧ fieldAt e 8 4 = 7) ∧
    (fieldAt query2 4 1 = 0 ∧ fieldAt query2 12 2 = 0xFFFF ∧ fieldAt query2 28 4 = 4 ∧ 128 ≤ query2.length ∧
      wholeCmd 1 true ((query2.drop 48).take 4) = false ∧ fieldAt query2 5 1 ≤ 15 ∧ paramsOk 1 4 ((query2.drop 48).take 4) = true ∧
      wholeCmd 1 true [] = true ∧ paramsOk 1 0 [] = false ∧ wholeCmd 0 true [] = true ∧ paramsOk 0 0 [] = true ∧
      opcodes.find? (fun o => o.1 = fieldAt (entry 0 0xFFFF) 0 2) = some (0, true, true)) ∧
    (fetching.permitted hdr0 true true = true ∧ fetching.tagUsed hdr0 = false ∧ fetching.tagTaken 0 7 = false) ∧
    (∀ s ∈ [({ fetching with bridge := { fetching.bridge with outst := [⟨.host 0, 7, 0, 0, 0, 0, false, 0, false⟩] } } : State)],
      s.canFetch 0 = true ∧ s.tagTaken 0 7 = true ∧ s.permitted hdr0 true true = true) ∧
    (∀ s ∈ [({ fetching with firn := { fetching.firn with topo := { slots := [{ slot := 5, present := true }] } } } : State)],
      s.canFetch 0 = true ∧ 5 ≠ s.slot ∧ s.slotServed 5 = true ∧ s.tagTaken 0 7 = false) ∧
    on.bridge.relays.find? (fun r => r.rtag = 3) = none ∧
    (∀ d ∈ [false, true], (relay d).bridge.relays.find? (fun r => r.rtag = 3) = some ⟨3, 0, 7, 5, 0, d⟩ ∧
      (relay d).bridge.linkUp = false ∧ { (relay d).bridge with linkUp := true }.linkUp = true) := by
  and_intros <;> decide +kernel

/-- The bridge with function 0 enabled, vector 0 unmasked, vector 1 masked and pending. -/
def vectors : State :=
  { fetching with bridge := { fetching.bridge with linkUp := true, msixMask := [(0, 0)], msixPend := [(0, 1)] } }

theorem wit_FunctionsResetAndInterrupts :
    on.regsWf ∧ vectors.fnEnabled 0 = true ∧ on.fnEnabled 0 = false ∧ vectors.fnEnabled 1 = false ∧
    (vectors.bridge.msixMask.contains (0, 0) = true ∧ vectors.bridge.linkUp = true) ∧ vectors.bridge.msixMask.contains (0, 1) = false ∧
    vectors.bridge.msixPend.contains (0, 1) = true ∧ vectors.bridge.msixPend.contains (0, 0) = false ∧
    on.bridge.irqLogged.contains 1 = false ∧
    ({ on with bridge := { on.bridge with irqLogged := [1] } } : State).bridge.irqLogged.contains 1 = true := by
  and_intros <;> decide +kernel

theorem wit_ReadingCommandsAnswer :
    (on.intake = true ∧ on.tooMany hdr0 = false ∧ on.tagUsed hdr0 = false) ∧ on.accepts hdr0 true true ∧ on.accepts hdr0 false true ∧ on.accepts hdr0 true false ∧
    (4096 ≤ 4096 ∧ 479 * 128 ≤ 61424) ∧
    (on.flag F.secStatusKeysValid = false ∧ (∀ s ∈ [on.setFlag F.secStatusKeysValid true], s.accepts hdr0 true true ∧
      s.flag F.secStatusKeysValid = true ∧ s.flag F.secDbgOpen = false)) ∧
    (on.topoOk = false ∧ on.firn.topo.bytes.length ≤ 48) ∧
    (on.accepts hdr0 true (hdr0.tenant.val = 0) ∧ (((on.logFrom hdr0 0 480).map Entry.bytes).flatten).length ≤ 61424) ∧
    (∀ s ∈ [own 1 objects], s.accepts hdr true false ∧ s.syncWaits = []) ∧
    (∀ h ∈ [hdr0], objects.opOk h.part 0 5 = true ∧ objects.opOk h.part 2 6 = true ∧ objects.opOk h.part 4 7 = true ∧ objects.opOk h.part 5 7 = true ∧
      objects.objOwned h.part 16383 = true ∧ objects.syncWaits = [] ∧ objects.resettingPart h false = false ∧ objects.permitted h false true = true) := by
  and_intros <;> decide +kernel

/-! ## Witnesses: partitions, HBM4, mailboxes and keys -/

/-- A descriptor of partition 1: tenant 0, logical tile 0, 256 MiB in each half, share 16. -/
def partDesc (n : Nat) : Bytes :=
  leBytes 4 n ++ leBytes 4 1 ++ leBytes 8 0 ++ leBytes 4 0 ++ leBytes 4 16 ++ leBytes 4 0 ++ leBytes 4 16 ++ leBytes 2 16 ++ leBytes 30 0

theorem wit_PartitionsComeAndGo :
    (on.accepts hdr false false ∧ on.partDescOk 1 (partDesc 1) = true ∧ on.partState 1 = 0 ∧ on.flag F.secDbgOpen = false ∧
      on.partFree (partDesc 1) = true) ∧ on.partDescOk 1 (partDesc 2) = false ∧
    ((own 0 on).partState 1 ≠ 0 ∧ (own 0 on).bridge.outst = [] ∧ ((own 0 on).wgt 1).swap = none ∧ (own 0 on).accepts hdr false false ∧ (own 0 on).progState 1 = 0 ∧ (own 0 on).accepts hdr true false ∧
      (own 0 on).pwr.running = none ∧ (own 1 on).accepts hdr false false ∧ (own 1 on).progState 1 ≠ 0) ∧
    (∀ s ∈ [(on.setF (F.partCfgState 2) 1).setF (F.partQosHbmShare 2) 240], s.accepts hdr false false ∧ s.partDescOk 1 (partDesc 1) = true ∧
      s.partState 1 = 0 ∧ s.partFree (partDesc 1) = false) ∧
    (∀ s ∈ [({ own 0 on with pwr := { up with running := some .warm } } : State)], s.accepts hdr true false ∧ s.partState 1 ≠ 0 ∧ s.pwr.running ≠ none) ∧
    (∀ s ∈ [(own 0 on).modPrt 1 (fun x => { x with resetting := true, discard := true })], (s.prt 1).resetting = true ∧
      (s.prt 1).discard = true ∧ (s.prt 1).endAt = none) ∧
    (∀ s ∈ [(own 0 on).setF (F.partCfgState 1) 3], s.partState 1 = 3 ∧ (s.prt 1).resetting = false) ∧ ((own 0 on).prt 1).resetting = false := by
  and_intros <;> decide +kernel

/-- An override of PART_QOS. -/
def ovr (clear share : Nat) : Bytes := leBytes 2 clear ++ leBytes 2 share ++ leBytes 2 255 ++ leBytes 10 0

theorem wit_SharesInterruptsAndBursts :
    ((own 0 on).accepts hdr false false ∧ (own 0 on).accepts hdr true false ∧ (own 0 on).partState 1 ≠ 0 ∧ (own 0 on).locked = false ∧
      (own 0 on).tenantSum 1 (fun j => ((own 0 on).prt j).shareNext) + 240 ≤ 240 ∧
      (own 0 on).tenantSum 1 (fun j => ((own 0 on).prt j).shareNext) + ((own 0 on).prt 1).share ≤ 240) ∧
    (∀ s ∈ [((own 0 on).setF (F.partCfgState 2) 1).modPrt 2 (fun x => { x with overrideNext := some (some ⟨240, 1⟩) })],
      s.accepts hdr false false ∧ 240 < s.tenantSum 1 (fun j => (s.prt j).shareNext) + 1 ∧
      240 < (s.modPrt 1 (fun x => { x with share := 16 })).tenantSum 1 (fun j => ((s.modPrt 1 (fun x => { x with share := 16 })).prt j).shareNext) +
        ((s.modPrt 1 (fun x => { x with share := 16 })).prt 1).share) ∧
    (∀ s ∈ [(own 2 locked).modPrt 1 (fun x => { x with prog := some { hbmPeak := 1 } }), own 1 locked], s.accepts hdr false false ∧ s.locked = true ∧
      (s.running 1 = false ∨ ((s.prt 1).prog.map Prog.hbmPeak).getD 0 ≤ 240 * s.burstsPerBeat * s.winLen / 256)) ∧
    (∀ c ∈ [0, 1], ∀ sh ∈ [1, 240, 241], (ovr c sh).length = 16 ∧ fieldAt (ovr c sh) 0 1 = c ∧ fieldAt (ovr c sh) 1 1 = 0 ∧
      fieldAt (ovr c sh) 2 2 = sh ∧ fieldAt (ovr c sh) 4 2 = 255 ∧ fieldAt (ovr c sh) 6 10 = 0) ∧
    (∀ s ∈ [(own 0 on).modPrt 1 (fun x => { x with irq := [(3, { count := 1, classes := 4, timer := true })] })],
      (Sparse.get (fun _ => ({} : IrqSt)) (s.prt 1).irq 3).timer = true ∧ (Sparse.get (fun _ => ({} : IrqSt)) (s.prt 1).irq 3).count ≠ 0) ∧
    (hbmSize ≤ 96000000000 / 64 * 64 ∧ 95999999999 / 64 * 64 < hbmSize ∧ (own 0 on).hbmOwns 1 0 64 = false) ∧
    (∀ s ∈ [(own 0 on).setF (F.partHbmLen 1 0) 1], s.hbmOwns 1 (16777215 / 64 * 64) 64 = true ∧ s.hbmOwns 1 16777216 64 = false ∧ s.locked = false ∧
      0 ∉ s.hbmBad) ∧
    (locked.locked = true ∧ (locked.prt 0).bucketW < 256 ∧ (locked.modPrt 0 (fun x => { x with bucketW := 256 })).locked = true ∧
      256 ≤ ((locked.modPrt 0 (fun x => { x with bucketW := 256 })).prt 0).bucketW) ∧
    (∀ s ∈ [locked.modPrt 0 (fun x => { x with bucketW := 256 })], s.locked = true ∧ (s.prt 0).hbmGrantW = 0 ∧
      (s.modPrt 0 (fun x => { x with hbmGrantW := 1 })).locked = true ∧ ((s.modPrt 0 (fun x => { x with hbmGrantW := 1 })).prt 0).hbmGrantW = 1 ∧
      256 ≤ ((s.modPrt 0 (fun x => { x with hbmGrantW := 1 })).prt 0).bucketW) ∧
    (on.log.spill = [] ∧ (∀ p < 16, (on.prt p).kv.used = [] ∧ (on.wgt p).resident.man = none ∧ (on.wgt p).staging.man = none ∧
      (on.wgt p).mirrorRes.man = none ∧ (on.wgt p).mirrorStg.man = none)) ∧
    (9 ∈ ({ on with hbmBad := [9] } : State).hbmBad ∧ 9 ∉ on.hbmBad) := by
  and_intros <;> decide +kernel

/-- Channel c of slot 5 or of the host; a bit of a register set. -/
def peer (c n : Nat) : State := on.setF (F.mbxCfgPeer c) n

theorem wit_MailboxesAndKeys :
    (∀ c ∈ [0, 8], (peer c 0x3FF).mbxHostPeer c = true ∧ (peer c 5).mbxHostPeer c = false ∧ (peer c 5).flag (F.mbxSendCtrlGo c) = false ∧
      (peer c 5).getF (F.mbxCfgPeer c) = 5 ∧ (peer c 6).getF (F.mbxCfgPeer c) ≠ 5 ∧ (peer c 0x3FF).flag (F.mbxHostSendCtrlGo 0 c) = false ∧
      (peer c 5).flag (F.mbxRecvCtrlFlag c) = false) ∧
    (∀ c ∈ [0, 8], ∀ p ∈ [5, 0x3FF], ((peer c p).setFlag (F.mbxSendCtrlGo c) true).flag (F.mbxSendCtrlGo c) = true ∧
      ((peer c p).setFlag (F.mbxRecvCtrlFlag c) true).flag (F.mbxRecvCtrlFlag c) = true) ∧
    (∀ s ∈ [(peer 8 0x3FF).setFlag (F.mbxHostRecvCtrlFlag 0 8) true], s.mbxHostPeer 8 = true ∧ s.flag (F.mbxHostRecvCtrlFlag 0 8) = true ∧
      s.sec.answers = []) ∧
    (∀ s ∈ [on.setFlag F.secStatusKeysValid true], s.staging (s.chanPart 8) = false ∧ s.flag F.secStatusKeysValid = true ∧
      s.flag F.secDbgOpen = false) ∧
    ((on.manKeysOf (on.chanPart 8)).length < 8 ∧ on.staging (on.chanPart 8) = false ∧
      ({ on with sec := { on.sec with manKeys := List.replicate 8 (0, 1, []) } } : State).manKeysOf 0 = List.replicate 8 (0, 1, [])) ∧
    (fieldAt (List.replicate 282 0) 8 1 < 4 ∧ on.opSigned (List.replicate 282 0) 142 = true) ∧
    (∀ s ∈ [({ on with firn := { on.firn with opKeys := [⟨0, 3, []⟩] } } : State)], (s.firn.opKeys.filter (fun k => k.id ≠ 0)).length ≠
      s.firn.opKeys.length) := by
  and_intros <;> decide +kernel

/-! ## Witnesses: the cadence domain -/

/-- A topology: this slot 0 in group 0, slot 5 with it, slot 6 the group's standby; roles and latencies of slot 0 are given. -/
def topo (m sm br : Bool) (lat : Nat) : Topo :=
  { epoch := 3, master := if m then 0 else 5,
    slots := [{ slot := 0, master := m, standbyMaster := sm, bridge := br, present := true, latMaster := lat, buddy := 5 },
      { slot := 5, master := !m, present := true }, { slot := 6, standby := true, present := true }] }

/-- The module in that topology with its domain records changed. -/
def dom (m sm br : Bool) (lk : Bool) (f : CadSt → CadSt) : State :=
  let s : State := { on with firn := { on.firn with topo := topo m sm br 40 }, cad := f on.cad }
  s.setFlag F.cadCfgLocked lk

/-- A mark of beat b under an epoch. -/
def mark (b : BitVec 64) (e : Byte) : Mark := ⟨b, 0, 0, 0, 5, 0xFFFFFFFFFFFFFFFF, e, false, false, 0, 0⟩

theorem wit_MarksRequestsAndMasters :
    (∀ s ∈ [dom true false false true (fun c => { c with masterNow := true, beat := 1024 })], s.cad.masterNow = true ∧ s.locked = true ∧
      s.cad.beat.toNat % 512 = 0 ∧ s.actsAsMaster = true ∧ s.cad.ext = none ∧ s.cad.episode < 4) ∧
    (∀ s ∈ [dom false true false true (fun c => { c with alignedRun := 7 })], s.cad.masterNow = false ∧ s.locked = true ∧
      s.me.standbyMaster = true ∧ s.getF F.cadMasterEpoch ≤ (mark 512 0).epoch.toNat ∧ s.actsAsMaster = false ∧ 7 ≤ s.cad.alignedRun ∧
      (0 - (((mark 512 0).beat.toNat * s.period + (mark 512 0).corr.toNat + s.me.latStandby : Nat) : Int)).natAbs = 512 * s.period ∧
      16 * s.period < 512 * s.period ∧ (0 : Int).natAbs ≤ 4 * s.period) ∧
    (∀ s ∈ [dom false true false true id], (((512 * s.period + s.me.latStandby + 16 * s.period : Nat) : Int) -
        (((mark 512 0).beat.toNat * s.period + (mark 512 0).corr.toNat + s.me.latStandby : Nat) : Int)).natAbs ≤ 16 * s.period) ∧
    (∀ s ∈ [(dom false true false true id).setF F.cadMasterEpoch 2], (mark 512 1).epoch.toNat < s.getF F.cadMasterEpoch) ∧
    (∀ s ∈ [dom true false false true (fun c => { c with masterNow := true, reqs := [⟨5, 3⟩] })], s.cad.masterNow = true ∧
      ({ s.cad with reqs := [⟨5, 9⟩] } : CadSt).maxReq ≠ s.cad.maxReq) ∧
    (∀ s ∈ [dom true false false true (fun c => { c with masterNow := true, episode := 4 })], s.actsAsMaster = true ∧ s.cad.ext = none ∧ 4 ≤ s.cad.episode) ∧
    (∀ s ∈ [dom true false false true (fun c => { c with masterNow := true, ext := some ⟨9, 1, 0⟩ })], s.actsAsMaster = true ∧
      s.cad.ext = some ⟨9, 1, 0⟩ ∧ s.win < 9 ∧ 0 < 9 ∧ 0 < (5000 : Word).toNat) ∧
    (∀ s ∈ [dom true false false true (fun c => { c with masterNow := true, running := true })], s.actsAsMaster = true ∧
      s.cad.running = true ∧ 5 ∈ s.others ∧ 5 ∉ s.cad.leftOut ∧ 5 ∉ s.cad.vacated) := by
  and_intros <;> decide +kernel

theorem wit_DomainBringUpAndMembership :
    ((dom false false true false id).me.bridge = true ∧ on.cad.fetch = none) ∧
    (∀ s ∈ [dom false false false false (fun c => { c with fetch := some (3, 0, []) })], s.cad.fetch = some (3, 0, []) ∧
      3 ≤ s.firn.topo.epoch ∧ s.firn.topo.epoch < (4 : Word).toNat ∧ (putPiece [] 0 [1, 2]).length < 3 ∧ s.me.master = false ∧
      2 ≤ (putPiece [] 0 [1, 2]).length ∧ (s.judgeTopo (putPiece [] 0 [1, 2])).2 = none) ∧
    (dom true false false false id).me.master = true ∧
    (∀ s ∈ [dom true false false true (fun c => { c with masterNow := true, joined := [6] })], s.me.master = true ∧ s.cad.masterNow = true ∧
      s.cad.running = false ∧ s.actsAsMaster = true ∧ 5 ∉ s.cad.joined ∧ 5 ∈ s.others ∧
      s.others.all (fun d => d = 5 || s.cad.joined.contains d || s.cad.leftOut.contains d) = true) ∧
    (∀ s ∈ [dom true false false true (fun c => { c with masterNow := true, running := true })], s.me.master = true ∧ s.cad.running = true ∧ 5 ≠ s.slot) ∧
    (∀ s ∈ [on], s.accepts hdr0 false true ∧ s.locked = false ∧ s.flag F.secDbgOpen = false ∧ s.anyRunning = false ∧
      s.firn.opKeys = [] ∧ s.topoOk = false ∧ (s.judgeTopo []).2 = none) ∧
    (locked.accepts hdr0 false true ∧ locked.locked = true) ∧ ((own 2 on).accepts hdr0 false true ∧ (own 2 on).anyRunning = true) := by
  and_intros <;> decide +kernel

/-! ## Witnesses: failover, retirement and images -/

theorem wit_FailoverHoldsAndMirrors :
    (∀ s ∈ [dom true false false true (fun c => { c with masterNow := true })], s.actsAsMaster = true ∧ 5 ∉ s.cad.failedSlots ∧
      s.standbyFor 5 = some 6) ∧
    ((held 1 { resident := { man := some (man 0) } }).partState 1 ≠ 0 ∧ (held 1 { resident := { man := some (man 0) } }).holdsLayers 1 6 = true ∧
      on.actsAsMaster = false) ∧
    ((own 2 on).partState 1 ≠ 0 ∧ ((own 2 on).prt 1).hold = none ∧ (own 2 on).running 1 = true ∧ ((own 2 on).wgt 1).swap = none) ∧
    (on.partState 2 = 0 ∧ (on.wgt 2).swap = none) ∧
    (∀ s ∈ [(own 2 on).modPrt 1 (fun x => { x with hold := some 2, coordHold := true })], s.partState 1 ≠ 0 ∧ (s.prt 1).hold ≠ none ∧
      s.pwr.serves = none ∧ (s.prt 1).coordHold = true ∧ (s.prt 1).hold ≠ some 1 ∧ s.pwr.ejecting = false ∧ (s.prt 1).hold ≠ some 4 ∧
      (s.wgt 1).swap = none) ∧
    (∀ s ∈ [dom false false false true id], s.pwr.serves = none ∧ s.me.buddy = 5) ∧ on.win = 0 ∧
    (∀ v ∈ [({ svc1 with outQ := [(3, 0, [65])] } : Svc)], ((serving v).prt 1).svcs.map (·.id) = [1] ∧ v.outQ ≠ []) ∧
    (∀ v ∈ [({ svc1 with reqs := [{ tag := 8, pages := 2 }, { tag := 9 }] } : Svc)],
      ∀ s ∈ [(serving v).modPrt 1 (fun x => { x with hold := some 2 })], (s.prt 1).hold ≠ none ∧ s.isFront v = true ∧
      v.reqs.map (·.pages) = [2, 0]) := by
  and_intros <;> decide +kernel

/-- Whether an image carries its digest is open, so one of the two clauses on it has its premise met. -/
theorem wit_RetirementVariantsAndImages :
    (∀ s ∈ [(own 2 on).setF (F.partCfgResW 1) 1], s.accepts hdr0 false true ∧ 0 < 96 ∧ s.absent 0 = false ∧ s.ownerOf 0 = 1 ∧ s.partState 1 ≠ 0 ∧
      s.getF (resField 1 (halfOf 0)) ≠ 0 ∧ (s.tile 0).failed = false) ∧
    ((own 2 on).getF (resField 1 (halfOf 0)) = 0) ∧
    (∀ s ∈ [(((own 2 on).setFlag (F.glbTmapCurValid 1) false).modPrt 1 (fun x => { x with coordHold := true, hold := some 1 })).modTile 0
        (fun x => { x with failed := true, heir := some 1 })],
      s.logical 0 = some 0 ∧ s.logical 1 = none ∧ (s.prt 1).coordHold = true ∧ (s.prt 1).hold = some 1 ∧ s.ownerOf 0 = 1 ∧ (s.tile 0).failed = true ∧
      (s.tile 0).heir = some 1) ∧
    (∀ s ∈ [({ loaded 2 with cad := { on.cad with masterNow := true } } : State)], s.cad.masterNow = true ∧ (s.prt 1).prog = some prog1 ∧ 1 < prog1.variants) ∧
    (on.win + 1 = (1 : BitVec 64).toNat ∧ on.win + 1 ≠ (2 : BitVec 64).toNat) ∧
    (∀ s ∈ [(own 0 on).setF (F.partHbmLen 1 0) 1], s.accepts hdr true false ∧ s.hbmOwns 1 16777152 64 = true ∧ s.hbmOwns 1 16777153 64 = false ∧
      s.partState 1 = 1 ∧ (s.prt 1).usable = true ∧ s.running 1 = false ∧ (s.imageAt 1 0).isSome = true ∧ s.imageAt 1 16777152 = none) ∧
    (∀ s ∈ [((own 2 on).setF (F.partHbmLen 1 0) 1).modPrt 1 (fun x => { x with prog := some { prog1 with size := 128 } })], s.accepts hdr true false ∧
      s.hbmOwns 1 64 64 = true ∧ (s.prt 1).prog = some { prog1 with size := 128 } ∧ s.running 1 = true ∧ 64 + 64 > 0 ∧ 64 < 0 + 128) := by
  and_intros <;> decide +kernel

/-! ## Witnesses: log, moulin, counters, firmware and debug -/

/-- The module with its log changed, in a moulin mode with n entries undrained. -/
def logging (mode n : Nat) (f : LogSt → LogSt) : State :=
  (({ on with log := f on.log } : State).setF F.logMoulinMode mode).setF F.logFillUndrained n

/-- Log entries of distinct sources. -/
def entries (n : Nat) : List Entry := (List.range n).map (fun k => { source := k, code := 0x1501 })

/-- A MOULIN_CFG descriptor. -/
def moulinDesc (mode : Nat) : Bytes := leBytes 2 mode ++ leBytes 2 10000 ++ leBytes 8 0 ++ leBytes 20 0

theorem wit_LogAndMoulin :
    ((logging 0 0 id).log.ingest.length < 256) ∧
    (∀ s ∈ [logging 0 0 (fun l => { l with ingest := entries 256, summary := [⟨{ source := 9, code := 7 }, 1, 0⟩] })],
      256 ≤ s.log.ingest.length ∧ s.log.summary.length < 1024 ∧ ({ flags := 4 } : Entry).flags / 4 % 2 = 1 ∧ ({} : Entry).flags / 4 % 2 = 0 ∧
      s.log.summary = [] ++ ⟨{ source := 9, code := 7 }, 1, 0⟩ :: [] ∧ (∀ x ∈ s.log.summary, x.first.source ≠ 8 ∨ x.first.code ≠ 7)) ∧
    (∀ s ∈ [logging 0 0 (fun l => { l with ingest := entries 256, summary := List.replicate 1024 ⟨{ source := 9, code := 7 }, 1, 0⟩ })],
      256 ≤ s.log.ingest.length ∧ 1024 ≤ s.log.summary.length ∧ (∀ x ∈ s.log.summary, x.first.source ≠ 8 ∨ x.first.code ≠ 7)) ∧
    ((logging 1 65536 id).logStalled = true ∧ (logging 0 65536 id).logStalled = false) ∧
    (∀ s ∈ [logging 0 0 (fun l => { l with ingest := entries 1 })], s.logStalled = false ∧ s.log.ingest = { source := 0, code := 0x1501 } :: [] ∧
      s.log.summary = [] ∧ s.getF F.logLostLost = 0) ∧
    (∀ s ∈ [logging 0 0 (fun l => { l with summary := [⟨{ source := 9, code := 7 }, 1, 0⟩] })], s.logStalled = false ∧
      s.log.summary = ⟨{ source := 9, code := 7 }, 1, 0⟩ :: [] ∧ s.log.ingest.length ≤ 64 ∧ s.log.alternate = false) ∧
    (∀ s ∈ [(logging 0 0 id).setF F.logLostLost 5], s.logStalled = false ∧ s.log.summary = [] ∧ s.log.ingest.length ≤ 64 ∧ 0 < s.getF F.logLostLost) ∧
    (∀ m ∈ [1, 2, 3], ∀ s ∈ [logging m 3 (fun l => { l with ring := entries 3 })], s.undrained.take 7 ≠ [] ∧ s.getF F.logMoulinMode = m ∧
      s.isBridge = false ∧ s.log.spill = [] ∧ s.log.batch = []) ∧
    (∀ s ∈ [(logging 2 3 (fun l => { l with ring := entries 3 })).setF F.logSpillLenLen 1], s.undrained.take 7 ≠ [] ∧ s.getF F.logMoulinMode = 2 ∧
      s.isBridge = false ∧ min (s.undrained.take 7).length (s.spillCap - s.log.spill.length) = 3) ∧
    ((logging 1 0 id).undrained.take 7 = [] ∧ (logging 1 0 id).log.batch = []) ∧
    (∀ s ∈ [(({ dom false false true false id with log := { on.log with ring := entries 3 }, bridge := { on.bridge with linkUp := true } } : State).setF
        F.logMoulinMode 1).setF F.logFillUndrained 3 |>.setFlag F.glbBridgeEnabled true],
      s.undrained.take 7 ≠ [] ∧ s.getF F.logMoulinMode = 1 ∧ s.isBridge = true ∧ s.bridge.linkUp = true ∧ s.log.spill = [] ∧ s.log.batch = [] ∧
      s.me.bridge = true) ∧
    (∀ s ∈ [logging 1 0 (fun l => { l with spill := entries 9 })], s.log.spill ≠ [] ∧ s.isBridge = false ∧ s.me.bridge = false) ∧
    (on.accepts hdr0 false true ∧ moulinDescOk (moulinDesc 3) = true ∧ moulinDescOk (moulinDesc 4) = false ∧ on.touchesTenant 0 0 = false) := by
  and_intros <;> decide +kernel

theorem wit_CountersAreSetAndLatched :
    (∀ s ∈ [own 1 on], s.accepts hdr true false ∧ 0 < 96 ∧ 15 < 16 ∧ eventOk 0 = true ∧ eventOk 0xFFF = false ∧ s.ownerOf 0 = 1 ∧ s.absent 0 = false) ∧
    (on.accepts hdr0 false true ∧ on.locked = false ∧ locked.accepts hdr0 false true ∧ locked.locked = true) ∧ (10 < 11 ∧ 4 < 5) := by
  and_intros <;> decide +kernel

/-- Firmware that is in a stage of an activation. -/
def activating (k : Nat) : State := { on with sec := { on.sec with activating := k } }

theorem wit_FirmwareAndDebugOpening :
    ((activating 1).sec.activating ≠ 0 ∧ (activating 1).accepts hdr0 false true ∧ on.sec.activating = 0 ∧ on.accepts hdr0 false true) ∧
    (0 + [1, 2].length < (3 : Word).toNat ∧ 0 + [1, 2].length = (2 : Word).toNat ∧ (1 : Word).toNat < 0 + [1, 2].length) ∧
    ((activating 2).sec.activating = 2 ∧ (activating 2).pwr.deferred = [] ∧ (activating 2).waitingFor 0x0701 none = []) ∧
    (∀ s ∈ [({ activating 2 with bridge := { on.bridge with outst := [⟨.host 0, 7, 0, 0, 0x0701, 0, true, 0, false⟩] } } : State)],
      s.bridge.outst = [⟨.host 0, 7, 0, 0, 0x0701, 0, true, 0, false⟩]) ∧
    (∀ s ∈ [({ on with sec := { on.sec with fuses := 63, fwRunSvn := 64 } } : State)], s.pwr.booted = true ∧ s.sec.fallback = false ∧
      s.sec.fuses < s.sec.fwRunSvn ∧ s.sec.fwRunSvn ≤ 64) ∧
    (on.sec.fwRunSvn ≤ on.sec.fuses) ∧
    ((List.replicate 260 (0 : Byte)).length = 260 ∧ on.secureSender (.host 0) = true ∧ on.flag F.secDbgOpen = false ∧ on.sec.erasing = none ∧
      on.pwr.running = none ∧ on.sec.lockout = false ∧ on.judgeToken (List.replicate 260 0) ≠ stOK) ∧
    (∀ s ∈ [({ on with sec := { on.sec with erasing := some (3, 0), lockout := true } } : State)], s.sec.erasing = some (3, 0) ∧
      s.pwr.deferred = [] ∧ s.sec.lockout = true) ∧
    (∀ s ∈ [({ on with sec := { on.sec with lockout := true } } : State)], s.accepts hdr0 false true ∧ s.sec.activating = 0 ∧
      s.secureSender hdr0.sender = true ∧ s.flag F.secDbgOpen = false ∧ s.sec.erasing = none ∧ s.pwr.running = none ∧ s.sec.lockout = true) ∧
    (∀ s ∈ [({ on with firn := { on.firn with opKeys := [⟨0, 3, []⟩] } } : State)], s.secureSender hdr0.sender = false ∧
      s.accepts hdr0 false true ∧ s.sec.activating = 0) := by
  and_intros <;> decide +kernel

/-! ## Witnesses: power, supply and resets -/

/-- The module with its power state changed. -/
def pwr (f : PwrSt → PwrSt) : State := { on with pwr := f on.pwr }

theorem wit_PowerComesAndGoes :
    on.isOn = true ∧ State.reset.isOn = false ∧
    (∀ s ∈ [({ State.reset with pwr := { presCount := true } } : State)], s.pwr.presCount = true ∧ s.pwr.hotSwap = false) ∧
    (on.pwr.hotSwap = true ∧ on.pwr.ejected = false ∧ on.getF F.pwrModeState ≠ 3 ∧ State.reset.pwr.hotSwap = false ∧ State.reset.pwr.presCount = false) ∧
    (∀ s ∈ [pwr (fun p => { p with inputGood := false, holdUp := true })], s.pwr.island = true ∧ s.pwr.holdUp = true ∧ s.pwr.hotSwap = true ∧
      s.pwr.inputGood = false) ∧ State.reset.pwr.island = false := by
  and_intros <;> decide +kernel

theorem wit_SupplyPinsAndWake :
    State.reset.pwr.railsOn = false ∧ on.pwr.railsOn = true ∧ on.flag F.supStatusWarn = false ∧ on.flag F.supStatusHold = false ∧
    (∀ s ∈ [({ on with pwr := { up with warned := [0, 2] } } : State).setF F.supStatusWarn 1], s.flag F.supStatusWarn = true ∧ 2 ∈ s.pwr.warned) ∧
    (∀ s ∈ [(withArr (fun x => { x with calDue := true })).setF F.supStatusHold 1], s.flag F.supStatusHold = true ∧ s.arrays ≠ [] ∧
      (∀ e ∈ s.arrays, e.1 < 12288)) ∧
    (∀ s ∈ [pwr (fun p => { p with supplyTimes := [5, 4] })], s.pwr.railsOn = true ∧
      3 ≤ (6 :: s.pwr.supplyTimes.filter (fun t => 6 - t ≤ 10000000)).length) ∧ ([6].length < 3) ∧
    (∀ s ∈ [pwr (fun p => { p with recovering := true, railsOn := false })], s.pwr.recovering = true ∧ s.pwr.inputGood = true ∧ s.pwr.heldOff = false) ∧
    (State.reset.isOn = false ∧ State.reset.pwr.recovering = false) ∧
    (∀ s ∈ [activating 1], s.isOn = true ∧ s.resetWaits = true) ∧
    (on.isOn = true ∧ on.resetWaits = false ∧ on.pwr.running ≠ some .supply ∧ on.pwr.running ≠ some .module ∧ on.pwr.heldAt2 = false) ∧
    (∀ s ∈ [dom true false false true id], s.isOn = true ∧ s.resetWaits = false ∧ s.servesDomain = true) ∧
    (∀ s ∈ [pwr (fun p => { p with resetPin := true, heldAt2 := true, running := some .module })], s.pwr.heldAt2 = true) ∧
    (on.pwrMode ≠ 3 ∧ (on.setF F.pwrModeState 3).pwrMode = 3) := by
  and_intros <;> decide +kernel

theorem wit_PowerStatesAndResetCommands :
    (∀ m ∈ [0, 1, 2], ∀ s ∈ [on.setF F.pwrModeState m], s.accepts hdr0 false true ∧ s.pwrMode = m ∧ s.pwr.idleWanted = false ∧
      s.anyRunning = false ∧ s.regsWf ∧ (∀ o ∈ s.bridge.outst, o.opcode ≠ 0x0900) ∧ (∀ o ∈ s.bridge.outst, o.opcode ≠ 0x0902) ∧
      s.pwr.ejecting = false ∧ s.anySwap = false ∧ (List.range 16).filter (fun n => n ≠ 0 && s.running n) = []) ∧
    (∀ s ∈ [on.setF F.pwrModeState 4], s.accepts hdr0 false true ∧ 2 < s.pwrMode) ∧
    (∀ s ∈ [own 2 on, own 2 (dom false false false false id)], s.accepts hdr0 false true ∧ s.pwrMode = 0 ∧ s.anyRunning = true ∧
      (List.range 16).filter (fun n => n ≠ 0 && s.running n) = [1] ∧ s.pwr.ejecting = false ∧ s.anySwap = false) ∧
    ((own 2 on).standbyFor (own 2 on).slot = none ∧
      (own 2 (dom false false false false id)).standbyFor (own 2 (dom false false false false id)).slot = some 6) ∧
    (∀ s ∈ [pwr (fun p => { p with idleWanted := true })], s.pwr.idleWanted = true ∧ s.anyRunning = false) ∧
    (∀ s ∈ [pwr (fun p => { p with ejecting := true, ejectOn := true })], s.pwr.ejecting = true ∧ s.pwr.ejectOn = true ∧ s.regsWf ∧
      (∀ n < 16, (s.prt n).coordHold = false ∨ (s.prt n).hold ≠ some 4)) ∧
    (∀ s ∈ [activating 1], s.resetWaits = true) ∧
    (on.accepts hdr0 false true ∧ on.resetWaits = false ∧ on.pwr.running = none ∧ (∀ k < 112, on.temp k < on.getF F.thmCfgTh)) ∧
    (∀ s ∈ [pwr (fun p => { p with running := some .module })], s.accepts hdr0 false true ∧ s.resetWaits = false ∧ s.pwr.running = some .module) ∧
    (∃ k < 112, (on.setF (F.thmSensTemp 111) 400).getF F.thmCfgTh ≤ (on.setF (F.thmSensTemp 111) 400).temp k) := by
  refine ⟨?_, ?_, ?_, ⟨?_, ?_⟩, ?_, ?_, ?_, ⟨?_, ?_, ?_, ?_⟩, ?_, 111, ?_⟩ <;> decide +kernel

/-! ## Witnesses: thermal control, domains, converter and registers -/

theorem wit_TemperaturesAndSettings :
    on.regsWf ∧ on.flag (F.thmSensBroken 3) = false ∧ on.getF F.thmCfgShut ≤ (on.setF (F.thmSensTemp 111) 472).temp 111 ∧
    (∀ s ∈ [on.setF (F.thmSensBroken 3) 1], s.flag (F.thmSensBroken 3) = true ∧ s.regsWf) ∧
    (399 < 400 ∧ 400 + 32 ≤ 432 ∧ 400 ≤ 432 ∧ 432 ≤ 472 ∧ 340 ≤ 400) ∧ (90 ≤ 97 ∧ 85 ≤ 94 ∧ 94 + 3 ≤ 97 ∧ 10 ≤ 50) := by
  and_intros <;> decide +kernel

/-- The converter changed. -/
def hk (f : HkSt → HkSt) : State := { on with hk := f on.hk }

theorem wit_DomainsAndConverter :
    (∀ d ∈ [0, 47], on.flag (F.pwrDomLocked d) = false ∧ on.domainGoal d ≠ 1 ∧ on.pwr.domWait = [] ∧ on.pwr.domRamp.length < 4 ∧
      (on.setF (F.pwrDomLocked d) 1).flag (F.pwrDomLocked d) = true) ∧
    (on.me.bridge = false ∧ (dom false false true false id).me.bridge = true ∧ (dom false false true false id).flag (F.pwrDomLocked 71) = false ∧
      (dom false false true false id).domainGoal 71 ≠ 2 ∧ on.domainGoal 71 = 0) ∧
    (on.domainGoal 0 = 2 ∧ on.pwr.domRamp = []) ∧
    (∀ s ∈ [pwr (fun p => { p with domRamp := [(1, 2), (2, 2), (3, 2), (4, 2)] })], s.flag (F.pwrDomLocked 5) = false ∧ s.domainGoal 5 ≠ 2 ∧
      s.pwr.domWait = [] ∧ s.pwr.domRamp.length = 4) ∧
    (∀ r ∈ [0, 1, 2], ∀ s ∈ [pwr (fun p => { p with domRamp := [(47, r)] })], s.pwr.domRamp = [(47, r)] ∧ s.pwr.domWait = [] ∧ r < 3) ∧
    (on.getF F.hkTimerPeriod ≠ 0 ∧ (on.setF F.hkTimerPeriod 0).getF F.hkTimerPeriod = 0) ∧
    (on.hk.scan = none ∧ on.hk.conv = none ∧ on.hk.urgent = [] ∧ on.hk.delays = [] ∧ on.hk.fifo = []) ∧
    (((on.setR (R.hkMask 0) 0x80000001).setR (R.hkMask 1) 0).scanChannels = [0, 31] ∧ ((on.setR (R.hkMask 0) 0).setR (R.hkMask 1) 0).scanChannels = []) ∧
    (∀ s ∈ [hk (fun k => { k with scan := some (0, [3]), conv := some (2, 0) })], s.hk.scan ≠ none ∧ s.hk.pendingTrig = none ∧
      s.hk.conv = some (2, 0) ∧ s.hk.urgent = [] ∧ s.hk.scan = some (0, 3 :: []) ∧ s.hk.fifo.length < 256 ∧ s.hk.urgent.length < 4) ∧
    (∀ s ∈ [hk (fun k => { k with scan := some (0, []), conv := some (2, 2), urgent := [5], fifo := List.replicate 256 0, pendingTrig := some 1 })],
      s.hk.scan ≠ none ∧ s.hk.pendingTrig ≠ none ∧ s.hk.conv = some (2, 2) ∧ s.hk.urgent = 5 :: [] ∧ 256 ≤ s.hk.fifo.length) ∧
    (∀ s ∈ [hk (fun k => { k with scan := some (0, []), conv := some (2, 1) })], s.hk.scan = some (0, []) ∧ s.hk.urgent = [] ∧ s.hk.pendingTrig = none) ∧
    (∀ s ∈ [(hk (fun k => { k with delays := [15] })).setF (F.hkPwmEnable 15) 1], s.flag (F.hkPwmEnable 15) = true ∧ 15 ∈ s.hk.delays ∧ 14 ∉ s.hk.delays) ∧
    (on.flag (F.hkPwmEnable 15) = false ∧ (on.setF (F.hkPwmEnable 15) 1).flag (F.hkPwmEnable 15) = true) ∧
    (∀ s ∈ [hk (fun k => { k with urgent := [1, 2, 3, 4], fifo := [9] })], 4 ≤ s.hk.urgent.length ∧ s.hk.fifo = 9 :: []) := by
  and_intros <;> decide +kernel

theorem wit_RegistersAreReadAndWritten :
    (on.reach .core 0x7FFFFFFC = none ∧ ((1 : Nat) % 4 ≠ 0) ∧ (on.setFlag (F.tileIdPresent 95) false).absent 95 = true) ∧
    (∀ r ∈ [R.hkTimer, R.hkCmpEvt, R.pwrStatus, R.pwrDom 71, R.thmCfg, R.supCfg, R.glbTmapCtrl, R.pwrInstall, R.pwrWake, R.hkCmpCfg 15],
      on.reach .core r.addr = some r) ∧
    (∀ l ∈ [regAddrs (BitVec.ofNat 32 R.hkTimer.addr) 1], on.regsMapped l = true ∧ on.accepts hdr0 (on.regsAllowed hdr0 false l) true ∧
      on.accepts hdr0 (on.regsAllowed hdr0 true l) true ∧ on.reach .core (BitVec.ofNat 32 R.hkTimer.addr).toNat = some R.hkTimer) ∧
    (∀ l ∈ [regAddrs (BitVec.ofNat 32 (R.glbTmapCur 0).addr) 12], on.regsMapped l = true ∧ 4 * 12 ≤ 48) ∧
    (on.accepts hdr0 (on.regsAllowed hdr0 false (regAddrs 0x7FFFFFFC 1)) true ∧ on.regsMapped (regAddrs 0x7FFFFFFC 1) = false) ∧
    (on.reach .smbus R.hkTimer.addr = some R.hkTimer ∧ on.reach .smbus 0x7FFFFFFC = none) ∧
    (∀ s ∈ [(pwr (fun p => { p with booted := false })).setFlag F.secStatusRecovery true], s.flag F.secStatusRecovery = true ∧ s.pwr.booted = false) ∧
    (on.flag F.secStatusRecovery = false) ∧
    (∀ s ∈ [on.setFlag F.glbBridgeEnabled true], s.fnEnabled 0 = true ∧ s.fnEnabled 1 = false ∧ 0 / 16 < msixVectors 0 ∧ 12 % 4 = 0 ∧
      12 / 4 % 4 = 3 ∧ (1 : Word).getLsbD 0 = true ∧ 12 < 4096) := by
  and_intros <;> decide +kernel

/-! ## Witnesses: the machine as a whole -/

theorem wit_StepRunsTheFrontCommand : on.pending = [] := by decide +kernel

theorem wit_StepsKeepCanonicalForms :
    on.hbmWf ∧ on.regsWf ∧ step { on with pending := [.smbusBlockRead, .fuseBlow] } = .next { on with pending := [.fuseBlow], smbOut := [0] } := by
  refine ⟨?_, ?_, rfl⟩ <;> decide +kernel

theorem wit_FusesOnlyRise : exec .smbusBlockRead on = .next { on with smbOut := [0] } ∧ on.sec.fuses ≤ 64 := by
  refine ⟨rfl, ?_⟩; decide +kernel

/-! ## Ill-formed commands -/

theorem test_wf_refuses_operands :
    [Instr.qa4 0 vop { qop with l := 0xFF }, .qa4 0 vop { qop with l := 0 }, .qa4 0 vop { qop with k := 17 }, .qa4 0 vop { qop with seg := 3 },
      .qa4 0 vop { qop with off := 2 ^ 32 }, .qa8 0 vop 0 (2 ^ 32), .vuLd 0 vop (2 ^ 32), .vuSt 0 vop (2 ^ 32), .vuLdb 0 vop (2 ^ 32),
      .wrrow 0 3 1023 2 0, .wrrow 0 3 0 0 0, .rdrow 0 3 1 1024 0, .wrscale 0 3 31 2 0, .hbmBurst 0 32 none {}, .hbmLineRestored 0 [],
      .smbusFirmwareChunk 0 (List.replicate 25 0) true, .registerWrite .core (2 ^ 32) 0].all (fun i => !i.wf) = true := by decide +kernel

theorem test_wf_refuses_messages :
    [Instr.init 0 5 [1, 2, 3, 4, 5] 40 16, .init 0 5 [1, 2, 3, 4, 5, 65536] 40 16, .init 0 5 [1, 2, 3, 4, 5, 6] 256 16,
      .init 0 5 [1, 2, 3, 4, 5, 6] 40 65536, .mbxMsg 5 0 [], .topoQuery 5 0 (2 ^ 32) 0, .topoQuery 5 0 0 61001, .topoInfo 0 (2 ^ 32) 0 [],
      .topoInfo 0 0 (2 ^ 32) [], .domainRun 0 [1024], .shardSeg 1 0 (2 ^ 32) 0 [], .shardReq 5 1 0 (2 ^ 32) 0 0, .shardReq 5 1 0 0 (2 ^ 32) 0,
      .logBatch 5 [], .logBatch 5 (List.replicate 8 {}), .logBatch 5 [{ code := 65536 }], .logReport { source := 65536 }, .logReport { part := 256 },
      .logReport { flags := 256 }, .logReport { subns := 2 ^ 32 }, .logReport { tag := 2 ^ 32 }].all (fun i => !i.wf) = true := by decide +kernel

theorem test_wf_refuses_relays_and_pages :
    [Instr.mirrorRec 5 0 1 0 (2 ^ 64) [], .commandFetch 0 [], .streamRecordWrite 1 (2 ^ 32) 0 0, .streamRecordWrite 1 1 (2 ^ 32) 0, .kvAlloc 5 1 7 0,
      .kvAlloc 5 1 7 1025, .kvFree 5 1 7 (2 ^ 32), .kvRead 5 1 7 (2 ^ 32) 0 64, .kvRead 5 1 7 0 (2 ^ 32) 64, .kvRead 5 1 7 0 32 64,
      .kvRead 5 1 7 0 64 63, .kvRead 5 1 7 0 0 61440, .kvWrite 5 1 7 (2 ^ 32) 0 [], .kvWrite 5 1 7 0 (2 ^ 32) [], .kvWrite 5 1 7 0 0 [1],
      .kvPageReply 5 1 7 0 [2 ^ 32] []].all (fun i => !i.wf) = true := by decide +kernel

/-- Longer data than a command or message can carry. -/
def big (n : Nat) : Bytes := List.replicate n 0
theorem big_length (n : Nat) : (big n).length = n := List.length_replicate ..
/-- As many words. -/
def bigWords (n : Nat) : List Word := List.replicate n 0
theorem bigWords_length (n : Nat) : (bigWords n).length = n := List.length_replicate ..

theorem test_wf_refuses_long_data :
    (Instr.topoInfo 0 0 0 (big 61001)).wf = false ∧ (Instr.relayReply 0 0 5 0 (big 61425)).wf = false ∧ (Instr.kvWrite 5 1 7 0 0 (big 61440)).wf = false ∧
    (Instr.kvPageReply 5 1 7 0 [] (big 61425)).wf = false ∧ (Instr.shardSeg 1 0 0 0 (big (2 ^ 32))).wf = false ∧
    (Instr.mirrorRec 5 0 1 0 0 (big (2 ^ 32))).wf = false ∧ (Instr.regWrite hdr 0 0 (bigWords 15351)).wf = false := by
  simp [Instr.wf, big_length, bigWords_length, paramsFit, fits4]

theorem test_wf_refuses_long_parameters :
    (Instr.partCreate hdr (big 61409)).wf = false ∧ (Instr.partQos hdr (big 61409)).wf = false ∧ (Instr.topoPut hdr 0 0 (big 61401)).wf = false ∧
    (Instr.manifestPut hdr 0 0 (big 61401)).wf = false ∧ (Instr.shardPut hdr 0 0 (big 61401)).wf = false ∧ (Instr.progPut hdr 0 (big 61401)).wf = false ∧
    (Instr.svcOpen hdr (big 61409)).wf = false ∧ (Instr.reqSubmit hdr (big 61400) (big 9) 0).wf = false ∧ (Instr.moulinCfg hdr (big 61409)).wf = false ∧
    (Instr.fwPut hdr 0 0 (big 61401)).wf = false ∧ (Instr.debugOpen hdr (big 61409) 0).wf = false ∧ (Instr.tenantKey 8 (big 15301)).wf = false ∧
    (Instr.manifestKeyAdd 8 (big 15301)).wf = false ∧ (Instr.manifestKeyRemove 8 (big 15301)).wf = false ∧ (Instr.operatorKeySet 0 (big 15301)).wf = false ∧
    (Instr.operatorKeyRevoke 0 (big 15301)).wf = false := by
  simp [Instr.wf, big_length, paramsFit, keyMsgWf]

/-- Every command that carries a header refuses one of a function above 63, of a slot above 1023, or with a buffer length of more than four
bytes. -/
theorem test_wf_refuses_headers :
    ([({ hdr with sender := .host 64 } : CmdHdr), { hdr with sender := .slot 1024 }, { hdr with rbuf := 2 ^ 32 }].all (fun h =>
      [Instr.commandBadOpcode h 5, .ping h, .query h 0, .regRead h 0 1, .regWrite h 0 1 [0], .syncOp h 0 8 0, .partCreate h [], .partDestroy h, .partReset h,
       .partQos h [], .partIrq h 0 0 0, .topoGet h, .topoPut h 0 0 [], .domainJoin h, .domainLeave h, .manifestPut h 0 0 [], .stage h 0,
       .shardPut h 0 0 [], .swap h 0, .progPut h 0 [], .progLoad h 0, .progStart h 0, .progStop h, .progVariant h 0, .svcOpen h [],
       .svcClose h 1].all (fun i => !i.wf))) = true ∧
    ([({ hdr with sender := .host 64 } : CmdHdr), { hdr with sender := .slot 1024 }, { hdr with rbuf := 2 ^ 32 }].all (fun h =>
      [Instr.reqSubmit h [] [] 0, .reqCancel h 0, .streamCfg h 1 0 0, .logRead h 0 1, .moulinCfg h [], .ctrCfg h 0 0 0, .ctrSnap h 0 0, .nvRead h 0 1,
       .fwPut h 0 0 [], .fwActivate h, .attest h 0, .certGet h, .debugOpen h [] 0, .pwrStateRun h, .pwrStateIdle h, .pwrStateRetain h, .pwrStateDeep h,
       .tileRetire h 0, .ejectPrep h true, .resetWarm h, .resetModule h, .thermalClear h].all (fun i => !i.wf))) = true := by
  constructor <;> decide +kernel

/-! ## Single steps -/

/-- What a command leaves, looked at. -/
def after {α : Type} (i : Instr) (s : State) (f : State → α) : Option α :=
  match exec i s with
  | .next u => some (f u)
  | _ => none

/-- Lane 0 of the registers 2, 3 and 4 of the vector unit. -/
def lanes (a b c : Word) : State := withTile (fun x => { x with vregs := [(2048, a), (3072, b), (4096, c)] })

/-- Table 6.6, FMA: (1 + 2^-23)² - (1 + 2^-22) is 2^-46, which two roundings would lose. -/
theorem test_fma_rounds_once :
    after (.vuFma 0 vop) (lanes 0x3F800001 0x3F800001 0xBF800002) (fun u => (u.tile 0).lane 1 0) = some 0x28800000 := by decide +kernel

/-- ADD: 1 + 2^-24 lies halfway and goes to the even 1. -/
theorem test_add_ties_to_even :
    after (.vuAdd 0 vop) (lanes 0x3F800000 0x33800000 0) (fun u => (u.tile 0).lane 1 0) = some 0x3F800000 := by decide +kernel

/-- CVTF2I: 2.5 to the even 2, NaN to 0, 2^31 saturates. -/
theorem test_cvtf2i :
    [0x40200000, 0x7FC00000, 0x4F000000].map (fun w => after (.vuCvtf2i 0 vop) (lanes w 0 0) (fun u => (u.tile 0).lane 1 0)) =
      [some 2, some 0, some 0x7FFFFFFF] := by decide +kernel

/-- IMUL modulo 2^32; a lane beyond LANES keeps its value. -/
theorem test_imul_wraps :
    after (.vuImul 0 vop) (lanes 0x10001 0x10001 0) (fun u => ((u.tile 0).lane 1 0, (u.tile 0).lane 1 2)) = some (0x20001, 0) := by decide +kernel

/-- A slotted core with words in registers 4 and 5. -/
def tc (a b : Word) : State := withTile (fun x => { x with tc := [(1, { regs := [(4, a), (5, b)] })] })

/-- Table 6.8: the sum wraps, the signed product's high half, an arithmetic shift by rs2[4:0], an unsigned comparison. -/
theorem test_tile_core_arithmetic :
    after (.tcAdd (cop 0)) (tc 0xFFFFFFFF 2) (fun u => (u.tcore (cop 0)).reg 3) = some 1 ∧
    after (.tcMulh (cop 0)) (tc 0xFFFFFFFF 2) (fun u => (u.tcore (cop 0)).reg 3) = some 0xFFFFFFFF ∧
    after (.tcSra (cop 0)) (tc 0x80000000 33) (fun u => (u.tcore (cop 0)).reg 3) = some 0xC0000000 ∧
    after (.tcSltu (cop 0)) (tc 0xFFFFFFFF 2) (fun u => (u.tcore (cop 0)).reg 3) = some 0 := by
  and_intros <;> decide +kernel

/-- x0 takes no write. -/
theorem test_x0 : after (.tcAdd { cop 0 with rd := 0 }) (tc 1 2) (fun u => (u.tcore (cop 0)).reg 0) = some 0 := by decide +kernel

/-- R378: a report that may not be folded is lost while the ingest queue is full, and counted. -/
theorem test_lost_writes_are_counted :
    after (.logReport { code := 0x1501, flags := 4 }) (logging 0 0 (fun l => { l with ingest := entries 256 })) (fun u =>
      (u.log.ingest.length, u.getF F.logLostLost)) = some (256, 1) := by decide +kernel

/-- Chapter 10: SIGNAL adds its value to a semaphore; a WAIT whose value is there takes it. -/
theorem test_semaphore :
    after (.sync 0 0 0 5 3) objects (fun u => u.getR (R.syncObj 5)) = some 5 ∧
    after (.sync 0 0 1 5 2) objects (fun u => u.getR (R.syncObj 5)) = some 0 := by
  and_intros <;> decide +kernel

/-- R412: SHUT above 118 °C is refused, and CFG_ERR set. -/
theorem test_thm_cfg_refuses :
    after (.thmCfgWrite (BitVec.ofNat 32 (380 + 2 ^ 10 * 400 + 2 ^ 20 * 473))) on (fun u => (u.getF F.thmCfgShut, u.flag F.thmStatusCfgErr)) =
      some (472, true) := by decide +kernel

/-- R16: HBM4 ends at byte 96,000,000,000. -/
theorem test_hbm_ends : exec (.hbmBurst 0 96000000000 none {}) on = .fault .noSuchHbmAddress := by rfl

/-- R10: a write to an address that no register has changes nothing. -/
theorem test_write_nowhere : after (.registerWrite .core 0x7FFFFFFC 1) on (fun u => decide (u = on)) = some true := by decide +kernel

/-- R443: the fuses follow the version that has run. -/
theorem test_fuse :
    after .fuseBlow ({ on with sec := { on.sec with fuses := 3, fwRunSvn := 5 } } : State) (fun u => u.sec.fuses) = some 5 := by decide +kernel

/-- Table 8.4, ECHO_REPLY: 90 taps less the residence of 500 ps; half of the round trip is the one-way latency. -/
theorem test_echo_reply :
    after (.echoReply 0 100 500 190) (port0 3 id) (fun u => (u.getF (F.portLatRtt 0), u.getF (F.portLatOneWay 0))) = some (80, 40) := by
  decide +kernel

/-- Tables 10.2 and 10.4: the reply to PING carries the command's TAG and STATUS OK. -/
theorem test_ping : after (.ping hdr0) on (fun u => u.replies.map (fun r => (r.tag, r.status))) = some [(7, 0)] := by decide +kernel

/-- R228: REPLAY goes back to the flit it names. -/
theorem test_replay :
    after (.replay 0 7) (port0 3 (fun x => { x with retry := [{ seq := 6 }, { seq := 7 }, { seq := 8 }] })) (fun u => (u.port 0).resending) = some 2 := by
  decide +kernel

end Sys2Proof.Tests
end

section
/-! PROOFS. The row port, the scrub and ARR_CFG: what a field's neighbours keep, where the registers of an array stand, what the row
port's operations leave alone, and the statement about them. -/

namespace Sys2Proof.Machine

/-! ## Fields of one register -/

/-- `withBits` as a number: the bits above the field, the field, the bits below it. -/
theorem toNat_withBits (w : Word) (hi lo v : Nat) (h : hi < 32) (hl : lo ≤ hi) :
    (withBits w hi lo v).toNat =
      w.toNat / 2 ^ (hi + 1) * 2 ^ (hi + 1) + v % 2 ^ (hi + 1 - lo) * 2 ^ lo + w.toNat % 2 ^ lo := by
  unfold withBits
  rw [BitVec.toNat_ofNat, Nat.mod_eq_of_lt (withBits_lt w hi lo v h hl)]

theorem two_pow_succ_hi {hi lo : Nat} (hl : lo ≤ hi) : 2 ^ (hi + 1) = 2 ^ lo * 2 ^ (hi + 1 - lo) := by
  rw [← pow_add]; congr 1; omega

/-- A write of a field leaves the bits below it alone. -/
theorem withBits_mod_below (w : Word) (hi lo v : Nat) (h : hi < 32) (hl : lo ≤ hi) :
    (withBits w hi lo v).toNat % 2 ^ lo = w.toNat % 2 ^ lo := by
  have hmul : ∀ q f b : Nat, q * 2 ^ (hi + 1) + f * 2 ^ lo + b = b + 2 ^ lo * (2 ^ (hi + 1 - lo) * q + f) := by
    intro q f b; rw [two_pow_succ_hi hl]; ring
  rw [toNat_withBits w hi lo v h hl, hmul, Nat.add_mul_mod_self_left, Nat.mod_mod]

/-- A write of a field leaves the bits above it alone. -/
theorem withBits_div_above (w : Word) (hi lo v : Nat) (h : hi < 32) (hl : lo ≤ hi) :
    (withBits w hi lo v).toNat / 2 ^ (hi + 1) = w.toNat / 2 ^ (hi + 1) := by
  have hb : w.toNat % 2 ^ lo < 2 ^ lo := Nat.mod_lt _ (Nat.two_pow_pos _)
  have hv : v % 2 ^ (hi + 1 - lo) < 2 ^ (hi + 1 - lo) := Nat.mod_lt _ (Nat.two_pow_pos _)
  have hlt : v % 2 ^ (hi + 1 - lo) * 2 ^ lo + w.toNat % 2 ^ lo < 2 ^ (hi + 1) := by
    calc _ < v % 2 ^ (hi + 1 - lo) * 2 ^ lo + 2 ^ lo := Nat.add_lt_add_left hb _
      _ = 2 ^ lo * (v % 2 ^ (hi + 1 - lo) + 1) := by ring
      _ ≤ 2 ^ lo * 2 ^ (hi + 1 - lo) := Nat.mul_le_mul_left _ hv
      _ = _ := (two_pow_succ_hi hl).symm
  rw [toNat_withBits w hi lo v h hl, Nat.add_assoc, Nat.add_comm, Nat.add_mul_div_right _ _ (Nat.two_pow_pos _),
    Nat.div_eq_of_lt hlt, Nat.zero_add]

/-- The bits h to l of a number depend on its bits up to h alone. -/
theorem field_mod (n h l k : Nat) (hk : h < k) (hl : l ≤ h) :
    n / 2 ^ l % 2 ^ (h + 1 - l) = n % 2 ^ k / 2 ^ l % 2 ^ (h + 1 - l) := by
  have hcut : ∀ m : Nat, m / 2 ^ l % 2 ^ (h + 1 - l) = m % 2 ^ (l + (h + 1 - l)) / 2 ^ l := by
    intro m; rw [pow_add, Nat.mod_mul_right_div_self]
  have hd : 2 ^ (l + (h + 1 - l)) ∣ 2 ^ k := Nat.pow_dvd_pow 2 (by omega)
  rw [hcut, hcut, Nat.mod_mod_of_dvd _ hd]

/-- A write of a field leaves the bits below it and above it alone. -/
theorem bitsOf_withBits_apart (w : Word) (hi lo v h l : Nat) (hhi : hi < 32) (hlo : lo ≤ hi) (hap : h < lo ∨ hi < l) :
    bitsOf (withBits w hi lo v) h l = bitsOf w h l := by
  unfold bitsOf
  rcases hap with hap | hap
  · by_cases hl : l ≤ h
    · rw [field_mod _ h l lo hap hl, withBits_mod_below w hi lo v hhi hlo, ← field_mod _ h l lo hap hl]
    · have hz : h + 1 - l = 0 := by omega
      rw [hz, pow_zero, Nat.mod_one, Nat.mod_one]
  · have hp : 2 ^ l = 2 ^ (hi + 1) * 2 ^ (l - (hi + 1)) := by rw [← pow_add]; congr 1; omega
    rw [hp, ← Nat.div_div_eq_div_mul, ← Nat.div_div_eq_div_mul, withBits_div_above w hi lo v hhi hlo]

/-- A write of a field leaves the other fields of its register alone. -/
theorem State.getF_setF_apart (s : State) (f g : FieldRef) (v : Nat) (hr : g.reg = f.reg) (hhi : f.hi < 32) (hlo : f.lo ≤ f.hi)
    (hap : g.hi < f.lo ∨ f.hi < g.lo) : (s.setF f v).getF g = s.getF g := by
  unfold State.getF State.setF
  rw [hr, State.getR_setR_same]
  exact bitsOf_withBits_apart _ _ _ _ _ _ hhi hlo hap

theorem State.flag_setFlag_apart (s : State) (f g : FieldRef) (b : Bool) (hr : g.reg = f.reg) (hhi : f.hi < 32) (hlo : f.lo ≤ f.hi)
    (hap : g.hi < f.lo ∨ f.hi < g.lo) : (s.setFlag f b).flag g = s.flag g := by
  unfold State.flag State.setFlag
  rw [State.getF_setF_apart s f g _ hr hhi hlo hap]

/-- A one-bit field holds the truth value put into it. -/
theorem State.flag_setFlag_same (s : State) (f : FieldRef) (b : Bool) (hhi : f.hi < 32) (hlo : f.lo = f.hi) :
    (s.setFlag f b).flag f = b := by
  have hw : f.hi + 1 - f.lo = 1 := by omega
  unfold State.flag State.setFlag
  rw [State.getF_setF_same _ _ _ hhi hlo.le, hw]
  cases b <;> rfl

/-! ## Where the registers of an array stand -/

theorem addr_arrCfg (t a : Nat) : (R.arrCfg t a).addr = 0x10080000 + 0x100000 * t + 0x1000 * a := by
  simp [Reg.addr, RegKind.geom, Block.base]; omega
theorem addr_arrStatus (t a : Nat) : (R.arrStatus t a).addr = 0x10080004 + 0x100000 * t + 0x1000 * a := by
  simp [Reg.addr, RegKind.geom, Block.base]; omega
theorem addr_arrPortCmd (t a : Nat) : (R.arrPortCmd t a).addr = 0x10080008 + 0x100000 * t + 0x1000 * a := by
  simp [Reg.addr, RegKind.geom, Block.base]; omega
theorem addr_arrScrub (t a : Nat) : (R.arrScrub t a).addr = 0x10080018 + 0x100000 * t + 0x1000 * a := by
  simp [Reg.addr, RegKind.geom, Block.base]; omega
theorem addr_arrSpareMap (t a k : Nat) : (R.arrSpareMap t a k).addr = 0x10080100 + 0x100000 * t + 0x1000 * a + 4 * k := by
  simp [Reg.addr, RegKind.geom, Block.base]; omega
theorem addr_arrPortData (t a k : Nat) : (R.arrPortData t a k).addr = 0x10080400 + 0x100000 * t + 0x1000 * a + 4 * k := by
  simp [Reg.addr, RegKind.geom, Block.base]; omega
theorem addr_arrPortCheck (t a : Nat) : (R.arrPortCheck t a).addr = 0x10080480 + 0x100000 * t + 0x1000 * a := by
  simp [Reg.addr, RegKind.geom, Block.base]; omega
theorem addr_ctrTileStatus (t : Nat) : (R.ctrTileStatus t).addr = 0x60000140 + 0x1000 * t := by
  simp [Reg.addr, RegKind.geom, Block.base]; omega
theorem addr_logLost : R.logLost.addr = 0x5008 := by
  simp [Reg.addr, RegKind.geom, Block.base]

/-! ## Frames -/

theorem State.getF_congr {s u : State} {g : FieldRef} (h : u.getR g.reg = s.getR g.reg) : u.getF g = s.getF g := by
  unfold State.getF; rw [h]

theorem State.flag_congr {s u : State} {g : FieldRef} (h : u.getR g.reg = s.getR g.reg) : u.flag g = s.flag g := by
  unfold State.flag; rw [State.getF_congr h]

/-- A register outside the list of those that may have changed holds what it held. -/
theorem State.regsKept.getR {s u : State} {l : List Nat} (h : s.regsKept u l) (g : Reg) (hg : g.addr ∉ l) : u.getR g = s.getR g :=
  h g.addr hg

theorem State.regsKept.trans {s u v : State} {l : List Nat} (h : s.regsKept u l) (k : u.regsKept v l) : s.regsKept v l :=
  fun a ha => (k a ha).trans (h a ha)

theorem State.regsKept.mono {s u : State} {l m : List Nat} (h : s.regsKept u l) (hl : l ⊆ m) : s.regsKept u m :=
  fun a ha => h a (fun hm => ha (hl hm))

theorem State.regsKept_of_regs {s u : State} {l : List Nat} (h : u.regs = s.regs) : s.regsKept u l := fun a _ => by rw [h]

theorem State.setR_regsKept (s : State) (r : Reg) (w : Word) : s.regsKept (s.setR r w) [r.addr] :=
  fun _ ha => Sparse.get_set_other _ _ _ _ _ (by simpa using ha)

theorem State.setF_regsKept (s : State) (f : FieldRef) (v : Nat) : s.regsKept (s.setF f v) [f.reg.addr] := s.setR_regsKept _ _

theorem State.setFlag_regsKept (s : State) (f : FieldRef) (b : Bool) : s.regsKept (s.setFlag f b) [f.reg.addr] := s.setR_regsKept _ _

theorem State.pcAdd_regsKept (s : State) (t k n : Nat) : s.regsKept (s.pcAdd t k n) [(R.ctrTileStatus t).addr] := by
  simp only [State.pcAdd]
  split
  · exact State.regsKept_of_regs rfl
  · split
    · exact State.regsKept_of_regs rfl
    · exact (s.ctrSet _ _).setR_regsKept _ _

/-- Of the registers, counting in tile t changes the tile's overflow bits alone (R454). -/
theorem State.count_regsKept (s : State) (t c j : Nat) (l : Option Nat) (n : Nat) :
    s.regsKept (s.count t c j l n) [(R.ctrTileStatus t).addr] := by
  unfold State.count
  split
  · exact State.regsKept_of_regs rfl
  · exact State.each_inv (fun u => s.regsKept u [(R.ctrTileStatus t).addr]) (fun s k => s.pcAdd t k n)
      (fun u k h => h.trans (u.pcAdd_regsKept t k n)) _ s (State.regsKept_of_regs rfl)

theorem State.ingest_regsKept (s : State) (e : Entry) : s.regsKept (s.ingest e) [R.logLost.addr] := by
  unfold State.ingest
  split
  · exact State.regsKept_of_regs rfl
  · split
    · exact s.setF_regsKept _ _
    · split
      · exact State.regsKept_of_regs rfl
      · split
        · exact State.regsKept_of_regs rfl
        · exact s.setF_regsKept _ _

theorem State.countCode_regs (s : State) (c : Nat) : (s.countCode c).regs = s.regs := by rw [State.countCode_only]

/-- Of the registers, a report changes the count of lost log entries alone (R377). -/
theorem State.logTile_regsKept (s : State) (t u c d : Nat) : s.regsKept (s.logTile t u c d) [R.logLost.addr] :=
  (State.regsKept_of_regs (s.countCode_regs c)).trans ((s.countCode c).ingest_regsKept _)

@[simp] theorem State.count_arrays (s : State) (t c j : Nat) (l : Option Nat) (n : Nat) : (s.count t c j l n).arrays = s.arrays := by
  rw [State.count_only]
@[simp] theorem State.logTile_arrays (s : State) (t u c d : Nat) : (s.logTile t u c d).arrays = s.arrays := by
  rw [State.logTile_only]

theorem State.arr_congr {s u : State} (h : u.arrays = s.arrays) (t a : Nat) : u.arr t a = s.arr t a := by
  unfold State.arr; rw [h]

@[simp] theorem State.count_arr (s : State) (t c j : Nat) (l : Option Nat) (n x y : Nat) : (s.count t c j l n).arr x y = s.arr x y :=
  State.arr_congr (by simp) x y
@[simp] theorem State.logTile_arr (s : State) (t u c d x y : Nat) : (s.logTile t u c d).arr x y = s.arr x y :=
  State.arr_congr (by simp) x y

theorem State.inTiles.trans {s u v : State} (h : s.inTiles u) (k : u.inTiles v) : s.inTiles v := by
  unfold State.inTiles at h k ⊢
  rw [k, h]

/-- u differs from s at most in registers, counters, the log and array a of tile t. -/
def State.inArray (s u : State) (t a : Nat) : Prop := s.arraysKept u [128 * t + a] ∧ u.tiles = s.tiles ∧ s.inTiles u

theorem State.inArray_refl (s : State) (t a : Nat) : s.inArray s t a := ⟨fun _ _ => rfl, rfl, rfl⟩

theorem State.inArray.trans {s u v : State} {t a : Nat} (h : s.inArray u t a) (k : u.inArray v t a) : s.inArray v t a := by
  obtain ⟨ha, ht, hi⟩ := h
  obtain ⟨ka, kt, ki⟩ := k
  exact ⟨fun n hn => (ka n hn).trans (ha n hn), kt.trans ht, hi.trans ki⟩

/-- An operation that changes registers, counters and the log alone. -/
theorem State.inArray_of_eq {s u : State} {r : Sparse Word} {c : Sparse (BitVec 64)} {l : LogSt} (t a : Nat)
    (h : u = { s with regs := r, ctr := c, log := l }) : s.inArray u t a := by
  subst h; exact ⟨fun _ _ => rfl, rfl, rfl⟩

theorem State.setR_inArray (s : State) (r : Reg) (w : Word) (t a : Nat) : s.inArray (s.setR r w) t a := State.inArray_of_eq t a rfl
theorem State.setF_inArray (s : State) (f : FieldRef) (v : Nat) (t a : Nat) : s.inArray (s.setF f v) t a := s.setR_inArray _ _ t a
theorem State.setFlag_inArray (s : State) (f : FieldRef) (b : Bool) (t a : Nat) : s.inArray (s.setFlag f b) t a :=
  s.setR_inArray _ _ t a
theorem State.count_inArray (s : State) (x c j : Nat) (l : Option Nat) (n t a : Nat) : s.inArray (s.count x c j l n) t a :=
  State.inArray_of_eq t a (s.count_only x c j l n)
theorem State.logTile_inArray (s : State) (x u c d t a : Nat) : s.inArray (s.logTile x u c d) t a :=
  State.inArray_of_eq t a (s.logTile_only x u c d)
theorem State.modArr_inArray (s : State) (t a : Nat) (f : ArrSt → ArrSt) : s.inArray (s.modArr t a f) t a :=
  ⟨fun _ hk => Sparse.get_set_other _ _ _ _ _ (by simpa using hk), rfl, rfl⟩

theorem State.when_inArray {t a : Nat} {f : State → State} (h : ∀ s : State, s.inArray (f s) t a) (b : Bool) (s : State) :
    s.inArray (s.when b f) t a := by
  cases b
  · exact s.inArray_refl t a
  · exact h s

theorem State.each_inArray {α : Type} {t a : Nat} {f : State → α → State} (h : ∀ (s : State) x, s.inArray (f s x) t a) (l : List α)
    (s : State) : s.inArray (s.each l f) t a :=
  State.each_inv (fun u => s.inArray u t a) f (fun u x hu => hu.trans (h u x)) l s (s.inArray_refl t a)

/-! ## What the row port sees -/

/-- The row port of array a sees in u what it sees in s: the array, its mode and its spares in use. -/
def State.samePort (s u : State) (t a : Nat) : Prop :=
  u.arr t a = s.arr t a ∧ u.mode t a = s.mode t a ∧ u.spares t a = s.spares t a

theorem State.samePort.view {s u : State} {t a : Nat} (h : s.samePort u t a) (i : Nat) : u.view t a i = s.view t a i := by
  obtain ⟨ha, -, hs⟩ := h
  unfold State.view; rw [ha, hs]

theorem State.samePort.portBad {s u : State} {t a : Nat} (h : s.samePort u t a) (i : Nat) : u.portBad t a i = s.portBad t a i := by
  have hv := h.view i
  obtain ⟨ha, hm, -⟩ := h
  unfold State.portBad State.parSkip; rw [hv, ha, hm]

theorem State.mem_liveOrder_lt (s : State) (t a : Nat) {k : Nat} (h : k ∈ s.liveOrder t a) : k < 64 := by
  unfold State.liveOrder at h
  simp only [List.mem_append, List.mem_filter, List.mem_range, List.contains_iff_mem] at h
  rcases h with ⟨⟨hk, -⟩, -⟩ | ⟨-, hk, -⟩ <;> exact hk

theorem State.liveOrder_congr {s u : State} {t a : Nat} (ha : u.arr t a = s.arr t a)
    (hr : ∀ k < 64, u.getR (R.arrSpareMap t a k) = s.getR (R.arrSpareMap t a k)) : u.liveOrder t a = s.liveOrder t a := by
  have hlive : (List.range 64).filter (fun k => u.flag (F.arrSpareMapValid t a k) && u.flag (F.arrSpareMapLive t a k)) =
      (List.range 64).filter (fun k => s.flag (F.arrSpareMapValid t a k) && s.flag (F.arrSpareMapLive t a k)) := by
    refine List.filter_congr (fun k hk => ?_)
    have hk := hr k (List.mem_range.mp hk)
    rw [State.flag_congr (g := F.arrSpareMapValid t a k) hk, State.flag_congr (g := F.arrSpareMapLive t a k) hk]
  unfold State.liveOrder
  rw [hlive, ha]

theorem State.spares_congr {s u : State} {t a : Nat} (ha : u.arr t a = s.arr t a)
    (hr : ∀ k < 64, u.getR (R.arrSpareMap t a k) = s.getR (R.arrSpareMap t a k)) : u.spares t a = s.spares t a := by
  unfold State.spares
  rw [State.liveOrder_congr ha hr]
  congr 1
  refine List.map_congr_left (fun k hk => ?_)
  rw [State.getF_congr (g := F.arrSpareMapTarget t a k) (hr k (s.mem_liveOrder_lt t a hk))]

/-- The command register and the counters' overflow bits are none of the registers that the row port reads by. -/
theorem State.samePort_of_regsKept {s u : State} {t : TileN} {a : ArrN} (ha : u.arrays = s.arrays)
    (h : s.regsKept u [(R.arrPortCmd t a).addr, (R.ctrTileStatus t).addr]) : s.samePort u t a := by
  refine ⟨State.arr_congr ha t a, ?_, State.spares_congr (State.arr_congr ha t a) (fun k hk => h.getR _ ?_)⟩
  · unfold State.mode
    rw [h.getR _ (by simp only [addr_arrCfg, addr_arrPortCmd, addr_ctrTileStatus, List.mem_cons, List.not_mem_nil, or_false]; omega)]
  · simp only [addr_arrSpareMap, addr_arrPortCmd, addr_ctrTileStatus, List.mem_cons, List.not_mem_nil, or_false]; omega

theorem State.portWords_congr {s u : State} {t a n : Nat}
    (h : ∀ k < n, u.getR (R.arrPortData t a k) = s.getR (R.arrPortData t a k)) : u.portWords t a n = s.portWords t a n := by
  unfold State.portWords
  refine congrArg leNat (List.flatMap_congr (fun k hk => ?_))
  rw [h k (List.mem_range.mp hk)]

/-- Nor are they the registers that hold the data of a write. -/
theorem State.portWords_of_regsKept {s u : State} {t : TileN} {a : ArrN} {n : Nat} (hn : n ≤ 32)
    (h : s.regsKept u [(R.arrPortCmd t a).addr, (R.ctrTileStatus t).addr]) : u.portWords t a n = s.portWords t a n := by
  refine State.portWords_congr (fun k hk => h.getR _ ?_)
  simp only [addr_arrPortData, addr_arrPortCmd, addr_ctrTileStatus, List.mem_cons, List.not_mem_nil, or_false]; omega

/-! ## The data registers (Table 2.10) -/

theorem State.showWords_arrays (s : State) (t a n v : Nat) : (s.showWords t a n v).arrays = s.arrays :=
  State.each_keeps State.arrays (fun s k => s.setR (R.arrPortData t a k) (BitVec.ofNat 32 (v / 2 ^ (32 * k)))) (fun _ _ => rfl) _ s

theorem State.showWords_inArray (s : State) (t a n v : Nat) : s.inArray (s.showWords t a n v) t a :=
  State.each_inArray (fun s _ => s.setR_inArray _ _ t a) _ s

/-- Registers other than the data registers keep what they hold. -/
theorem State.getR_showWords_other (s : State) (t a n v : Nat) (g : Reg) (h : ∀ k, g.addr ≠ (R.arrPortData t a k).addr) :
    (s.showWords t a n v).getR g = s.getR g :=
  State.each_keeps (fun u => u.getR g) _ (fun u k => u.getR_setR_other _ _ _ (h k)) _ s

/-- Each data register holds its 32 bits of the number. -/
theorem State.getR_showWords (s : State) (t a n v : Nat) {k : Nat} (h : k < 2 * n) :
    (s.showWords t a n v).getR (R.arrPortData t a k) = BitVec.ofNat 32 (v / 2 ^ (32 * k)) := by
  unfold State.showWords State.each
  generalize 2 * n = m at h
  induction m with
  | zero => omega
  | succ m ih =>
    rw [List.range_succ, List.foldl_append, List.foldl_cons, List.foldl_nil]
    by_cases hk : k = m
    · subst hk
      exact State.getR_setR_same _ _ _
    · rw [State.getR_setR_other _ _ _ _ (by simp only [addr_arrPortData]; omega)]
      exact ih (by omega)

/-! ## Rows, suspects and scale lines -/

@[simp] theorem ArrSt.row_setRow (x : ArrSt) (i k : Nat) (r : Row) : (x.setRow i r).row k = if k = i then r else x.row k :=
  Sparse.get_set _ _ _ _ _

theorem State.showSuspects_inArray (s : State) (t a : Nat) : s.inArray (s.showSuspects t a) t a :=
  (s.setFlag_inArray _ _ t a).trans (State.setF_inArray _ _ _ t a)

@[simp] theorem State.showSuspects_arr (s : State) (t a x y : Nat) : (s.showSuspects t a).arr x y = s.arr x y := rfl

theorem State.markSuspect_inArray (s : State) (t a i : Nat) : s.inArray (s.markSuspect t a i) t a :=
  (s.modArr_inArray t a _).trans (State.showSuspects_inArray _ t a)

/-- Marking a row changes the array's suspects alone. -/
theorem State.markSuspect_arr (s : State) (t a i : Nat) :
    (s.markSuspect t a i).arr t a = { s.arr t a with suspects := ((s.markSuspect t a i).arr t a).suspects } := by
  simp only [State.markSuspect, State.showSuspects_arr, State.arr_modArr_same]
  split <;> rfl

/-- A marked row is suspect. -/
theorem State.mem_suspects_markSuspect (s : State) (t a i : Nat) : i ∈ ((s.markSuspect t a i).arr t a).suspects := by
  simp only [State.markSuspect, State.showSuspects_arr, State.arr_modArr_same]
  split
  · rename_i h
    exact List.contains_iff_mem.mp h
  · simp

/-- Forming a block's sums anew changes the weight sums and the suspects alone. -/
theorem State.resum_arr (s : State) (t a i : Nat) :
    (s.resum t a i).arr t a =
      { s.arr t a with wsum := ((s.resum t a i).arr t a).wsum, suspects := ((s.resum t a i).arr t a).suspects } := by
  unfold State.resum
  refine State.each_inv (fun u => u.arr t a = { s.arr t a with wsum := (u.arr t a).wsum, suspects := (u.arr t a).suspects }) _
    (fun u r hu => ?_) _ _ (by simp)
  rw [State.markSuspect_arr, hu]

theorem State.resum_inArray (s : State) (t a i : Nat) : s.inArray (s.resum t a i) t a :=
  (s.modArr_inArray t a _).trans (State.each_inArray (fun s _ => s.markSuspect_inArray t a _) _ _)

/-- A row write by the port changes its row, the weight sums and the suspects of the array (R29, R56). -/
theorem State.putRow_arr (s : State) (t a i : Nat) (d : BitVec 1024) :
    (s.putRow t a i d).arr t a =
      { (s.arr t a).setRow i (writeRow (s.mode t a) (s.spares t a) ((s.arr t a).row i) d) with
        wsum := ((s.putRow t a i d).arr t a).wsum, suspects := ((s.putRow t a i d).arr t a).suspects } := by
  simp only [State.putRow, State.count_arr]
  cases s.scrubBad t a i
  · simp [ArrSt.sumRow]
  · rw [State.when_true, State.resum_arr]
    simp [ArrSt.sumRow]

theorem State.putRow_row (s : State) (t a i k : Nat) (d : BitVec 1024) :
    ((s.putRow t a i d).arr t a).row k =
      if k = i then writeRow (s.mode t a) (s.spares t a) ((s.arr t a).row i) d else (s.arr t a).row k := by
  rw [State.putRow_arr]
  exact ArrSt.row_setRow _ _ _ _

theorem State.putRow_inArray (s : State) (t a i : Nat) (d : BitVec 1024) : s.inArray (s.putRow t a i d) t a :=
  ((s.modArr_inArray t a _).trans (State.when_inArray (fun s => s.resum_inArray t a i) _ _)).trans (State.count_inArray _ _ _ _ _ _ t a)

theorem State.restoreLine_arr (s : State) (t a l : Nat) :
    (s.restoreLine t a l).arr t a =
      (s.arr t a).setLine l (match s.arrImage t a with | some img => imageLine img l | none => leBytes 64 0) :=
  s.arr_modArr_same t a _

theorem State.restoreLine_inArray (s : State) (t a l : Nat) : s.inArray (s.restoreLine t a l) t a := s.modArr_inArray t a _

/-! ## The scrub (R61) -/

/-- The scrub marks a row that fails its checks and a row that differs from its image, goes on, counts its access, and ends its first
pass with the last row. -/
theorem State.scrubRow_eq (s : State) (t a i : Nat) :
    ∃ differs : Bool, s.scrubRow t a i =
      ((((s.when (s.scrubBad t a i) (fun s => s.markSuspect t a i)).when differs (fun s => s.modArr t a (fun x =>
        { x with rewrite := (x.rewrite ++ [i]).eraseDups }))).setF (F.arrScrubNextRow t a) ((i + 1) % 1024)).count
          t 0x015 a none 1).when (i = 1023) (fun s => s.modArr t a (fun x => { x with scrubPass := true })) := by
  unfold State.scrubRow
  by_cases h : i = 1023
  · rw [if_pos h, decide_eq_true h]
    exact ⟨_, rfl⟩
  · rw [if_neg h, decide_eq_false h]
    exact ⟨_, rfl⟩

theorem State.scrubRow_inArray (s : State) (t a i : Nat) : s.inArray (s.scrubRow t a i) t a := by
  obtain ⟨differs, h⟩ := s.scrubRow_eq t a i
  rw [h]
  exact ((((State.when_inArray (fun s => s.markSuspect_inArray t a i) _ s).trans
    (State.when_inArray (fun s => s.modArr_inArray t a _) _ _)).trans (State.setF_inArray _ _ _ t a)).trans
    (State.count_inArray _ _ _ _ _ _ t a)).trans (State.when_inArray (fun s => s.modArr_inArray t a _) _ _)

theorem State.when_markSuspect_arr (s : State) (t a i : Nat) (b : Bool) :
    (s.when b (fun s => s.markSuspect t a i)).arr t a =
      { s.arr t a with suspects := ((s.when b (fun s => s.markSuspect t a i)).arr t a).suspects } := by
  cases b
  · rfl
  · exact s.markSuspect_arr t a i

/-- The scrub changes its array's suspects, the rows to be rewritten and the mark of its first pass alone. -/
theorem State.scrubRow_arr (s : State) (t a i : Nat) :
    (s.scrubRow t a i).arr t a =
      { s.arr t a with
        suspects := ((s.when (s.scrubBad t a i) (fun s => s.markSuspect t a i)).arr t a).suspects
        rewrite := ((s.scrubRow t a i).arr t a).rewrite, scrubPass := ((s.scrubRow t a i).arr t a).scrubPass } := by
  have hmark := s.when_markSuspect_arr t a i (s.scrubBad t a i)
  obtain ⟨differs, h⟩ := s.scrubRow_eq t a i
  rw [h]
  cases differs <;> cases decide (i = 1023) <;>
    simp only [State.when_true, State.when_false, State.arr_modArr_same, State.count_arr, State.arr_setF] <;> rw [hmark]

/-- The scrub goes on to the row after the one that it read. -/
theorem State.scrubRow_nextRow (s : State) (t : TileN) (a : ArrN) (i : Nat) :
    (s.scrubRow t a i).getF (F.arrScrubNextRow t a) = (i + 1) % 1024 := by
  obtain ⟨differs, h⟩ := s.scrubRow_eq t a i
  have hcount : ∀ u : State, (u.count t 0x015 a none 1).getR (R.arrScrub t a) = u.getR (R.arrScrub t a) := fun u =>
    (u.count_regsKept _ _ _ _ _).getR _ (by simp only [addr_arrScrub, addr_ctrTileStatus, List.mem_singleton]; omega)
  rw [h, State.when_keeps (fun u => u.getF (F.arrScrubNextRow t a)) _ (fun u => u.getF_modArr t a _ _),
    State.getF_congr (g := F.arrScrubNextRow t a) (hcount _), State.getF_setF_same _ _ _ (by simp) (by simp)]
  exact Nat.mod_mod _ _

/-! ## The row port's requests (R57, Table 2.10) -/

/-- A read has been taken by the port: BUSY is 0, and the access is counted. -/
def State.portRead (s : State) (t a : Nat) : State := (s.setFlag (F.arrPortCmdBusy t a) false).count t 0x015 a none 1

theorem State.portServe_readRow (s : State) (t a i : Nat) :
    s.portServe t a (.readRow i) =
      if (s.portRead t a).portBad t a i then ((s.portRead t a).setFlag (F.arrPortCmdParityErr t a) true).markSuspect t a i
      else ((s.portRead t a).showWords t a 16 ((s.portRead t a).view t a i).data.toNat).setF (F.arrPortCheckCheck t a)
        ((s.portRead t a).view t a i).check.toNat := rfl

theorem State.portServe_writeRow (s : State) (t a i : Nat) :
    s.portServe t a (.writeRow i) =
      (s.setFlag (F.arrPortCmdBusy t a) false).putRow t a i (BitVec.ofNat 1024 (s.portWords t a 32)) := rfl

theorem State.portServe_readLine (s : State) (t a l : Nat) :
    s.portServe t a (.readLine l) = (s.portRead t a).showWords t a 8 (leNat ((s.arr t a).line l)) := rfl

theorem State.portServe_writeLine (s : State) (t a l : Nat) :
    s.portServe t a (.writeLine l) = ((s.setFlag (F.arrPortCmdBusy t a) false).modArr t a (fun x =>
      x.setLine l (leBytes 64 (s.portWords t a 16)))).count t 0x015 a none 1 := rfl

theorem State.portServe_scrub (s : State) (t a i : Nat) : s.portServe t a (.scrub i) = s.scrubRow t a i := rfl

@[simp] theorem State.portRead_arrays (s : State) (t a : Nat) : (s.portRead t a).arrays = s.arrays := State.count_arrays _ _ _ _ _ _

theorem State.portRead_inArray (s : State) (t a : Nat) : s.inArray (s.portRead t a) t a :=
  (s.setFlag_inArray _ _ t a).trans (State.count_inArray _ _ _ _ _ _ t a)

theorem State.portRead_regsKept (s : State) (t a : Nat) :
    s.regsKept (s.portRead t a) [(R.arrPortCmd t a).addr, (R.ctrTileStatus t).addr] :=
  ((s.setFlag_regsKept _ _).mono (by simp)).trans ((State.count_regsKept _ _ _ _ _ _).mono (by simp))

theorem State.portRead_samePort (s : State) (t : TileN) (a : ArrN) : s.samePort (s.portRead t a) t a :=
  State.samePort_of_regsKept (s.portRead_arrays t a) (s.portRead_regsKept t a)

/-- Whatever the port serves, only registers, counters, the log and its own array change. -/
theorem State.portServe_inArray (s : State) (t a : Nat) (r : PortReq) : s.inArray (s.portServe t a r) t a := by
  cases r with
  | readRow i =>
    rw [State.portServe_readRow]
    split
    · exact ((s.portRead_inArray t a).trans (State.setFlag_inArray _ _ _ t a)).trans (State.markSuspect_inArray _ t a i)
    · exact ((s.portRead_inArray t a).trans (State.showWords_inArray _ t a _ _)).trans (State.setF_inArray _ _ _ t a)
  | writeRow i => exact (s.setFlag_inArray _ _ t a).trans (State.putRow_inArray _ t a i _)
  | readLine l => exact (s.portRead_inArray t a).trans (State.showWords_inArray _ t a _ _)
  | writeLine l =>
    exact ((s.setFlag_inArray _ _ t a).trans (State.modArr_inArray _ t a _)).trans (State.count_inArray _ _ _ _ _ _ t a)
  | scrub i => exact s.scrubRow_inArray t a i

/-- Serving a request leaves those that wait as they are. -/
theorem State.portServe_portWait (s : State) (t a : Nat) (r : PortReq) :
    ((s.portServe t a r).arr t a).portWait = (s.arr t a).portWait := by
  cases r with
  | readRow i =>
    rw [State.portServe_readRow]
    split
    · rw [State.markSuspect_arr, State.arr_setFlag, State.arr_congr (s.portRead_arrays t a)]
    · rw [State.arr_setF, State.arr_congr (State.showWords_arrays _ t a _ _), State.arr_congr (s.portRead_arrays t a)]
  | writeRow i => rw [State.portServe_writeRow, State.putRow_arr]; rfl
  | readLine l =>
    rw [State.portServe_readLine, State.arr_congr (State.showWords_arrays _ t a _ _), State.arr_congr (s.portRead_arrays t a)]
  | writeLine l => simp [State.portServe_writeLine, ArrSt.setLine]
  | scrub i => rw [State.portServe_scrub, State.scrubRow_arr]

/-- ARR_PORT_CMD has taken a command: its fields, and BUSY. -/
def State.portTaken (s : State) (t a line row : Nat) : State :=
  ((s.setF (F.arrPortCmdLine t a) line).setF (F.arrPortCmdRow t a) row).setFlag (F.arrPortCmdBusy t a) true

theorem State.portCmd_busy (s : State) (t a line row : Nat) (r : PortReq) (h : s.flag (F.arrPortCmdBusy t a) = true) :
    s.portCmd t a line row r = s := by
  unfold State.portCmd; rw [h, Bool.or_true]; rfl

theorem State.portCmd_ready (s : State) (t a line row : Nat) (r : PortReq) (hon : s.tileOn t = true)
    (h : s.flag (F.arrPortCmdBusy t a) = false) : s.portCmd t a line row r = (s.portTaken t a line row).portAsk t a r := by
  unfold State.portCmd; rw [h, hon]; rfl

@[simp] theorem State.portTaken_arrays (s : State) (t a line row : Nat) : (s.portTaken t a line row).arrays = s.arrays := rfl
@[simp] theorem State.portTaken_arr (s : State) (t a line row x y : Nat) : (s.portTaken t a line row).arr x y = s.arr x y := rfl

theorem State.portTaken_inArray (s : State) (t a line row : Nat) : s.inArray (s.portTaken t a line row) t a :=
  ((s.setF_inArray _ _ t a).trans (State.setF_inArray _ _ _ t a)).trans (State.setFlag_inArray _ _ _ t a)

theorem State.portTaken_regsKept (s : State) (t a line row : Nat) :
    s.regsKept (s.portTaken t a line row) [(R.arrPortCmd t a).addr, (R.ctrTileStatus t).addr] :=
  (((s.setF_regsKept (F.arrPortCmdLine t a) line).trans (State.setF_regsKept _ (F.arrPortCmdRow t a) row)).trans
    (State.setFlag_regsKept _ (F.arrPortCmdBusy t a) true)).mono (by simp)

theorem State.portTaken_samePort (s : State) (t : TileN) (a : ArrN) (line row : Nat) : s.samePort (s.portTaken t a line row) t a :=
  State.samePort_of_regsKept (s.portTaken_arrays t a line row) (s.portTaken_regsKept t a line row)

theorem State.portTaken_row (s : State) (t a line row : Nat) (h : row < 1024) :
    (s.portTaken t a line row).getF (F.arrPortCmdRow t a) = row := by
  unfold State.portTaken State.setFlag
  rw [State.getF_setF_apart _ (F.arrPortCmdBusy t a) (F.arrPortCmdRow t a) _ rfl (by simp) (by simp) (by simp),
    State.getF_setF_same _ _ _ (by simp) (by simp)]
  exact Nat.mod_eq_of_lt h

theorem State.portTaken_busy (s : State) (t a line row : Nat) : (s.portTaken t a line row).flag (F.arrPortCmdBusy t a) = true :=
  State.flag_setFlag_same _ _ _ (by simp) rfl

/-- With no multiply and nobody waiting a request is served at once, unless it reads a scale line that fails its parity (R57, R60). -/
theorem State.portAsk_served (s : State) (t a : Nat) (r : PortReq) (hm : (s.arr t a).mul = none) (hw : (s.arr t a).portWait = [])
    (hl : ∀ l, r = .readLine l → (s.arr t a).lineBad l = false) : s.portAsk t a r = s.portServe t a r := by
  have hmeet : s.meetLine t a r = s := by
    cases r with
    | readLine l => simp [State.meetLine, hl l rfl]
    | readRow | writeRow | writeLine | scrub => rfl
  have hblocked : s.portBlocked t a r = false := by
    cases r with
    | readLine l => exact hl l rfl
    | readRow | scrub => simp [State.portBlocked, State.segBusy, hm]
    | writeRow => simp [State.portBlocked, ArrSt.convDone, hm]
    | writeLine => simp [State.portBlocked, hm]
  simp [State.portAsk, hmeet, hblocked, ArrSt.fwWaits, hw]

/-- A read of a scale line that fails its parity is reported and waits (R50, R60). -/
theorem State.portAsk_badLine (s : State) (t a l : Nat) (h : (s.arr t a).lineBad l = true) :
    s.portAsk t a (.readLine l) =
      ((s.setFlag (F.arrPortCmdParityErr t a) true).logTile t a 0x0F02 (detail 0x0F02 [a, l])).modArr t a (fun x =>
        { x with portWait := x.portWait ++ [.readLine l] }) := by
  simp [State.portAsk, State.meetLine, State.portBlocked, h]

/-! ## The commands -/

theorem exec_arrPortReadRow (t : TileN) (a : ArrN) (row : Fin 1024) (s : State) :
    exec (.arrPortReadRow t a row) s = .next (s.portCmd t a (s.getF (F.arrPortCmdLine t a)) row (.readRow row)) := by rfl
theorem exec_arrPortWriteRow (t : TileN) (a : ArrN) (row : Fin 1024) (s : State) :
    exec (.arrPortWriteRow t a row) s = .next (s.portCmd t a (s.getF (F.arrPortCmdLine t a)) row (.writeRow row)) := by rfl
theorem exec_arrPortReadScaleLine (t : TileN) (a : ArrN) (line : Fin 32) (s : State) :
    exec (.arrPortReadScaleLine t a line) s = .next (s.portCmd t a line (s.getF (F.arrPortCmdRow t a)) (.readLine line)) := by rfl
theorem exec_arrPortWriteScaleLine (t : TileN) (a : ArrN) (line : Fin 32) (s : State) :
    exec (.arrPortWriteScaleLine t a line) s = .next (s.portCmd t a line (s.getF (F.arrPortCmdRow t a)) (.writeLine line)) := by rfl
theorem exec_rowPortAccess (t : TileN) (a : ArrN) (s : State) : exec (.rowPortAccess t a) s = execRowPortAccess t a s := by rfl
theorem exec_scaleLineRestored (t : TileN) (a : ArrN) (s : State) :
    exec (.scaleLineRestored t a) s = execScaleLineRestored t a s := by rfl
theorem exec_arrCfgWrite (t : TileN) (a : ArrN) (w : Word) (s : State) (h : s.tileOn t = true) :
    exec (.arrCfgWrite t a w) s = .next (s.writeArrCfg t a w) := by
  show execArrCfgWrite t a w s = _
  simp [execArrCfgWrite, h]
theorem exec_scrubRead (t : TileN) (a : ArrN) (s : State) (h : s.tileOn t = true) :
    exec (.scrubRead t a) s = .next (s.portAsk t a (.scrub (s.getF (F.arrScrubNextRow t a)))) := by
  show execScrubRead t a s = _
  simp [execScrubRead, h]
theorem exec_suspectRowRewritten (t : TileN) (a : ArrN) (row : Fin 1024) (s : State) :
    exec (.suspectRowRewritten t a row) s =
      if ((s.arr t a).suspects.contains row.val || (s.arr t a).rewrite.contains row.val) && (s.arr t a).convDone (s.segs t a) &&
        !(s.arr t a).fwWaits then .next (s.rewriteRow t a row) else .next s := by rfl
theorem exec_arrayVerified (t : TileN) (a : ArrN) (s : State) (h : s.canVerify t a = true) :
    exec (.arrayVerified t a) s = .next (s.setFlag (F.arrStatusUnverified t a) false) := by
  show execArrayVerified t a s = _
  simp [execArrayVerified, h]

/-! ## Accesses through the row port (Table 2.10, R56, R57, R60) -/

/-- The port is free: no multiply is in progress, no access is outstanding and none waits. -/
def State.portFree (s : State) (t a : Nat) : Prop :=
  s.flag (F.arrPortCmdBusy t a) = false ∧ (s.arr t a).portWait = [] ∧ (s.arr t a).mul = none

/-- A free port serves a command at once, unless it reads a scale line that fails its parity. -/
theorem State.portCmd_served {s : State} {t : TileN} {a : ArrN} (line row : Nat) (r : PortReq) (hon : s.tileOn t = true)
    (hf : s.portFree t a) (hl : ∀ l, r = .readLine l → (s.arr t a).lineBad l = false) :
    s.portCmd t a line row r = (s.portTaken t a line row).portServe t a r := by
  obtain ⟨hb, hw, hm⟩ := hf
  rw [State.portCmd_ready _ _ _ _ _ _ hon hb]
  exact State.portAsk_served (s.portTaken t a line row) t a r hm hw hl

theorem State.getR_portCmd_showWords (s : State) (t a n v : Nat) :
    (s.showWords t a n v).getR (R.arrPortCmd t a) = s.getR (R.arrPortCmd t a) :=
  State.getR_showWords_other _ _ _ _ _ _ (fun k => by simp only [addr_arrPortCmd, addr_arrPortData]; omega)

theorem State.getR_portCmd_portRead (s : State) (t : TileN) (a : ArrN) :
    (s.portRead t a).getR (R.arrPortCmd t a) = (s.setFlag (F.arrPortCmdBusy t a) false).getR (R.arrPortCmd t a) := by
  refine (State.count_regsKept _ _ _ _ _ _).getR _ ?_
  simp only [addr_arrPortCmd, addr_ctrTileStatus, List.mem_singleton]; omega

theorem State.portRead_busy (s : State) (t : TileN) (a : ArrN) : (s.portRead t a).flag (F.arrPortCmdBusy t a) = false := by
  rw [State.flag_congr (g := F.arrPortCmdBusy t a) (s.getR_portCmd_portRead t a), State.flag_setFlag_same _ _ _ (by simp) rfl]

theorem State.portRead_row (s : State) (t : TileN) (a : ArrN) :
    (s.portRead t a).getF (F.arrPortCmdRow t a) = s.getF (F.arrPortCmdRow t a) := by
  rw [State.getF_congr (g := F.arrPortCmdRow t a) (s.getR_portCmd_portRead t a)]
  exact State.getF_setF_apart _ (F.arrPortCmdBusy t a) (F.arrPortCmdRow t a) _ rfl (by simp) (by simp) (by simp)

/-- A read of a row that meets no mismatch shows the row as the port saw it when the read was asked for. -/
theorem State.portServe_readRow_sound {s : State} {t : TileN} {a : ArrN} {i : Nat} (h : s.portBad t a i = false) :
    s.portServe t a (.readRow i) = ((s.portRead t a).showWords t a 16 (s.view t a i).data.toNat).setF (F.arrPortCheckCheck t a)
      (s.view t a i).check.toNat := by
  have hread := s.portRead_samePort t a
  rw [State.portServe_readRow, hread.portBad, h, if_neg (by simp), hread.view]

/-- What such a read shows stands beside the command register. -/
theorem State.getR_portCmd_readRow {s : State} {t : TileN} {a : ArrN} {i : Nat} (h : s.portBad t a i = false) :
    (s.portServe t a (.readRow i)).getR (R.arrPortCmd t a) = (s.portRead t a).getR (R.arrPortCmd t a) := by
  rw [State.portServe_readRow_sound h, State.getR_setF_other _ _ _ _ (by simp only [addr_arrPortCmd, addr_arrPortCheck]; omega),
    State.getR_portCmd_showWords]

theorem State.arrPortReadRow_gives {s : State} {t : TileN} {a : ArrN} (row : Fin 1024) (hon : s.tileOn t = true)
    (hf : s.portFree t a) (hbad : s.portBad t a row = false) :
    s.gives (.arrPortReadRow t a row) (fun u =>
      (∀ k < 32, u.getR (R.arrPortData t a k) = BitVec.ofNat 32 ((s.view t a row).data.toNat / 2 ^ (32 * k))) ∧
      u.getF (F.arrPortCheckCheck t a) = (s.view t a row).check.toNat ∧ u.flag (F.arrPortCmdBusy t a) = false ∧
      u.getF (F.arrPortCmdRow t a) = row ∧ u.arrays = s.arrays ∧ s.inTiles u) := by
  refine ⟨_, exec_arrPortReadRow t a row s, ?_⟩
  rw [State.portCmd_served _ _ _ hon hf (by simp)]
  have hsame := s.portTaken_samePort t a (s.getF (F.arrPortCmdLine t a)) row
  have hsound := (hsame.portBad row).trans hbad
  have hcmd := State.getR_portCmd_readRow hsound
  have hin := (s.portTaken_inArray t a (s.getF (F.arrPortCmdLine t a)) row).trans (State.portServe_inArray _ t a (.readRow row))
  refine ⟨fun k hk => ?_, ?_, ?_, ?_, ?_, hin.2.2⟩
  · rw [State.portServe_readRow_sound hsound, hsame.view,
      State.getR_setF_other _ _ _ _ (by simp only [addr_arrPortData, addr_arrPortCheck]; omega)]
    exact State.getR_showWords _ _ _ _ _ hk
  · rw [State.portServe_readRow_sound hsound, hsame.view, State.getF_setF_same _ _ _ (by simp) (by simp)]
    exact Nat.mod_eq_of_lt (s.view t a row).check.isLt
  · rw [State.flag_congr (g := F.arrPortCmdBusy t a) hcmd, State.portRead_busy]
  · rw [State.getF_congr (g := F.arrPortCmdRow t a) hcmd, State.portRead_row, State.portTaken_row _ _ _ _ _ row.isLt]
  · rw [State.portServe_readRow_sound hsound, State.setF_arrays, State.showWords_arrays, State.portRead_arrays, State.portTaken_arrays]

/-- A row write puts the data registers' number into its row; every other row, and the scale file, it leaves alone. -/
theorem State.portServe_writeRow_row (s : State) (t : TileN) (a : ArrN) (i k : Nat) :
    ((s.portServe t a (.writeRow i)).arr t a).row k =
      if k = i then writeRow (s.mode t a) (s.spares t a) ((s.arr t a).row i) (BitVec.ofNat 1024 (s.portWords t a 32))
      else (s.arr t a).row k := by
  obtain ⟨ha, hm, hsp⟩ : s.samePort (s.setFlag (F.arrPortCmdBusy t a) false) t a :=
    State.samePort_of_regsKept rfl ((s.setFlag_regsKept _ _).mono (by simp))
  rw [State.portServe_writeRow, State.putRow_row, ha, hm, hsp]

theorem State.portServe_writeRow_scale (s : State) (t a i : Nat) :
    ((s.portServe t a (.writeRow i)).arr t a).scale = (s.arr t a).scale := by
  rw [State.portServe_writeRow, State.putRow_arr]
  rfl

theorem State.arrPortWriteRow_gives {s : State} {t : TileN} {a : ArrN} (row : Fin 1024) (hon : s.tileOn t = true)
    (hf : s.portFree t a) :
    s.gives (.arrPortWriteRow t a row) (fun u =>
      (u.arr t a).row row = writeRow (s.mode t a) (s.spares t a) ((s.arr t a).row row) (BitVec.ofNat 1024 (s.portWords t a 32)) ∧
      (∀ i, i ≠ row.val → (u.arr t a).row i = (s.arr t a).row i) ∧ (u.arr t a).scale = (s.arr t a).scale ∧
      s.arraysKept u [128 * t.val + a.val] ∧ s.inTiles u) := by
  refine ⟨_, exec_arrPortWriteRow t a row s, ?_⟩
  rw [State.portCmd_served _ _ _ hon hf (by simp)]
  obtain ⟨hkept, -, hin⟩ :=
    (s.portTaken_inArray t a (s.getF (F.arrPortCmdLine t a)) row).trans (State.portServe_inArray _ t a (.writeRow row))
  obtain ⟨ha, hm, hsp⟩ := s.portTaken_samePort t a (s.getF (F.arrPortCmdLine t a)) row
  have hwords := State.portWords_of_regsKept (le_refl 32) (s.portTaken_regsKept t a (s.getF (F.arrPortCmdLine t a)) row)
  refine ⟨?_, fun i hi => ?_, State.portServe_writeRow_scale _ t a row, hkept, hin⟩
  · rw [State.portServe_writeRow_row, if_pos rfl, ha, hm, hsp, hwords]
  · rw [State.portServe_writeRow_row, if_neg hi, ha]

theorem State.arrPortReadScaleLine_gives {s : State} {t : TileN} {a : ArrN} (line : Fin 32) (hon : s.tileOn t = true)
    (hf : s.portFree t a) (hline : (s.arr t a).lineBad line = false) :
    s.gives (.arrPortReadScaleLine t a line) (fun u =>
      (∀ k < 16, u.getR (R.arrPortData t a k) = BitVec.ofNat 32 (leNat ((s.arr t a).line line) / 2 ^ (32 * k))) ∧
      u.arrays = s.arrays ∧ s.inTiles u) := by
  refine ⟨_, exec_arrPortReadScaleLine t a line s, ?_⟩
  rw [State.portCmd_served _ _ _ hon hf (by rintro l h; cases h; exact hline)]
  have hin := (s.portTaken_inArray t a line (s.getF (F.arrPortCmdRow t a))).trans (State.portServe_inArray _ t a (.readLine line))
  rw [State.portServe_readLine] at *
  refine ⟨fun k hk => State.getR_showWords _ _ _ _ _ hk, ?_, hin.2.2⟩
  exact (State.showWords_arrays _ t a _ _).trans (State.portRead_arrays _ t a)

/-- The report of a scale line that fails its parity leaves the command register, with PARITY_ERR set, as it is. -/
theorem State.getR_portCmd_badLine (s : State) (t : TileN) (a : ArrN) (d : Nat) :
    ((s.setFlag (F.arrPortCmdParityErr t a) true).logTile t a 0x0F02 d).getR (R.arrPortCmd t a) =
      (s.setFlag (F.arrPortCmdParityErr t a) true).getR (R.arrPortCmd t a) :=
  (State.logTile_regsKept _ _ _ _ _).getR _ (by simp only [addr_arrPortCmd, addr_logLost, List.mem_singleton]; omega)

theorem State.arrPortReadScaleLine_waits {s : State} {t : TileN} {a : ArrN} (line : Fin 32) (hon : s.tileOn t = true)
    (hf : s.portFree t a) (hline : (s.arr t a).lineBad line = true) :
    s.gives (.arrPortReadScaleLine t a line) (fun u =>
      u.flag (F.arrPortCmdParityErr t a) = true ∧ u.flag (F.arrPortCmdBusy t a) = true ∧
      (u.arr t a).portWait = [.readLine line] ∧ (u.arr t a).rows = (s.arr t a).rows ∧ (u.arr t a).scale = (s.arr t a).scale ∧
      s.arraysKept u [128 * t.val + a.val] ∧ u.tiles = s.tiles ∧ s.inTiles u) := by
  obtain ⟨hb, hw, -⟩ := hf
  refine ⟨_, exec_arrPortReadScaleLine t a line s, ?_⟩
  rw [State.portCmd_ready _ _ _ _ _ _ hon hb, State.portAsk_badLine (s.portTaken t a line _) t a line hline]
  obtain ⟨hkept, htiles, hin⟩ := (((s.portTaken_inArray t a line (s.getF (F.arrPortCmdRow t a))).trans
    (State.setFlag_inArray _ (F.arrPortCmdParityErr t a) true t a)).trans
    (State.logTile_inArray _ t a 0x0F02 (detail 0x0F02 [a, line]) t a)).trans
    (State.modArr_inArray _ t a (fun x => { x with portWait := x.portWait ++ [.readLine line] }))
  refine ⟨?_, ?_, ?_, ?_, ?_, hkept, htiles, hin⟩
  · rw [State.flag_modArr, State.flag_congr (g := F.arrPortCmdParityErr t a) (State.getR_portCmd_badLine _ t a _),
      State.flag_setFlag_same _ _ _ (by simp) rfl]
  · rw [State.flag_modArr, State.flag_congr (g := F.arrPortCmdBusy t a) (State.getR_portCmd_badLine _ t a _),
      State.flag_setFlag_apart _ (F.arrPortCmdParityErr t a) (F.arrPortCmdBusy t a) _ rfl (by simp) (by simp) (by simp),
      State.portTaken_busy]
  all_goals simp [hw]

theorem State.arrPortWriteScaleLine_gives {s : State} {t : TileN} {a : ArrN} (line : Fin 32) (hon : s.tileOn t = true)
    (hf : s.portFree t a) :
    s.gives (.arrPortWriteScaleLine t a line) (fun u =>
      (u.arr t a).scale = ((s.arr t a).setLine line (leBytes 64 (s.portWords t a 16))).scale ∧
      (u.arr t a).rows = (s.arr t a).rows ∧ s.arraysKept u [128 * t.val + a.val] ∧ s.inTiles u) := by
  refine ⟨_, exec_arrPortWriteScaleLine t a line s, ?_⟩
  rw [State.portCmd_served _ _ _ hon hf (by simp)]
  obtain ⟨hkept, -, hin⟩ :=
    (s.portTaken_inArray t a line (s.getF (F.arrPortCmdRow t a))).trans (State.portServe_inArray _ t a (.writeLine line))
  have hwords := State.portWords_of_regsKept (n := 16) (by omega) (s.portTaken_regsKept t a line (s.getF (F.arrPortCmdRow t a)))
  refine ⟨?_, ?_, hkept, hin⟩
  all_goals simp [State.portServe_writeLine, hwords, ArrSt.setLine]

/-! ## What waits for the port -/

theorem State.rowPortAccess_gives {s : State} {t : TileN} {a : ArrN} {r : PortReq} (hnext : (s.arr t a).nextPort = some r)
    (hb : s.portBlocked t a r = false) :
    s.gives (.rowPortAccess t a) (fun u => (u.arr t a).portWait = (s.arr t a).portWait.erase r ∧ s.inTiles u) := by
  refine ⟨(s.modArr t a (fun x => { x with portWait := x.portWait.erase r })).portServe t a r, ?_, ?_, ?_⟩
  · rw [exec_rowPortAccess]
    simp [execRowPortAccess, hnext, hb]
  · rw [State.portServe_portWait, State.arr_modArr_same]
  · exact ((s.modArr_inArray t a _).trans (State.portServe_inArray _ t a r)).2.2

theorem State.scaleLineRestored_gives {s : State} {t : TileN} {a : ArrN} (line : Fin 32) (hm : (s.arr t a).mul = none)
    (hw : (s.arr t a).portWait = [.readLine line]) (hline : (s.arr t a).lineBad line = true) :
    s.gives (.scaleLineRestored t a) (fun u =>
      (u.arr t a).scale = ((s.arr t a).setLine line
        (match s.arrImage t a with | some img => imageLine img line | none => leBytes 64 0)).scale ∧
      (u.arr t a).rows = (s.arr t a).rows ∧ s.arraysKept u [128 * t.val + a.val] ∧ s.inTiles u) := by
  have hport : (s.arr t a).portLine = some line.val := by simp [ArrSt.portLine, hw, hline]
  obtain ⟨hkept, -, hin⟩ := s.restoreLine_inArray t a line
  refine ⟨s.restoreLine t a line, ?_, ?_, ?_, hkept, hin⟩
  · rw [exec_scaleLineRestored]
    simp [execScaleLineRestored, hm, State.restorePortLine, hport]
  · exact congrArg ArrSt.scale (s.restoreLine_arr t a line)
  · exact (congrArg ArrSt.rows (s.restoreLine_arr t a line)).trans rfl

/-! ## The scrub and the rewrites (R61, R62, R287) -/

theorem State.scrubRead_gives {s : State} {t : TileN} {a : ArrN} (hon : s.tileOn t = true) (hw : (s.arr t a).portWait = [])
    (hm : (s.arr t a).mul = none) :
    s.gives (.scrubRead t a) (fun u =>
      u.getF (F.arrScrubNextRow t a) = (s.getF (F.arrScrubNextRow t a) + 1) % 1024 ∧
      (s.scrubBad t a (s.getF (F.arrScrubNextRow t a)) = true → s.getF (F.arrScrubNextRow t a) ∈ (u.arr t a).suspects) ∧
      (u.arr t a).rows = (s.arr t a).rows ∧ s.inTiles u) := by
  refine ⟨_, exec_scrubRead t a s hon, ?_⟩
  rw [State.portAsk_served _ _ _ _ hm hw (by simp), State.portServe_scrub]
  refine ⟨s.scrubRow_nextRow t a _, fun hbad => ?_, ?_, (s.scrubRow_inArray t a _).2.2⟩
  · rw [State.scrubRow_arr, hbad]
    exact s.mem_suspects_markSuspect t a _
  · rw [State.scrubRow_arr]

/-- What a rewritten row is written with: its row of the current image, else what the port reads (R62, R287). -/
def State.rowSource (s : State) (t a i : Nat) : BitVec 1024 :=
  match s.arrImage t a with
  | some img => imageRow img i
  | none => (s.view t a i).data

theorem State.rewriteRow_eq (s : State) (t a i : Nat) :
    s.rewriteRow t a i = (((s.putRow t a i (s.rowSource t a i)).modArr t a (fun x =>
      { x with suspects := x.suspects.filter (· ≠ i), rewrite := x.rewrite.filter (· ≠ i) })).showSuspects t a).logTile t a 0x0F07 i := rfl

theorem State.rewriteRow_inArray (s : State) (t a i : Nat) : s.inArray (s.rewriteRow t a i) t a :=
  (((s.putRow_inArray t a i _).trans (State.modArr_inArray _ t a _)).trans (State.showSuspects_inArray _ t a)).trans
    (State.logTile_inArray _ _ _ _ _ t a)

theorem State.rewriteRow_arr (s : State) (t a i : Nat) :
    (s.rewriteRow t a i).arr t a =
      { (s.putRow t a i (s.rowSource t a i)).arr t a with
        suspects := ((s.putRow t a i (s.rowSource t a i)).arr t a).suspects.filter (· ≠ i)
        rewrite := ((s.putRow t a i (s.rowSource t a i)).arr t a).rewrite.filter (· ≠ i) } := by
  rw [State.rewriteRow_eq, State.logTile_arr, State.showSuspects_arr, State.arr_modArr_same]

/-- A rewritten row holds its source, and every other row what it held. -/
theorem State.rewriteRow_row (s : State) (t a i k : Nat) :
    ((s.rewriteRow t a i).arr t a).row k =
      if k = i then writeRow (s.mode t a) (s.spares t a) ((s.arr t a).row i) (s.rowSource t a i) else (s.arr t a).row k := by
  rw [State.rewriteRow_arr, ← State.putRow_row]
  rfl

theorem State.suspectRowRewritten_gives {s : State} {t : TileN} {a : ArrN} (row : Fin 1024)
    (hrow : row.val ∈ (s.arr t a).suspects ∨ row.val ∈ (s.arr t a).rewrite) (hconv : (s.arr t a).convDone (s.segs t a) = true)
    (hfw : (s.arr t a).fwWaits = false) :
    s.gives (.suspectRowRewritten t a row) (fun u =>
      row.val ∉ (u.arr t a).suspects ∧ row.val ∉ (u.arr t a).rewrite ∧
      (u.arr t a).row row = writeRow (s.mode t a) (s.spares t a) ((s.arr t a).row row)
        (match s.arrImage t a with | some img => imageRow img row | none => (s.view t a row).data) ∧
      (∀ i, i ≠ row.val → (u.arr t a).row i = (s.arr t a).row i) ∧ s.inTiles u) := by
  refine ⟨s.rewriteRow t a row, ?_, ?_, ?_, ?_, fun i hi => ?_, (s.rewriteRow_inArray t a row).2.2⟩
  · rw [exec_suspectRowRewritten, if_pos (by simpa [hconv, hfw] using hrow)]
  · rw [State.rewriteRow_arr]; simp
  · rw [State.rewriteRow_arr]; simp
  · exact (s.rewriteRow_row t a row row).trans (if_pos rfl)
  · rw [State.rewriteRow_row, if_neg hi]

theorem State.suspectRowRewritten_waits {s : State} {t : TileN} {a : ArrN} (row : Fin 1024)
    (h : (s.arr t a).convDone (s.segs t a) = false ∨ (s.arr t a).fwWaits = true) : exec (.suspectRowRewritten t a row) s = .next s := by
  rw [exec_suspectRowRewritten, if_neg (by rcases h with h | h <;> simp [h])]

theorem State.arrayVerified_gives {s : State} {t : TileN} {a : ArrN} (h : s.canVerify t a = true) :
    s.gives (.arrayVerified t a) (fun u =>
      u.flag (F.arrStatusUnverified t a) = false ∧ s.regsKept u [(R.arrStatus t a).addr] ∧ u.arrays = s.arrays ∧ s.inTiles u) :=
  ⟨_, exec_arrayVerified t a s h, State.flag_setFlag_same _ _ _ (by simp) rfl, s.setFlag_regsKept _ _, rfl,
    (s.setFlag_inArray _ _ t a).2.2⟩

/-! ## ARR_CFG (R69) -/

/-- The mode goes into MODE; for the rest only the array's weight sums can change (R29). -/
theorem State.setMode_regs (s : State) (t a m : Nat) : (s.setMode t a m).regs = (s.setF (F.arrCfgMode t a) m).regs := by
  unfold State.setMode
  dsimp only
  split
  · rfl
  · exact State.each_keeps State.regs _ (fun u _ => u.modArr_regs t a _) _ _

theorem State.setMode_inArray (s : State) (t a m : Nat) : s.inArray (s.setMode t a m) t a := by
  unfold State.setMode
  dsimp only
  split
  · exact s.setF_inArray _ _ t a
  · exact (s.setF_inArray _ _ t a).trans (State.each_inArray (fun s _ => s.modArr_inArray t a _) _ _)

theorem State.setMode_arr (s : State) (t a m : Nat) :
    (s.setMode t a m).arr t a = { s.arr t a with wsum := ((s.setMode t a m).arr t a).wsum } := by
  unfold State.setMode
  dsimp only
  split
  · rfl
  · refine State.each_inv (fun u => u.arr t a = { s.arr t a with wsum := (u.arr t a).wsum }) _ (fun u b hu => ?_) _ _ rfl
    rw [State.arr_modArr_same, hu]

theorem State.getF_setMode (s : State) (t a m : Nat) (g : FieldRef) :
    (s.setMode t a m).getF g = (s.setF (F.arrCfgMode t a) m).getF g := by
  unfold State.getF State.getR
  rw [State.setMode_regs]

theorem State.writeArrCfg_taken {s : State} {t a : Nat} (w : Word) (hm : (s.arr t a).mul = none)
    (hw : (s.arr t a).writesWait = false) : s.writeArrCfg t a w =
      ((s.setF (F.arrCfgReserve t a) (bitsOf w 14 12)).setF (F.arrCfgSeg t a) (bitsOf w 9 8)).setMode t a (bitsOf w 2 0) := by
  simp [State.writeArrCfg, hm, hw]

theorem State.arrCfgWrite_gives {s : State} {t : TileN} {a : ArrN} (w : Word) (hon : s.tileOn t = true)
    (hm : (s.arr t a).mul = none) (hw : (s.arr t a).writesWait = false) :
    s.gives (.arrCfgWrite t a w) (fun u =>
      u.getF (F.arrCfgMode t a) = bitsOf w 2 0 ∧ u.getF (F.arrCfgSeg t a) = bitsOf w 9 8 ∧
      u.getF (F.arrCfgReserve t a) = bitsOf w 14 12 ∧ u.flag (F.arrCfgLoaded t a) = s.flag (F.arrCfgLoaded t a) ∧
      s.regsKept u [(R.arrCfg t a).addr] ∧ u.arr t a = { s.arr t a with wsum := (u.arr t a).wsum } ∧
      s.arraysKept u [128 * t.val + a.val] ∧ u.tiles = s.tiles ∧ s.inTiles u) := by
  refine ⟨_, exec_arrCfgWrite t a w s hon, ?_⟩
  rw [State.writeArrCfg_taken w hm hw]
  have hseg : ∀ (u : State) (v : Nat) (g : FieldRef), g.reg = R.arrCfg t a → (g.hi < 8 ∨ 9 < g.lo) →
      (u.setF (F.arrCfgSeg t a) v).getF g = u.getF g := fun u v g hr hap =>
    State.getF_setF_apart u _ g v hr (by simp) (by simp) hap
  have hmode : ∀ (u : State) (v : Nat) (g : FieldRef), g.reg = R.arrCfg t a → 2 < g.lo →
      (u.setMode t a v).getF g = u.getF g := fun u v g hr hap =>
    (u.getF_setMode t a v g).trans (State.getF_setF_apart u _ g v hr (by simp) (by simp) (Or.inr hap))
  have hregs : s.regsKept (((s.setF (F.arrCfgReserve t a) (bitsOf w 14 12)).setF (F.arrCfgSeg t a) (bitsOf w 9 8)).setMode t a
      (bitsOf w 2 0)) [(R.arrCfg t a).addr] :=
    ((s.setF_regsKept (F.arrCfgReserve t a) _).trans (State.setF_regsKept _ (F.arrCfgSeg t a) _)).trans
      ((State.setF_regsKept _ (F.arrCfgMode t a) (bitsOf w 2 0)).trans (State.regsKept_of_regs (State.setMode_regs _ t a _)))
  obtain ⟨hkept, htiles, hin⟩ := ((s.setF_inArray (F.arrCfgReserve t a) (bitsOf w 14 12) t a).trans
    (State.setF_inArray _ (F.arrCfgSeg t a) (bitsOf w 9 8) t a)).trans (State.setMode_inArray _ t a (bitsOf w 2 0))
  refine ⟨?_, ?_, ?_, ?_, hregs, State.setMode_arr _ t a _, hkept, htiles, hin⟩
  · rw [State.getF_setMode, State.getF_setF_same _ _ _ (by simp) (by simp)]
    exact Nat.mod_eq_of_lt (bitsOf_lt w 2 0)
  · rw [hmode _ _ _ rfl (by simp), State.getF_setF_same _ _ _ (by simp) (by simp)]
    exact Nat.mod_eq_of_lt (bitsOf_lt w 9 8)
  · rw [hmode _ _ _ rfl (by simp), hseg _ _ _ rfl (by simp), State.getF_setF_same _ _ _ (by simp) (by simp)]
    exact Nat.mod_eq_of_lt (bitsOf_lt w 14 12)
  · unfold State.flag
    rw [hmode _ _ _ rfl (by simp), hseg _ _ _ rfl (by simp),
      State.getF_setF_apart s (F.arrCfgReserve t a) (F.arrCfgLoaded t a) _ rfl (by simp) (by simp) (by simp)]

theorem State.arrCfgWrite_mismatch {s : State} {t : TileN} {a : ArrN} (w : Word) (hon : s.tileOn t = true)
    (h : (s.arr t a).mul ≠ none ∨ (s.arr t a).writesWait = true) :
    s.gives (.arrCfgWrite t a w) (fun u =>
      u.flag (F.arrStatusMismatch t a) = true ∧ u.getR (R.arrCfg t a) = s.getR (R.arrCfg t a) ∧ u.arrays = s.arrays ∧ s.inTiles u) := by
  refine ⟨s.setFlag (F.arrStatusMismatch t a) true, ?_, State.flag_setFlag_same _ _ _ (by simp) rfl, ?_, rfl,
    (s.setFlag_inArray _ _ t a).2.2⟩
  · have hpending : ((s.arr t a).mul.isSome || (s.arr t a).writesWait) = true := by
      simpa [Option.isSome_iff_ne_none] using h
    rw [exec_arrCfgWrite t a w s hon, State.writeArrCfg, if_pos hpending]
  · exact State.getR_setF_other _ _ _ _ (by simp only [addr_arrCfg, addr_arrStatus]; omega)

end Sys2Proof.Machine

open Sys2Proof Sys2Proof.Machine

/-- Settles O3: each clause is the rule of its command, for the state of the port that the clause names. -/
theorem rowPortAndScrub : Obligations.RowPortAndScrub := by
  intro t a row line s hon
  refine ⟨fun hbusy => ?_, fun hfree => ?_, fun ⟨hm, hw, hline⟩ => State.scaleLineRestored_gives line hm hw hline,
    fun r hnext hb => State.rowPortAccess_gives hnext hb,
    fun ⟨hrow, hconv, hfw⟩ => State.suspectRowRewritten_gives row hrow hconv hfw, State.suspectRowRewritten_waits row,
    State.arrayVerified_gives, fun w ⟨hm, hw⟩ => State.arrCfgWrite_gives w hon hm hw, fun w => State.arrCfgWrite_mismatch w hon⟩
  · rw [exec_arrPortReadRow, exec_arrPortWriteRow, exec_arrPortReadScaleLine, exec_arrPortWriteScaleLine]
    simp only [State.portCmd_busy _ _ _ _ _ _ hbusy, and_self]
  · exact ⟨State.arrPortReadRow_gives row hon hfree, State.arrPortWriteRow_gives row hon hfree,
      State.arrPortReadScaleLine_gives line hon hfree, State.arrPortReadScaleLine_waits line hon hfree,
      State.arrPortWriteScaleLine_gives line hon hfree, State.scrubRead_gives hon hfree.2.1 hfree.2.2⟩

end

section
/-! PROOFS. The tile store and its page cache: words that a write lays, the restore of a bad word, TILE_REGION, and page cache fills with
the bytes of HBM4 that they take, which hold of a partition table in canonical form and fail of one that lists a partition twice. -/

namespace Sys2Proof.Machine

/-! ## Bytes and words of a store (R126, R131) -/

theorem leNat_lt (bs : Bytes) : leNat bs < 256 ^ bs.length := by
  induction bs with
  | nil => exact Nat.one_pos
  | cons b bs ih =>
    have hb : b.toNat < 256 := b.isLt
    rw [leNat, List.length_cons, Nat.pow_succ]
    omega

/-- Byte j of a little-endian number. -/
theorem leNat_div_mod (bs : Bytes) (j : Nat) : leNat bs / 256 ^ j % 256 = (bs.getD j 0).toNat := by
  induction bs generalizing j with
  | nil => simp [leNat]
  | cons b bs ih =>
    have hb : b.toNat < 256 := b.isLt
    cases j with
    | zero => rw [leNat, pow_zero, Nat.div_one, List.getD_cons_zero]; omega
    | succ j =>
      rw [leNat, Nat.pow_succ', ← Nat.div_div_eq_div_mul, Nat.add_mul_div_left _ _ (by decide), Nat.div_eq_of_lt hb, Nat.zero_add,
        List.getD_cons_succ, ih]

/-- Byte j of the word that eight bytes make. -/
theorem byte_ofNat_leNat (bs : Bytes) (j : Nat) (hl : bs.length = 8) :
    ((BitVec.ofNat 64 (leNat bs) >>> (8 * j)).setWidth 8 : BitVec 8) = bs.getD j 0 := by
  have hlt : leNat bs < 2 ^ 64 := by simpa [hl] using leNat_lt bs
  apply BitVec.eq_of_toNat_eq
  rw [← leNat_div_mod, BitVec.toNat_setWidth, BitVec.toNat_ushiftRight, BitVec.toNat_ofNat, Nat.mod_eq_of_lt hlt, Nat.shiftRight_eq_div_pow,
    Nat.pow_mul]

@[simp] theorem PWord.good_mk' (d : DWord) : (PWord.mk' d).good = true := by simp [PWord.good, PWord.mk']

/-- The words that a write touches are merged with its bytes; the others are what they were. -/
theorem TileSt.word_put (x : TileSt) (o : Nat) (bs : Bytes) (w : Nat) (hb : bs ≠ []) :
    (x.put o bs).word w = if o / 8 ≤ w ∧ w < (o + bs.length + 7) / 8 then x.merged o bs w else x.word w := by
  have hn : o / 8 + ((o + bs.length + 7) / 8 - o / 8) = (o + bs.length + 7) / 8 := by omega
  unfold TileSt.put TileSt.word
  rw [if_neg (by simpa using hb)]
  dsimp only
  rw [Sparse.get_setRange, hn]
  split
  · rename_i h
    rw [Nat.add_sub_cancel' h.1]
  · rfl

theorem TileSt.byte_put (x : TileSt) (o : Nat) (bs : Bytes) (b : Nat) :
    (x.put o bs).byte b = if o ≤ b ∧ b < o + bs.length then bs.getD (b - o) 0 else x.byte b := by
  rcases eq_or_ne bs [] with rfl | hb
  · simp [TileSt.put]
  unfold TileSt.byte
  rw [TileSt.word_put x o bs _ hb]
  split
  · rw [TileSt.merged, PWord.mk', byte_ofNat_leNat _ _ (by simp), List.getD_eq_getElem _ _ (by simp; omega)]
    simp only [List.getElem_map, List.getElem_range, Nat.div_add_mod]
    rfl
  · rw [if_neg (by omega)]

/-- The bytes that a write has laid. -/
theorem TileSt.bytes_put (x : TileSt) (o : Nat) (bs : Bytes) : (x.put o bs).bytes o bs.length = bs := by
  apply List.ext_getElem (by simp [TileSt.bytes])
  intro j _ hj
  simp [TileSt.bytes, TileSt.byte_put, hj]

/-- A whole word that is written is sound. -/
theorem TileSt.good_word_put (x : TileSt) (w : Nat) (bs : Bytes) (hl : bs.length = 8) : ((x.put (8 * w) bs).word w).good = true := by
  rw [TileSt.word_put x _ bs w (by rintro rfl; simp at hl), if_pos (by omega), TileSt.merged, PWord.good_mk']

@[simp] theorem TileSt.put_deRun (x : TileSt) (o : Nat) (bs : Bytes) : (x.put o bs).deRun = x.deRun := by unfold TileSt.put; split <;> rfl
@[simp] theorem TileSt.put_pcache (x : TileSt) (o : Nat) (bs : Bytes) : (x.put o bs).pcache = x.pcache := by
  unfold TileSt.put; split <;> rfl
@[simp] theorem TileSt.put_pfills (x : TileSt) (o : Nat) (bs : Bytes) : (x.put o bs).pfills = x.pfills := by
  unfold TileSt.put; split <;> rfl

/-! ## What an operation of one tile leaves alone -/

/-- A command answers one next state. -/
theorem State.gives.and {s : State} {c : Instr} {P Q : State → Prop} (h : s.gives c P) (k : s.gives c Q) :
    s.gives c (fun u => P u ∧ Q u) := by
  obtain ⟨u, hu, hp⟩ := h
  obtain ⟨v, hv, hq⟩ := k
  obtain rfl : u = v := Host.Outcome.next.inj (hu.symm.trans hv)
  exact ⟨u, hu, hp, hq⟩

theorem State.gives.imp {s : State} {c : Instr} {P Q : State → Prop} (h : s.gives c P) (k : ∀ u, P u → Q u) : s.gives c Q := by
  obtain ⟨u, hu, hp⟩ := h
  exact ⟨u, hu, k u hp⟩

/-- u differs from s at most in registers, counters, the log and tile t apart from its arrays. -/
def State.inTile (s u : State) (t : Nat) : Prop := s.tilesKept u t ∧ u.arrays = s.arrays ∧ s.inTiles u

theorem State.inTile.trans {s u v : State} {t : Nat} (h : s.inTile u t) (k : u.inTile v t) : s.inTile v t := by
  obtain ⟨ht, ha, hi⟩ := h
  obtain ⟨kt, ka, ki⟩ := k
  exact ⟨fun n hn => (kt n hn).trans (ht n hn), ka.trans ha, hi.trans ki⟩

/-- An operation that changes registers, counters and the log alone. -/
theorem State.inTile_of_eq {s u : State} {r : Sparse Word} {c : Sparse (BitVec 64)} {l : LogSt} (t : Nat)
    (h : u = { s with regs := r, ctr := c, log := l }) : s.inTile u t := by
  subst h; exact ⟨fun _ _ => rfl, rfl, rfl⟩

theorem State.setR_inTile (s : State) (r : Reg) (w : Word) (t : Nat) : s.inTile (s.setR r w) t := State.inTile_of_eq t rfl

theorem State.modTile_inTile (s : State) (t : Nat) (f : TileSt → TileSt) : s.inTile (s.modTile t f) t :=
  ⟨fun k hk => s.tile_modTile_other t k f hk, rfl, rfl⟩

theorem State.tile_congr {s u : State} (h : u.tiles = s.tiles) (t : Nat) : u.tile t = s.tile t := by
  unfold State.tile; rw [h]

theorem State.count_tile (s : State) (t c j : Nat) (l : Option Nat) (n k : Nat) : (s.count t c j l n).tile k = s.tile k :=
  State.tile_congr (by rw [State.count_only]) k
theorem State.logTile_tile (s : State) (t u c d k : Nat) : (s.logTile t u c d).tile k = s.tile k :=
  State.tile_congr (by rw [State.logTile_only]) k

/-- A digital engine without a RUN does nothing. -/
theorem State.deStep_idle {s : State} {t : Nat} (h : (s.tile t).deRun = none) : s.deStep t = s := by
  simp [State.deStep, State.dePull, State.deGo, h]

theorem addr_tileStoreErr (t : Nat) : (R.tileStoreErr t).addr = 0x1000000C + 0x100000 * t := by
  simp [Reg.addr, RegKind.geom, Block.base]; omega

/-! ## The restore of a bad word (R131, R355) -/

/-- A restored word is under restore no more, counts one parity event, and is logged with a code and a detail. -/
def State.restored (s : State) (t w code d : Nat) : State :=
  (((s.modTile t (fun x => { x with restoring := x.restoring.filter (· ≠ w) })).addF (F.tileStoreErrParity t) 1).logTile t 0x88
    code d).count t 0x051 0 none 1

theorem State.restored_tile (s : State) (t w code d : Nat) :
    (s.restored t w code d).tile t = { s.tile t with restoring := (s.tile t).restoring.filter (· ≠ w) } := by
  unfold State.restored
  rw [State.count_tile, State.logTile_tile, State.tile_congr (State.addF_tiles _ _ _), State.tile_modTile_same]

theorem State.restored_inTile (s : State) (t w code d : Nat) : s.inTile (s.restored t w code d) t :=
  (((s.modTile_inTile t _).trans (State.setR_inTile _ _ _ t)).trans (State.inTile_of_eq t (State.logTile_only _ _ _ _ _))).trans
    (State.inTile_of_eq t (State.count_only _ _ _ _ _ _))

theorem State.restored_parity (s : State) (t : TileN) (w code d : Nat) :
    (s.restored t w code d).getF (F.tileStoreErrParity t) = (s.getF (F.tileStoreErrParity t) + 1) % 2 ^ 16 := by
  have ht := t.isLt
  unfold State.restored
  rw [State.getF_congr (g := F.tileStoreErrParity t) ((State.count_regsKept _ t 0x051 0 none 1).getR _
      (by simp only [addr_tileStoreErr, addr_ctrTileStatus, List.mem_singleton]; omega)),
    State.getF_congr (g := F.tileStoreErrParity t) ((State.logTile_regsKept _ t 0x88 code d).getR _
      (by simp only [addr_tileStoreErr, addr_logLost, List.mem_singleton]; omega)),
    State.addF, State.getF_setF_same _ _ _ (by simp) (by simp)]
  rfl

section
variable {s : State} {t w : Nat} (hbad : ((s.tile t).word w).good = false)
include hbad

theorem State.restoreOne_program (h : 8 * w < s.pbEnd t) :
    s.restoreOne t w = (s.modTile t (·.put (8 * w) (s.progWord t (8 * w)))).restored t w 0x0F02 (8 * w) := by
  simp [State.restoreOne, State.restored, hbad, h]

theorem State.restoreOne_weights (hp : s.pbEnd t ≤ 8 * w) (h : 8 * w < s.dwEnd t) :
    s.restoreOne t w = (s.modTile t (·.put (8 * w) (s.deImage t (8 * w - s.pbEnd t) 8 ++
      List.replicate (8 - (s.deImage t (8 * w - s.pbEnd t) 8).length) 0))).restored t w 0x0F02 (8 * w) := by
  simp [State.restoreOne, State.restored, hbad, h, Nat.not_lt.mpr hp]

theorem State.restoreOne_scratch {b : Bytes} (hd : s.dwEnd t ≤ 8 * w) (h : 8 * w < s.scratchEnd t)
    (hb : (s.tile t).rebuilt w = some b) :
    s.restoreOne t w = (s.modTile t (·.put (8 * w) b)).restored t w 0x0F06 (8 * w / 512) := by
  have hp : s.pbEnd t ≤ 8 * w := (Nat.le_add_right _ _).trans hd
  simp [State.restoreOne, State.restored, hbad, hb, Nat.not_lt.mpr hd, Nat.not_lt.mpr hp, Nat.not_le.mpr h]

theorem State.restoreOne_pageCache {l : PcLine} (hd : s.dwEnd t ≤ 8 * w) (h : s.scratchEnd t ≤ 8 * w)
    (hl : (s.tile t).pcache.find? (fun l => s.pcAddr t l.set l.way ≤ 8 * w && 8 * w < s.pcAddr t l.set l.way + 4096) = some l) :
    s.restoreOne t w = (s.modTile t (fun x => { x with
      pcache := x.pcache.filter (fun m => m.line ≠ l.line), pfills := x.pfills ++ [⟨l.line, 0, false⟩] })).restored t w 0x0F02 (8 * w) := by
  have hp : s.pbEnd t ≤ 8 * w := (Nat.le_add_right _ _).trans hd
  simp [State.restoreOne, State.restored, hbad, hl, h, Nat.not_lt.mpr hd, Nat.not_lt.mpr hp]

end

/-- A word outside scratch, and one whose writer read sound lines alone, is restored from its own source. -/
theorem State.restoreWord_eq_restoreOne {s : State} {t w : Nat}
    (h : 8 * w < s.dwEnd t ∨ s.scratchEnd t ≤ 8 * w ∨ (s.tile t).badInputs w = []) : s.restoreWord t w = s.restoreOne t w := by
  unfold State.restoreWord
  cases (s.tile t).writers.length with
  | zero => rfl
  | succ k =>
    rw [State.restoreFrom]
    rcases h with h | h | h <;> simp [h]

/-- A word that can be rebuilt was written by an action that read sound lines alone. -/
theorem TileSt.badInputs_of_rebuilt {x : TileSt} {w : Nat} {b : Bytes} (h : x.rebuilt w = some b) : x.badInputs w = [] := by
  unfold TileSt.rebuilt at h
  unfold TileSt.badInputs
  split at h
  · cases h
  · rename_i v hv
    split at h
    · cases h
    · rename_i hins
      simpa [hv, TileSt.sound] using hins

/-- The rebuilding of a word gives eight bytes. -/
theorem TileSt.length_of_rebuilt {x : TileSt} {w : Nat} {b : Bytes} (h : x.rebuilt w = some b) : b.length = 8 := by
  unfold TileSt.rebuilt at h
  split at h
  · cases h
  · split_ifs at h with _ _ hcov
    obtain rfl := Option.some.inj h
    simp only [Bool.and_eq_true, decide_eq_true_eq] at hcov
    simp only [List.length_take, List.length_drop]
    omega

theorem State.length_progWord (s : State) (t o : Nat) : (s.progWord t o).length = 8 := by
  unfold State.progWord
  split <;> simp [State.hbmRead]

theorem State.length_deImage_le (s : State) (t off n : Nat) : (s.deImage t off n).length ≤ n := by
  unfold State.deImage
  dsimp only
  split <;> simp

theorem exec_tileStoreWordRestored (t : TileN) (word : Fin 1048576) (s : State) :
    exec (.tileStoreWordRestored t word) s = .next ((s.restoreWord t word).deStep t) := by rfl

/-- A bad word whose source gives eight bytes: it holds them, is sound, has counted one parity event, and is restored no more. -/
theorem State.tileStoreWordRestored_put {s : State} {t : TileN} {word : Fin 1048576} {b : Bytes} {code d : Nat}
    (hde : (s.tile t).deRun = none) (hb : b.length = 8)
    (hr : s.restoreWord t word = (s.modTile t (·.put (8 * word.val) b)).restored t word code d) :
    s.gives (.tileStoreWordRestored t word) (fun u =>
      ((u.tile t).word word).good = true ∧ word.val ∉ (u.tile t).restoring ∧
      u.getF (F.tileStoreErrParity t) = (s.getF (F.tileStoreErrParity t) + 1) % 2 ^ 16 ∧
      (u.tile t).bytes (8 * word.val) 8 = b ∧ s.inTile u t) := by
  have htile := (s.modTile t (·.put (8 * word.val) b)).restored_tile t word code d
  rw [State.tile_modTile_same] at htile
  refine ⟨_, exec_tileStoreWordRestored t word s, ?_⟩
  rw [hr, State.deStep_idle (by rw [htile, TileSt.put_deRun]; exact hde)]
  refine ⟨?_, ?_, State.restored_parity _ t word code d, ?_, (s.modTile_inTile t _).trans (State.restored_inTile _ t word code d)⟩
  · rw [htile]; exact TileSt.good_word_put _ _ b hb
  · rw [htile]; simp
  · rw [htile, ← hb]; exact TileSt.bytes_put _ _ b

/-- A word of the program buffer or of the DE weight region is sound again, one of the weight region with its layer's image. -/
theorem State.tileStoreWordRestored_buffers {s : State} {t : TileN} {word : Fin 1048576}
    (hbad : ((s.tile t).word word).good = false) (hde : (s.tile t).deRun = none) (h : 8 * word.val < s.dwEnd t) :
    s.gives (.tileStoreWordRestored t word) (fun u =>
      ((u.tile t).word word).good = true ∧ word.val ∉ (u.tile t).restoring ∧
      u.getF (F.tileStoreErrParity t) = (s.getF (F.tileStoreErrParity t) + 1) % 2 ^ 16 ∧
      ((s.pbEnd t ≤ 8 * word.val ∧ (s.deImage t (8 * word.val - s.pbEnd t) 8).length = 8) →
        (u.tile t).bytes (8 * word.val) 8 = s.deImage t (8 * word.val - s.pbEnd t) 8) ∧ s.inTile u t) := by
  have hone := State.restoreWord_eq_restoreOne (s := s) (t := t) (w := word) (.inl h)
  rcases Nat.lt_or_ge (8 * word.val) (s.pbEnd t) with hp | hp
  · refine (State.tileStoreWordRestored_put hde (s.length_progWord t _) (hone.trans (State.restoreOne_program hbad hp))).imp ?_
    exact fun u ⟨hgood, hrest, hpar, _, hin⟩ => ⟨hgood, hrest, hpar, fun ⟨hge, _⟩ => absurd hp (Nat.not_lt.mpr hge), hin⟩
  · have hlen := s.length_deImage_le t (8 * word.val - s.pbEnd t) 8
    refine (State.tileStoreWordRestored_put hde (by simp only [List.length_append, List.length_replicate]; omega)
      (hone.trans (State.restoreOne_weights hbad hp h))).imp ?_
    intro u ⟨hgood, hrest, hpar, hbytes, hin⟩
    refine ⟨hgood, hrest, hpar, fun ⟨_, h8⟩ => ?_, hin⟩
    rw [hbytes, h8, List.replicate_zero, List.append_nil]

/-- A word of scratch holds the bytes that its rebuilding gives (R355). -/
theorem State.tileStoreWordRestored_scratch {s : State} {t : TileN} {word : Fin 1048576} {b : Bytes}
    (hbad : ((s.tile t).word word).good = false) (hde : (s.tile t).deRun = none) (hd : s.dwEnd t ≤ 8 * word.val)
    (h : 8 * word.val < s.scratchEnd t) (hb : (s.tile t).rebuilt word = some b) :
    s.gives (.tileStoreWordRestored t word) (fun u =>
      (u.tile t).bytes (8 * word.val) 8 = b ∧ ((u.tile t).word word).good = true ∧ word.val ∉ (u.tile t).restoring ∧ s.inTile u t) :=
  (State.tileStoreWordRestored_put hde (TileSt.length_of_rebuilt hb)
    ((State.restoreWord_eq_restoreOne (.inr (.inr (TileSt.badInputs_of_rebuilt hb)))).trans
      (State.restoreOne_scratch hbad hd h hb))).imp
    fun _ ⟨hgood, hrest, _, hbytes, hin⟩ => ⟨hbytes, hgood, hrest, hin⟩

/-- A line of the page cache with a bad word is invalid, and a fill fetches it again. -/
theorem State.tileStoreWordRestored_pageCache {s : State} {t : TileN} {word : Fin 1048576} {l : PcLine}
    (hbad : ((s.tile t).word word).good = false) (hde : (s.tile t).deRun = none) (hd : s.dwEnd t ≤ 8 * word.val)
    (h : s.scratchEnd t ≤ 8 * word.val)
    (hl : (s.tile t).pcache.find? (fun l =>
      s.pcAddr t l.set l.way ≤ 8 * word.val && 8 * word.val < s.pcAddr t l.set l.way + 4096) = some l) :
    s.gives (.tileStoreWordRestored t word) (fun u =>
      (∀ m ∈ (u.tile t).pcache, m.line ≠ l.line) ∧ (∃ f ∈ (u.tile t).pfills, f.line = l.line ∧ f.stale = false) ∧
      word.val ∉ (u.tile t).restoring ∧ s.inTile u t) := by
  refine ⟨_, exec_tileStoreWordRestored t word s, ?_⟩
  rw [State.restoreWord_eq_restoreOne (.inr (.inl h)), State.restoreOne_pageCache hbad hd h hl]
  have hin := (s.modTile_inTile t (fun x => { x with
    pcache := x.pcache.filter (fun m => m.line ≠ l.line), pfills := x.pfills ++ [⟨l.line, 0, false⟩] })).trans
    (State.restored_inTile _ t word 0x0F02 (8 * word.val))
  have htile := State.restored_tile (s.modTile t (fun x => { x with
    pcache := x.pcache.filter (fun m => m.line ≠ l.line), pfills := x.pfills ++ [⟨l.line, 0, false⟩] })) t word 0x0F02 (8 * word.val)
  rw [State.tile_modTile_same] at htile
  rw [State.deStep_idle (by rw [htile]; exact hde)]
  refine ⟨?_, ?_, ?_, hin⟩
  · rw [htile]; simp
  · rw [htile]; exact ⟨_, List.mem_append_right _ (List.mem_singleton_self _), rfl, rfl⟩
  · rw [htile]; simp

/-! ## The scrub and TILE_REGION (R129, R132, R134) -/

theorem exec_tileStoreScrub (t : TileN) (s : State) (hon : s.tileOn t = true)
    (hbad : (s.tile t).badWords (512 * (s.tile t).scrubLine) 512 = []) :
    exec (.tileStoreScrub t) s = .next (s.modTile t (fun x => { x with
      scrubLine := if s.dwEnd t ≤ 512 * ((s.tile t).scrubLine + 1) then 0 else (s.tile t).scrubLine + 1 })) := by
  show execTileStoreScrub t s = _
  simp [execTileStoreScrub, hon, hbad]

/-- The scrub of a sound line goes on to the next one. -/
theorem State.tileStoreScrub_gives {s : State} {t : TileN} (hon : s.tileOn t = true)
    (hbad : (s.tile t).badWords (512 * (s.tile t).scrubLine) 512 = []) :
    s.gives (.tileStoreScrub t) (fun u =>
      (u.tile t).scrubLine = (if s.dwEnd t ≤ 512 * ((s.tile t).scrubLine + 1) then 0 else (s.tile t).scrubLine + 1) ∧
      (u.tile t).store = (s.tile t).store ∧ s.tilesKept u t ∧ u.regs = s.regs ∧ s.inTiles u) := by
  obtain ⟨hkept, -, hin⟩ := s.modTile_inTile t (fun x => { x with
    scrubLine := if s.dwEnd t ≤ 512 * ((s.tile t).scrubLine + 1) then 0 else (s.tile t).scrubLine + 1 })
  exact ⟨_, exec_tileStoreScrub t s hon hbad, by rw [State.tile_modTile_same], by rw [State.tile_modTile_same], hkept, rfl, hin⟩

theorem exec_tileRegionWrite (t : TileN) (w : Word) (s : State) (hon : s.tileOn t = true) :
    exec (.tileRegionWrite t w) s = .next (s.setRegion t w) := by
  show execTileRegionWrite t w s = _
  simp [execTileRegionWrite, hon]

/-- A word of TILE_REGION is taken while no sequencer runs and within the limits of Table 5.2, and sets REGION_ERR otherwise. -/
theorem State.tileRegionWrite_gives {s : State} {t : TileN} (w : Word) (hon : s.tileOn t = true) :
    s.gives (.tileRegionWrite t w) (fun u =>
      (if s.flag (F.tileStatusSeqRun t) = false ∧ regionOk w = true then
        u.getR (R.tileRegion t) = w &&& 0x7FFFF ∧ (u.tile t).pcache = [] ∧ (u.tile t).pfills = [] ∧ (u.tile t).scrubLine = 0 ∧
        s.regsKept u [(R.tileRegion t).addr]
      else u.flag (F.tileStatusRegionErr t) = true ∧ s.regsKept u [(R.tileStatus t).addr] ∧ u.tiles = s.tiles) ∧
      (u.tile t).store = (s.tile t).store ∧ s.inTile u t) := by
  refine ⟨_, exec_tileRegionWrite t w s hon, ?_⟩
  by_cases h : s.flag (F.tileStatusSeqRun t) = false ∧ regionOk w = true
  · have hset : s.setRegion t w =
        (s.setR (R.tileRegion t) (w &&& 0x7FFFF)).modTile t (fun x => { x.pcClear with scrubLine := 0 }) := by
      simp [State.setRegion, h]
    rw [hset]
    beta_reduce
    rw [if_pos h]
    refine ⟨⟨State.getR_setR_same _ _ _, ?_, ?_, ?_, s.setR_regsKept _ _⟩, ?_, (s.setR_inTile _ _ t).trans (State.modTile_inTile _ t _)⟩
    all_goals simp [TileSt.pcClear]
  · have hset : s.setRegion t w = s.setFlag (F.tileStatusRegionErr t) true := by
      rw [State.setRegion, if_pos]
      rw [Bool.or_eq_true, Bool.not_eq_true']
      by_contra hn
      simp only [not_or, Bool.not_eq_true, Bool.not_eq_false] at hn
      exact h hn
    rw [hset]
    beta_reduce
    rw [if_neg h]
    exact ⟨⟨State.flag_setFlag_same _ _ _ (by simp) rfl, s.setFlag_regsKept _ _, rfl⟩, rfl, s.setR_inTile _ _ t⟩

/-! ## HBM4 as the page cache reads it (R134, R258, R339) -/

/-- A write of a key's entry finds what a search found before, when the table is in canonical order, the search finds nothing in an entry
that reads as unlisted, and the same in the new entry as in the old one. -/
theorem Sparse.findSome?_set {α β : Type} [DecidableEq α] (d : Nat → α) (m : Sparse α) (n : Nat) (v : α) (g : Nat × α → Option β)
    (hm : m.Pairwise (fun a b => a.1 < b.1)) (hd : ∀ k, g (k, d k) = none) (hv : g (n, v) = g (n, Sparse.get d m n)) :
    (Sparse.set d m n v).findSome? g = m.findSome? g := by
  have hset : ∀ m : Sparse α, Sparse.set d m n v = m.filter (fun e => e.1 < n) ++
      ((if v = d n then [] else [(n, v)]) ++ m.filter (fun e => n + 1 ≤ e.1)) := fun m => by
    by_cases h : v = d n <;> simp [Sparse.set, Sparse.setRange, h]
  have hmid : (if v = d n then [] else [(n, v)]).findSome? g = g (n, v) := by
    split
    · rename_i h; rw [h, hd]; rfl
    · simp
  induction m with
  | nil => rw [hset]; exact (List.findSome?_append ..).trans (by simp [hmid, hv, hd])
  | cons e es ih =>
    obtain ⟨k, x⟩ := e
    obtain ⟨hk, hes⟩ := List.pairwise_cons.mp hm
    have hpast : n ≤ k → es.filter (fun e => decide (e.1 < n)) = [] ∧ es.filter (fun e => decide (n + 1 ≤ e.1)) = es := fun hnk =>
      ⟨List.filter_eq_nil_iff.mpr (fun e he => by have := hk e he; simp; omega),
        List.filter_eq_self.mpr (fun e he => by have := hk e he; simp; omega)⟩
    rcases Nat.lt_trichotomy k n with hlt | rfl | hgt
    · have hget : Sparse.get d ((k, x) :: es) n = Sparse.get d es n := by
        have hne : (n == k) = false := beq_eq_false_iff_ne.mpr hlt.ne'
        simp [Sparse.get, List.lookup_cons, hne]
      have hset' : Sparse.set d ((k, x) :: es) n v = (k, x) :: Sparse.set d es n v := by
        have hnot : ¬ n < k := by omega
        simp [hset, hlt, hnot]
      rw [hset', List.findSome?_cons, ih hes (hget ▸ hv), List.findSome?_cons]
    · obtain ⟨hlow, hhigh⟩ := hpast le_rfl
      have hget : Sparse.get d ((k, x) :: es) k = x := by simp [Sparse.get]
      rw [hset, List.filter_cons_of_neg (by simp), List.filter_cons_of_neg (by simp), hlow, hhigh, List.nil_append, List.findSome?_append,
        hmid, hv, hget, List.findSome?_cons]
      cases g (k, x) <;> rfl
    · obtain ⟨hlow, hhigh⟩ := hpast hgt.le
      have hget : Sparse.get d ((k, x) :: es) n = d n := by
        have hnone : List.lookup n ((k, x) :: es) = none := List.lookup_eq_none_iff.mpr (fun e he => by
          rcases List.mem_cons.mp he with rfl | he
          · simpa using hgt.ne
          · simpa using (hgt.trans (hk e he)).ne)
        rw [Sparse.get, hnone]; rfl
      rw [hset, List.filter_cons_of_neg (by simp; omega), List.filter_cons_of_pos (by simp; omega), hlow, hhigh, List.nil_append,
        List.findSome?_append, hmid, hv, hget, hd, Option.none_or]

theorem State.hbmSeen_congr {s u : State} (hp : u.parts = s.parts) (hh : u.hbm = s.hbm) (a n : Nat) : u.hbmSeen a n = s.hbmSeen a n := by
  unfold State.hbmSeen State.hbmByte; rw [hp, hh]

/-- A byte that a fill reads: that of the first partition listed that has it in its weight area, else that of HBM4. -/
theorem State.getElem?_hbmSeen (s : State) (a : Nat) {n j : Nat} (h : j < n) : (s.hbmSeen a n)[j]? =
    some ((s.parts.findSome? (fun e => e.2.wgt.byteAt e.1 (a + j))).getD (s.hbmByte (a + j))) := by
  simp [State.hbmSeen, h]

/-- A partition without weights has nothing in its weight area. -/
theorem WgtSt.byteAt_empty (n a : Nat) : ({} : WgtSt).byteAt n a = none := by
  simp [WgtSt.byteAt, ImageSlot.byteAt]

theorem State.hbmPay_regs (s : State) (n a need key : Nat) : (s.hbmPay n a need key).regs = s.regs := by
  rcases s.hbmPay_spec n a need key with h | ⟨f, h⟩ <;> rw [h]; rfl
theorem State.hbmPay_tiles (s : State) (n a need key : Nat) : (s.hbmPay n a need key).tiles = s.tiles := by
  rcases s.hbmPay_spec n a need key with h | ⟨f, h⟩ <;> rw [h]; rfl
theorem State.hbmPay_hbm (s : State) (n a need key : Nat) : (s.hbmPay n a need key).hbm = s.hbm := by
  rcases s.hbmPay_spec n a need key with h | ⟨f, h⟩ <;> rw [h]; rfl

/-- In locked cadence a payment writes the drawing partition's entry, and keeps its weights. -/
theorem State.hbmPay_parts {s : State} (hl : s.locked = true) (n a need key : Nat) :
    ∃ x : PartSt, x.wgt = (s.prt n).wgt ∧ (s.hbmPay n a need key).parts = Sparse.set (fun _ => {}) s.parts n x := by
  refine ⟨(s.hbmPay n a need key).prt n, ?_, ?_⟩
  · simp only [State.hbmPay, hl, Bool.not_true, Bool.false_eq_true, if_false, State.prt_modPrt_same]
    split <;> rfl
  · simp only [State.hbmPay, hl, Bool.not_true, Bool.false_eq_true, if_false, State.prt_modPrt_same]
    rfl

/-- A payment leaves HBM4 as the page cache reads it alone, when the partition table is in canonical form. -/
theorem State.hbmSeen_hbmPay {s : State} (hwf : Sparse.wf (fun _ => ({} : PartSt)) s.parts = true) (n a need key b k : Nat) :
    (s.hbmPay n a need key).hbmSeen b k = s.hbmSeen b k := by
  cases hl : s.locked with
  | false => rw [(s.hbmPay_free n a need key hl).2]
  | true =>
    obtain ⟨x, hx, hparts⟩ := State.hbmPay_parts hl n a need key
    unfold State.hbmSeen State.hbmByte
    rw [hparts, State.hbmPay_hbm]
    refine List.map_congr_left (fun j _ => ?_)
    rw [Sparse.findSome?_set _ _ _ _ _ ((Sparse.wf_iff _ _).mp hwf).1 (fun k => WgtSt.byteAt_empty k _)]
    show x.wgt.byteAt n _ = (s.prt n).wgt.byteAt n _
    rw [hx]

/-! ## Page cache fills (R134, R339, R340, R356) -/

/-- The state after a fill of HBM4 line `line` into tile t has drawn its bursts. -/
abbrev State.fillPaid (s : State) (t line : Nat) : State := s.hbmPay (s.ownerOf t) (4096 * line) 64 (tileKey t 31 line)

theorem State.pcSets_congr {s u : State} (h : u.regs = s.regs) (t : Nat) : u.pcSets t = s.pcSets t := by
  unfold State.pcSets State.getF State.getR; rw [h]
theorem State.pcAddr_congr {s u : State} (h : u.regs = s.regs) (t set way : Nat) : u.pcAddr t set way = s.pcAddr t set way := by
  unfold State.pcAddr State.scratchEnd State.getF State.getR; rw [h]

/-- The line that takes a way of its set, with the stamp of its use. -/
def TileSt.newLine (x : TileSt) (line set : Nat) : PcLine := ⟨line, set, x.pcVictim set, x.pstamp + 1⟩

theorem State.length_hbmSeen (s : State) (a n : Nat) : (s.hbmSeen a n).length = n := by simp [State.hbmSeen]

theorem State.pcInstall_regs (s : State) (t line : Nat) : (s.pcInstall t line).regs = s.regs := by
  unfold State.pcInstall; dsimp only; split <;> rfl
theorem State.pcInstall_inTile (s : State) (t line : Nat) : s.inTile (s.pcInstall t line) t := by
  unfold State.pcInstall
  dsimp only
  split
  · exact ⟨fun _ _ => rfl, rfl, rfl⟩
  · exact s.modTile_inTile t _
theorem State.pcInstall_pfills (s : State) (t line : Nat) : ((s.pcInstall t line).tile t).pfills = (s.tile t).pfills := by
  unfold State.pcInstall
  dsimp only
  split
  · rfl
  · rw [State.tile_modTile_same, TileSt.put_pfills]

/-- Line `line` of HBM4 has taken its place in the page cache of tile t of s, and u holds the bytes b there. -/
def State.takesLine (s u : State) (t line : Nat) (b : Bytes) : Prop :=
  let l := (s.tile t).newLine line (line % s.pcSets t)
  (u.tile t).pcache = (s.tile t).pcache.filter (fun m => !(m.set = l.set && m.way = l.way)) ++ [l] ∧
  (u.tile t).bytes (s.pcAddr t l.set l.way) b.length = b

theorem State.takesLine_pcInstall {s : State} {t : Nat} (line : Nat) (h : s.pcSets t ≠ 0) :
    s.takesLine (s.pcInstall t line) t line (s.hbmSeen (4096 * line) 4096) := by
  unfold State.takesLine State.pcInstall
  dsimp only
  rw [if_neg h, State.tile_modTile_same]
  exact ⟨TileSt.put_pcache _ _ _, TileSt.bytes_put _ _ _⟩

/-- Where a line goes depends on the registers, the lines present and the stamp alone. -/
theorem State.takesLine.of_eq {s q u : State} {t line : Nat} {b : Bytes} (h : q.takesLine u t line b) (hr : q.regs = s.regs)
    (hc : (q.tile t).pcache = (s.tile t).pcache) (hp : (q.tile t).pstamp = (s.tile t).pstamp) : s.takesLine u t line b := by
  have hnew : ∀ set, (q.tile t).newLine line set = (s.tile t).newLine line set := fun set => by
    simp only [TileSt.newLine, TileSt.pcVictim, hc, hp]
  unfold State.takesLine at h
  rw [State.pcSets_congr hr, hnew, hc] at h
  dsimp only at h
  rwa [State.pcAddr_congr hr] at h

/-- The state in which a fill of tile t has drawn its bursts and is in flight no more. -/
def State.fillTaken (s : State) (t line : Nat) : State :=
  (s.fillPaid t line).modTile t (fun x => { x with pfills := x.pfills.filter (fun g => g.line ≠ line) })

theorem State.fillTaken_tile (s : State) (t line : Nat) :
    (s.fillTaken t line).tile t = { s.tile t with pfills := (s.tile t).pfills.filter (fun g => g.line ≠ line) } := by
  rw [State.fillTaken, State.tile_modTile_same, State.tile_congr (State.hbmPay_tiles s _ _ _ _)]
theorem State.fillTaken_regs (s : State) (t line : Nat) : (s.fillTaken t line).regs = s.regs := State.hbmPay_regs s _ _ _ _

theorem exec_pageCacheFill (s : State) (t : TileN) (line : Nat) : exec (.pageCacheFill t line) s = execPageCacheFill t line s := by rfl

section
variable {s : State} {t : TileN} {line : Nat} {f : PcFill} (hf : (s.tile t).pfills.find? (fun f => f.line = line) = some f)
include hf

theorem exec_pageCacheFill_stale (hs : f.stale = true) :
    exec (.pageCacheFill t line) s = .next (s.modTile t (fun x =>
      { x with pfills := x.pfills.map (fun g => if g.line = line then { g with stale := false } else g) })) := by
  rw [exec_pageCacheFill, execPageCacheFill, hf]
  simp [hs]

theorem exec_pageCacheFill_bad (hs : f.stale = false) (hg : s.linesGood (4096 * line) 4096 = false) :
    exec (.pageCacheFill t line) s = .next s := by
  rw [exec_pageCacheFill, execPageCacheFill, hf]
  simp [hs, hg]

theorem exec_pageCacheFill_waits (hs : f.stale = false) (hg : s.linesGood (4096 * line) 4096 = true)
    (hv : s.hbmServed (s.ownerOf t) (4096 * line) 64 (tileKey t 31 line) = false) :
    exec (.pageCacheFill t line) s = .next (s.fillPaid t line) := by
  rw [exec_pageCacheFill, execPageCacheFill, hf]
  simp [hs, hg, hv]

theorem exec_pageCacheFill_served (hs : f.stale = false) (hg : s.linesGood (4096 * line) 4096 = true)
    (hv : s.hbmServed (s.ownerOf t) (4096 * line) 64 (tileKey t 31 line) = true) :
    exec (.pageCacheFill t line) s = .next ((s.fillTaken t line).pcInstall t line) := by
  rw [exec_pageCacheFill, execPageCacheFill, hf]
  simp [hs, hg, hv, State.fillTaken]

/-- A fill that is served takes its place with the bytes of HBM4 as they are read after its payment. -/
theorem State.pageCacheFill_served (hs : f.stale = false) (hg : s.linesGood (4096 * line) 4096 = true)
    (hv : s.hbmServed (s.ownerOf t) (4096 * line) 64 (tileKey t 31 line) = true) :
    s.gives (.pageCacheFill t line) (fun u =>
      (∀ g ∈ (u.tile t).pfills, g.line ≠ line) ∧
      (s.pcSets t ≠ 0 → s.takesLine u t line ((s.fillPaid t line).hbmSeen (4096 * line) 4096)) ∧
      u.regs = s.regs ∧ s.tilesKept u t ∧ (s.fillPaid t line).inTiles u) := by
  obtain ⟨hkept, -, hin⟩ := ((s.fillPaid t line).modTile_inTile t _).trans ((s.fillTaken t line).pcInstall_inTile t line)
  have htile := s.fillTaken_tile t line
  refine ⟨_, exec_pageCacheFill_served hf hs hg hv, ?_, fun hsets => ?_, (State.pcInstall_regs _ t line).trans (s.fillTaken_regs t line),
    fun k hk => (hkept k hk).trans (State.tile_congr (State.hbmPay_tiles s _ _ _ _) k), hin⟩
  · rw [State.pcInstall_pfills, htile]; simp
  · have hregs := s.fillTaken_regs t line
    have htakes := State.takesLine_pcInstall line (by rwa [State.pcSets_congr hregs] : (s.fillTaken t line).pcSets t ≠ 0)
    exact htakes.of_eq hregs (by rw [htile]) (by rw [htile])

/-- A fill of the page cache (R134): one that a store has hit is fetched again, one of a bad line waits (R356), one whose bucket does
not hold its bursts draws what there is (R339), and every other one takes its place with the bytes of HBM4. -/
theorem State.pageCacheFill_gives (hwf : Sparse.wf (fun _ => ({} : PartSt)) s.parts = true) :
    s.gives (.pageCacheFill t line) (fun u =>
      (if f.stale then (u.tile t).pcache = (s.tile t).pcache ∧ (u.tile t).store = (s.tile t).store ∧
          (∀ g ∈ (u.tile t).pfills, g.line = line → g.stale = false) ∧ s.inTiles u
      else if s.linesGood (4096 * line) 4096 = false then u = s
      else if s.hbmServed (s.ownerOf t) (4096 * line) 64 (tileKey t 31 line) = false then u = s.fillPaid t line
      else (∀ g ∈ (u.tile t).pfills, g.line ≠ line) ∧
        (s.pcSets t ≠ 0 → ∃ l ∈ (u.tile t).pcache, l.line = line ∧ l.set = line % s.pcSets t ∧
          (u.tile t).bytes (s.pcAddr t l.set l.way) 4096 = s.hbmSeen (4096 * line) 4096) ∧ (s.fillPaid t line).inTiles u) ∧
      u.regs = s.regs ∧ s.tilesKept u t) := by
  cases hs : f.stale with
  | true =>
    obtain ⟨hkept, -, hin⟩ := s.modTile_inTile t (fun x =>
      { x with pfills := x.pfills.map (fun g => if g.line = line then { g with stale := false } else g) })
    refine ⟨_, exec_pageCacheFill_stale hf hs, ?_, rfl, hkept⟩
    rw [if_pos rfl, State.tile_modTile_same]
    refine ⟨rfl, rfl, fun g hg => ?_, hin⟩
    obtain ⟨x, -, rfl⟩ := List.mem_map.mp hg
    split
    · exact fun _ => rfl
    · exact fun h => absurd h ‹_›
  | false =>
    simp only [Bool.false_eq_true, if_false]
    cases hg : s.linesGood (4096 * line) 4096 with
    | false => exact ⟨s, exec_pageCacheFill_bad hf hs hg, by rw [if_pos rfl], rfl, fun _ _ => rfl⟩
    | true =>
      simp only [reduceCtorEq, if_false]
      cases hv : s.hbmServed (s.ownerOf t) (4096 * line) 64 (tileKey t 31 line) with
      | false =>
        exact ⟨_, exec_pageCacheFill_waits hf hs hg hv, by rw [if_pos rfl], State.hbmPay_regs s _ _ _ _,
          fun k _ => State.tile_congr (State.hbmPay_tiles s _ _ _ _) k⟩
      | true =>
        simp only [reduceCtorEq, if_false]
        refine (State.pageCacheFill_served hf hs hg hv).imp ?_
        intro u ⟨hfills, htakes, hregs, hkept, hin⟩
        rw [State.hbmSeen_hbmPay hwf] at htakes
        refine ⟨⟨hfills, fun hsets => ?_, hin⟩, hregs, hkept⟩
        obtain ⟨hcache, hbytes⟩ := htakes hsets
        rw [State.length_hbmSeen] at hbytes
        exact ⟨_, hcache ▸ List.mem_append_right _ (List.mem_singleton_self _), rfl, rfl, hbytes⟩

end

/-! ## The statement, where the partition table is in canonical form -/

/-- What O7 claims of a state holds when the partition table is in its canonical form, as at reset and after every write of it
(`Sparse.wf_set`). Without that premise the last clause fails (`not_storeRestoresRegionsAndPageCache`). -/
theorem storeRestoresRegionsAndPageCache_of_partsWf (t : TileN) (word : Fin 1048576) (w : Word) (line : Nat) (s : State)
    (hwf : Sparse.wf (fun _ => ({} : PartSt)) s.parts = true) :
    ((((s.tile t).word word).good = false ∧ (s.tile t).deRun = none) →
      (8 * word.val < s.dwEnd t → s.gives (.tileStoreWordRestored t word) (fun u =>
        ((u.tile t).word word).good = true ∧ word.val ∉ (u.tile t).restoring ∧
        u.getF (F.tileStoreErrParity t) = (s.getF (F.tileStoreErrParity t) + 1) % 2 ^ 16 ∧
        ((s.pbEnd t ≤ 8 * word.val ∧ (s.deImage t (8 * word.val - s.pbEnd t) 8).length = 8) →
          (u.tile t).bytes (8 * word.val) 8 = s.deImage t (8 * word.val - s.pbEnd t) 8) ∧
        s.tilesKept u t ∧ u.arrays = s.arrays ∧ s.inTiles u)) ∧
      (∀ b, (s.dwEnd t ≤ 8 * word.val ∧ 8 * word.val < s.scratchEnd t ∧ (s.tile t).rebuilt word = some b) →
        s.gives (.tileStoreWordRestored t word) (fun u =>
          (u.tile t).bytes (8 * word.val) 8 = b ∧ ((u.tile t).word word).good = true ∧ word.val ∉ (u.tile t).restoring ∧
          s.tilesKept u t ∧ u.arrays = s.arrays ∧ s.inTiles u)) ∧
      (∀ l, (s.dwEnd t ≤ 8 * word.val ∧ s.scratchEnd t ≤ 8 * word.val ∧ (s.tile t).pcache.find? (fun l =>
          s.pcAddr t l.set l.way ≤ 8 * word.val && 8 * word.val < s.pcAddr t l.set l.way + 4096) = some l) →
        s.gives (.tileStoreWordRestored t word) (fun u =>
          (∀ m ∈ (u.tile t).pcache, m.line ≠ l.line) ∧ (∃ f ∈ (u.tile t).pfills, f.line = l.line ∧ f.stale = false) ∧
          word.val ∉ (u.tile t).restoring ∧ s.tilesKept u t ∧ u.arrays = s.arrays ∧ s.inTiles u))) ∧
    ((s.tileOn t = true ∧ (s.tile t).badWords (512 * (s.tile t).scrubLine) 512 = []) →
      s.gives (.tileStoreScrub t) (fun u =>
        (u.tile t).scrubLine = (if s.dwEnd t ≤ 512 * ((s.tile t).scrubLine + 1) then 0 else (s.tile t).scrubLine + 1) ∧
        (u.tile t).store = (s.tile t).store ∧ s.tilesKept u t ∧ u.regs = s.regs ∧ s.inTiles u)) ∧
    (s.tileOn t = true →
      s.gives (.tileRegionWrite t w) (fun u =>
        (if s.flag (F.tileStatusSeqRun t) = false ∧ regionOk w = true then
          u.getR (R.tileRegion t) = w &&& 0x7FFFF ∧ (u.tile t).pcache = [] ∧ (u.tile t).pfills = [] ∧ (u.tile t).scrubLine = 0 ∧
          s.regsKept u [(R.tileRegion t).addr]
        else u.flag (F.tileStatusRegionErr t) = true ∧ s.regsKept u [(R.tileStatus t).addr] ∧ u.tiles = s.tiles) ∧
        (u.tile t).store = (s.tile t).store ∧ s.tilesKept u t ∧ u.arrays = s.arrays ∧ s.inTiles u)) ∧
    (∀ f, (s.tile t).pfills.find? (fun f => f.line = line) = some f →
      let p := s.hbmPay (s.ownerOf t) (4096 * line) 64 (tileKey t 31 line)
      s.gives (.pageCacheFill t line) (fun u =>
        (if f.stale then (u.tile t).pcache = (s.tile t).pcache ∧ (u.tile t).store = (s.tile t).store ∧
            (∀ g ∈ (u.tile t).pfills, g.line = line → g.stale = false) ∧ s.inTiles u
        else if s.linesGood (4096 * line) 4096 = false then u = s
        else if s.hbmServed (s.ownerOf t) (4096 * line) 64 (tileKey t 31 line) = false then u = p
        else (∀ g ∈ (u.tile t).pfills, g.line ≠ line) ∧
          (s.pcSets t ≠ 0 → ∃ l ∈ (u.tile t).pcache, l.line = line ∧ l.set = line % s.pcSets t ∧
            (u.tile t).bytes (s.pcAddr t l.set l.way) 4096 = s.hbmSeen (4096 * line) 4096) ∧ p.inTiles u) ∧
        u.regs = s.regs ∧ s.tilesKept u t)) := by
  exact ⟨fun ⟨hbad, hde⟩ => ⟨fun h => State.tileStoreWordRestored_buffers hbad hde h,
      fun b ⟨hd, h, hb⟩ => State.tileStoreWordRestored_scratch hbad hde hd h hb,
      fun l ⟨hd, h, hl⟩ => State.tileStoreWordRestored_pageCache hbad hde hd h hl⟩,
    fun ⟨hon, hbad⟩ => State.tileStoreScrub_gives hon hbad, fun hon => State.tileRegionWrite_gives w hon,
    fun f hf => State.pageCacheFill_gives hf hwf⟩

/-! ## A partition that is listed twice -/

/-- The HBM4 address of the first image of partition 0's image slot A. -/
def firstImageAt : Nat := Config.weightBase 0 1 + Config.imageOffset 0 0

/-- In locked cadence, a fill of tile 0 for the line of that address, with bursts enough in partition 0's buckets; and a partition table
that lists partition 0 twice, once with its buckets and once with an image of one byte, 1. -/
def listedTwice : State :=
  (({ State.reset with
      parts := [(0, { bucketW := 16384, bucketE := 16384 }), (0, { wgt := { resident := { images := [(0, [1])] } } })]
      tiles := [(0, { pfills := [⟨firstImageAt / 4096, 0, false⟩] })] } : State).setFlag F.cadCfgLocked true).setR (R.tileRegion 0)
    0x00010010

theorem listedTwice_parts : listedTwice.parts =
    [(0, { bucketW := 16384, bucketE := 16384 }), (0, { wgt := { resident := { images := [(0, [1])] } } })] := rfl
theorem listedTwice_locked : listedTwice.locked = true := by decide +kernel
theorem listedTwice_ownerOf : listedTwice.ownerOf (0 : TileN) = 0 := by decide +kernel
theorem listedTwice_pcSets : listedTwice.pcSets (0 : TileN) = 16 := by decide +kernel

theorem listedTwice_served : listedTwice.hbmServed (listedTwice.ownerOf (0 : TileN)) (4096 * (firstImageAt / 4096)) 64
    (tileKey (0 : TileN) 31 (firstImageAt / 4096)) = true := by
  have hbucket : listedTwice.bucketOf 0 (4096 * (firstImageAt / 4096)) = 64 := by
    unfold State.bucketOf
    split <;> rfl
  rw [listedTwice_ownerOf]
  simp [State.hbmServed, hbucket]

/-- The image of one byte lies at that address. -/
theorem byteAt_firstImageAt :
    ({ resident := { images := [(0, [1])] } } : WgtSt).byteAt 0 firstImageAt = some 1 := by
  simp [WgtSt.byteAt, ImageSlot.byteAt, ImageSlot.placeAt, firstImageAt]

/-- The byte at that address reads as the image's. -/
theorem listedTwice_hbmSeen : (listedTwice.hbmSeen (4096 * (firstImageAt / 4096)) 4096)[firstImageAt % 4096]? = some 1 := by
  have hfound : listedTwice.parts.findSome? (fun e => e.2.wgt.byteAt e.1 firstImageAt) = some 1 := by
    rw [listedTwice_parts, List.findSome?_cons, WgtSt.byteAt_empty]
    dsimp only
    rw [List.findSome?_cons, byteAt_firstImageAt]
  rw [State.getElem?_hbmSeen _ _ (Nat.mod_lt _ (by decide)), Nat.div_add_mod, hfound]
  rfl

/-- Once the fill has paid, the table lists partition 0 without the image. -/
theorem listedTwice_paid : ∀ e ∈ (listedTwice.fillPaid (0 : TileN) (firstImageAt / 4096)).parts, e.2.wgt = {} := by
  obtain ⟨x, hx, hparts⟩ := State.hbmPay_parts listedTwice_locked 0 (4096 * (firstImageAt / 4096)) 64
    (tileKey (0 : TileN) 31 (firstImageAt / 4096))
  intro e he
  rw [State.fillPaid, listedTwice_ownerOf, hparts] at he
  have hset : Sparse.set (fun _ => ({} : PartSt)) listedTwice.parts 0 x = [(0, x)].filter (fun e => e.2 ≠ {}) := by
    simp [listedTwice_parts, Sparse.set, Sparse.setRange]
  rw [hset] at he
  obtain rfl := List.mem_singleton.mp (List.mem_of_mem_filter he)
  exact hx

theorem listedTwice_paid_hbmSeen :
    ((listedTwice.fillPaid (0 : TileN) (firstImageAt / 4096)).hbmSeen (4096 * (firstImageAt / 4096)) 4096)[firstImageAt % 4096]? =
      some 0 := by
  have hnone : (listedTwice.fillPaid (0 : TileN) (firstImageAt / 4096)).parts.findSome? (fun e => e.2.wgt.byteAt e.1
      (4096 * (firstImageAt / 4096) + firstImageAt % 4096)) = none :=
    List.findSome?_eq_none_iff.mpr (fun e he => by rw [listedTwice_paid e he, WgtSt.byteAt_empty])
  have hhbm : (listedTwice.fillPaid (0 : TileN) (firstImageAt / 4096)).hbm = [] := State.hbmPay_hbm listedTwice _ _ _ _
  rw [State.getElem?_hbmSeen _ _ (Nat.mod_lt _ (by decide)), hnone, State.hbmByte, hhbm]
  rfl

end Sys2Proof.Machine

open Sys2Proof Sys2Proof.Machine

/-- Refutes O7, in its last clause alone: "the bytes of HBM4" of a fill that is served in locked cadence are those that are read once it
has paid, and the payment rewrites the drawing partition's entry of the partition table. In `listedTwice` the table lists partition 0
twice, so the rewrite drops the second entry, with the image that the fill was to read: it takes 0 where the statement says 1. No command
makes such a table, and for the tables in canonical form the statement holds (`storeRestoresRegionsAndPageCache_of_partsWf`). -/
theorem not_storeRestoresRegionsAndPageCache : ¬ Obligations.StoreRestoresRegionsAndPageCache := by
  intro h
  obtain ⟨-, -, -, hfill⟩ := h 0 0 0 (firstImageAt / 4096) listedTwice
  have hf : (listedTwice.tile (0 : TileN)).pfills.find? (fun f => f.line = firstImageAt / 4096) = some ⟨firstImageAt / 4096, 0, false⟩ := by
    simp [listedTwice, State.tile, Sparse.get]
  have hgood : listedTwice.linesGood (4096 * (firstImageAt / 4096)) 4096 = true := rfl
  have hsets : listedTwice.pcSets (0 : TileN) ≠ 0 := by rw [listedTwice_pcSets]; decide
  obtain ⟨u, -, ⟨hclaim, -⟩, -, htakes, -⟩ := (hfill _ hf).and (State.pageCacheFill_served hf rfl hgood listedTwice_served)
  obtain ⟨hcache, hbytes⟩ := htakes hsets
  simp only [Bool.false_eq_true, if_false, hgood, listedTwice_served, reduceCtorEq] at hclaim
  obtain ⟨-, hline, -⟩ := hclaim
  obtain ⟨l, hl, -, -, hsame⟩ := hline hsets
  have hnew : l = (listedTwice.tile (0 : TileN)).newLine (firstImageAt / 4096) (firstImageAt / 4096 % listedTwice.pcSets (0 : TileN)) := by
    rw [hcache] at hl
    exact List.mem_singleton.mp hl
  rw [State.length_hbmSeen] at hbytes
  rw [hnew, hbytes] at hsame
  have hbyte := congrArg (·[firstImageAt % 4096]?) hsame
  rw [listedTwice_hbmSeen, listedTwice_paid_hbmSeen] at hbyte
  exact absurd hbyte (by decide)

end

section
/-! PROOFS. The housekeeping island: where its registers stand, and what the operations that its units share leave alone. -/

namespace Sys2Proof.Machine

/-! ## Where the island's registers stand (Table 0.3) -/

@[simp] theorem addr_pwrDom (k : Nat) : (R.pwrDom k).addr = 0x40000000 + 4 * k := by
  simp only [Reg.addr, RegKind.geom, Block.base]; omega
@[simp] theorem addr_pwrStatus : R.pwrStatus.addr = 0x40000200 := by simp [Reg.addr, RegKind.geom, Block.base]
@[simp] theorem addr_pwrMode : R.pwrMode.addr = 0x40000208 := by simp [Reg.addr, RegKind.geom, Block.base]
@[simp] theorem addr_pwrSlot : R.pwrSlot.addr = 0x40000210 := by simp [Reg.addr, RegKind.geom, Block.base]
@[simp] theorem addr_thmCfg : R.thmCfg.addr = 0x40001000 := by simp [Reg.addr, RegKind.geom, Block.base]
@[simp] theorem addr_thmStatus : R.thmStatus.addr = 0x40001004 := by simp [Reg.addr, RegKind.geom, Block.base]
@[simp] theorem addr_thmSens (k : Nat) : (R.thmSens k).addr = 0x40001100 + 4 * k := by
  simp only [Reg.addr, RegKind.geom, Block.base]; omega
@[simp] theorem addr_supCfg : R.supCfg.addr = 0x40002000 := by simp [Reg.addr, RegKind.geom, Block.base]
@[simp] theorem addr_hkStatus : R.hkStatus.addr = 0x40003010 := by simp [Reg.addr, RegKind.geom, Block.base]
@[simp] theorem addr_hkCmpEvt : R.hkCmpEvt.addr = 0x40003018 := by simp [Reg.addr, RegKind.geom, Block.base]
@[simp] theorem addr_hkValue (k : Nat) : (R.hkValue k).addr = 0x40003100 + 4 * k := by
  simp only [Reg.addr, RegKind.geom, Block.base]; omega
@[simp] theorem addr_hkCmpBnd (k : Nat) : (R.hkCmpBnd k).addr = 0x40003200 + 8 * k := by
  simp only [Reg.addr, RegKind.geom, Block.base]; omega
@[simp] theorem addr_hkCmpCfg (k : Nat) : (R.hkCmpCfg k).addr = 0x40003204 + 8 * k := by
  simp only [Reg.addr, RegKind.geom, Block.base]; omega
@[simp] theorem addr_cadStretch : R.cadStretch.addr = 0x1004 := by simp [Reg.addr, RegKind.geom, Block.base]
@[simp] theorem addr_glbBridge : R.glbBridge.addr = 0x3000 := by simp [Reg.addr, RegKind.geom, Block.base]

/-! ## Fields -/

/-- A field holds a number that it is wide enough for. -/
theorem State.getF_setF_fits (s : State) (f : FieldRef) (v : Nat) (h : f.hi < 32) (hl : f.lo ≤ f.hi) (hv : v < 2 ^ (f.hi + 1 - f.lo)) :
    (s.setF f v).getF f = v := by
  rw [State.getF_setF_same s f v h hl, Nat.mod_eq_of_lt hv]

theorem State.getF_lt (s : State) (f : FieldRef) : s.getF f < 2 ^ (f.hi + 1 - f.lo) := bitsOf_lt _ _ _

theorem State.getF_satF_same (s : State) (f : FieldRef) (n : Nat) (h : f.hi < 32) (hl : f.lo ≤ f.hi) :
    (s.satF f n).getF f = min (s.getF f + n) (2 ^ (f.hi + 1 - f.lo) - 1) := by
  have := Nat.two_pow_pos (f.hi + 1 - f.lo)
  exact s.getF_setF_fits f _ h hl (by omega)

section
variable (s : State) (r : Reg) {hi lo h l : Nat}

/-! Two fields of one register, written out, so that `simp` can see that they do not overlap. -/

@[simp] theorem State.getF_setF_field (v : Nat) (hhi : hi < 32) (hlo : lo ≤ hi) (hap : h < lo ∨ hi < l) :
    (s.setF ⟨r, hi, lo⟩ v).getF ⟨r, h, l⟩ = s.getF ⟨r, h, l⟩ := s.getF_setF_apart _ _ v rfl hhi hlo hap

@[simp] theorem State.flag_setF_field (v : Nat) (hhi : hi < 32) (hlo : lo ≤ hi) (hap : h < lo ∨ hi < l) :
    (s.setF ⟨r, hi, lo⟩ v).flag ⟨r, h, l⟩ = s.flag ⟨r, h, l⟩ := by
  unfold State.flag; rw [State.getF_setF_field s r v hhi hlo hap]

@[simp] theorem State.getF_setFlag_field (b : Bool) (hhi : hi < 32) (hlo : lo ≤ hi) (hap : h < lo ∨ hi < l) :
    (s.setFlag ⟨r, hi, lo⟩ b).getF ⟨r, h, l⟩ = s.getF ⟨r, h, l⟩ := State.getF_setF_field s r _ hhi hlo hap

@[simp] theorem State.getF_setF_own (v : Nat) (hhi : hi < 32) (hlo : lo ≤ hi) :
    (s.setF ⟨r, hi, lo⟩ v).getF ⟨r, hi, lo⟩ = v % 2 ^ (hi + 1 - lo) := s.getF_setF_same _ v hhi hlo

@[simp] theorem State.flag_setFlag_own (b : Bool) (hhi : hi < 32) : (s.setFlag ⟨r, hi, hi⟩ b).flag ⟨r, hi, hi⟩ = b :=
  s.flag_setFlag_same _ b hhi rfl

end

/-! ## What writes of registers leave alone -/

/-- From s to u no register of the island's sensors, comparators and converter, those from 0x4000_1000 (Table 14.5), changes but those at
the addresses of l, and the canonical form of the registers is kept. -/
def State.islandKept (s u : State) (l : List Nat) : Prop :=
  (∀ a, 0x40001000 ≤ a → a < 0x50000000 → a ∉ l → Sparse.get regDefault u.regs a = Sparse.get regDefault s.regs a) ∧
  (s.regsWf → u.regsWf)

theorem State.islandKept.trans {s u v : State} {l : List Nat} (h : s.islandKept u l) (k : u.islandKept v l) : s.islandKept v l := by
  obtain ⟨hr, hw⟩ := h
  obtain ⟨kr, kw⟩ := k
  exact ⟨fun a hlo hhi ha => (kr a hlo hhi ha).trans (hr a hlo hhi ha), kw ∘ hw⟩

theorem State.islandKept.mono {s u : State} {l m : List Nat} (h : s.islandKept u l) (hl : l ⊆ m) : s.islandKept u m :=
  ⟨fun a hlo hhi ha => h.1 a hlo hhi (fun hm => ha (hl hm)), h.2⟩

theorem State.islandKept_of_regs {s u : State} (l : List Nat) (h : u.regs = s.regs) : s.islandKept u l :=
  ⟨fun a _ _ _ => by rw [h], fun hw => by unfold State.regsWf; rw [h]; exact hw⟩

/-- A write of one register that is listed, or that is none of the island's. -/
theorem State.setR_islandKept (s : State) (r : Reg) (w : Word) (l : List Nat)
    (h : r.addr ∈ l ∨ r.addr < 0x40001000) : s.islandKept (s.setR r w) l := by
  refine ⟨fun a hlo _ ha => Sparse.get_set_other _ _ _ _ _ ?_, Sparse.wf_set _ _ _ _⟩
  rintro rfl
  rcases h with h | h
  · exact ha h
  · omega

theorem State.setF_islandKept (s : State) (f : FieldRef) (v : Nat) (l : List Nat)
    (h : f.reg.addr ∈ l ∨ f.reg.addr < 0x40001000) : s.islandKept (s.setF f v) l := s.setR_islandKept _ _ l h

theorem State.islandKept.getR {s u : State} {l : List Nat} (h : s.islandKept u l) (g : Reg) (hlo : 0x40001000 ≤ g.addr)
    (hhi : g.addr < 0x50000000) (hg : g.addr ∉ l) : u.getR g = s.getR g := h.1 g.addr hlo hhi hg

theorem State.islandKept.getF {s u : State} {l : List Nat} (h : s.islandKept u l) (g : FieldRef) (hlo : 0x40001000 ≤ g.reg.addr)
    (hhi : g.reg.addr < 0x50000000) (hg : g.reg.addr ∉ l) : u.getF g = s.getF g := State.getF_congr (h.getR g.reg hlo hhi hg)

theorem State.islandKept.flag {s u : State} {l : List Nat} (h : s.islandKept u l) (g : FieldRef) (hlo : 0x40001000 ≤ g.reg.addr)
    (hhi : g.reg.addr < 0x50000000) (hg : g.reg.addr ∉ l) : u.flag g = s.flag g := State.flag_congr (h.getR g.reg hlo hhi hg)

/-! ## The log -/

/-- A report leaves every register but the count of lost entries (R377). -/
theorem State.logEv_regsKept (s : State) (a b c d : Nat) : s.regsKept (s.logEv a b c d) [R.logLost.addr] :=
  (State.regsKept_of_regs (s.countCode_regs b)).trans ((s.countCode b).ingest_regsKept _)

theorem State.ingest_regsWf (s : State) (e : Entry) (h : s.regsWf) : (s.ingest e).regsWf := by
  unfold State.ingest
  split
  · exact h
  · split
    · exact Sparse.wf_set _ _ _ _ h
    · split
      · exact h
      · split
        · exact h
        · exact Sparse.wf_set _ _ _ _ h

theorem State.logEv_islandKept (s : State) (a b c d : Nat) (l : List Nat) : s.islandKept (s.logEv a b c d) l := by
  refine ⟨fun x hlo _ _ => s.logEv_regsKept a b c d x ?_, fun h => State.ingest_regsWf _ _ ?_⟩
  · rw [addr_logLost, List.mem_singleton]; omega
  · unfold State.regsWf; rw [State.countCode_regs]; exact h

/-- While the ingest queue has room, a report stands at its end. -/
theorem State.logEv_logs (s : State) (source code part d : Nat) : s.logs (s.logEv source code part d) source code part d := by
  intro hroom
  have hlen : (s.countCode code).log.ingest = s.log.ingest := by unfold State.countCode; split <;> rfl
  unfold State.logEv State.report
  rw [State.ingest_room _ _ (by rw [hlen]; exact hroom)]
  exact ⟨_, congrArg (· ++ _) hlen, rfl, rfl, rfl, rfl, rfl⟩

/-! ## The request for a stretch (R245, R393) -/

theorem State.masterTake_only (s : State) (slot pct : Nat) :
    s.masterTake slot pct = { s with cad := (s.masterTake slot pct).cad, regs := (s.masterTake slot pct).regs } := by
  unfold State.masterTake
  dsimp only
  split <;> rfl

theorem State.keepReq_only (s : State) (slot pct : Nat) :
    s.keepReq slot pct = { s with cad := (s.keepReq slot pct).cad, regs := (s.keepReq slot pct).regs } := by
  unfold State.keepReq
  split
  · exact s.masterTake_only slot pct
  · rfl

theorem State.keepReq_regsKept (s : State) (slot pct : Nat) : s.regsKept (s.keepReq slot pct) [R.cadStretch.addr] := by
  unfold State.keepReq State.masterTake
  dsimp only
  split
  · split
    · exact State.regsKept_of_regs rfl
    · exact (State.regsKept_of_regs rfl).trans (State.setFlag_regsKept _ F.cadStretchPending true)
  · exact State.regsKept_of_regs rfl

theorem State.keepReq_regsWf (s : State) (slot pct : Nat) (h : s.regsWf) : (s.keepReq slot pct).regsWf := by
  unfold State.keepReq State.masterTake
  dsimp only
  split
  · split
    · exact h
    · exact Sparse.wf_set _ _ _ _ h
  · exact h

/-- The state in which the masters have been sent a REQ. -/
def State.reqSent (s : State) (pct : Nat) : State :=
  s.each (s.masters.filter (· ≠ s.slot)) (fun s d =>
    s.sendMsg { cls := 4, dest := d, stream := 1, payload := leBytes 1 pct ++ leBytes 7 0 ++ leBytes 8 s.cad.beat.toNat })

theorem State.reqSent_only (s : State) (pct : Nat) : s.reqSent pct = { s with linkOut := (s.reqSent pct).linkOut } :=
  State.each_inv (fun u => u = { s with linkOut := u.linkOut }) _ (fun u x hu => by rw [State.sendMsg_only, hu]) _ s rfl

theorem State.reqTo_eq (s : State) (pct : Nat) : ∃ b : Bool, s.reqTo pct = (s.reqSent pct).when b (fun u => u.keepReq u.slot pct) := ⟨_, rfl⟩

theorem State.reqTo_only (s : State) (pct : Nat) :
    s.reqTo pct = { s with regs := (s.reqTo pct).regs, cad := (s.reqTo pct).cad, linkOut := (s.reqTo pct).linkOut } := by
  obtain ⟨b, hb⟩ := s.reqTo_eq pct
  rw [hb, s.reqSent_only]
  cases b
  · rfl
  · rw [State.when_true, State.keepReq_only]

theorem State.reqTo_regsKept (s : State) (pct : Nat) : s.regsKept (s.reqTo pct) [R.cadStretch.addr] := by
  obtain ⟨b, hb⟩ := s.reqTo_eq pct
  rw [hb, s.reqSent_only]
  cases b
  · exact State.regsKept_of_regs rfl
  · exact State.regsKept.trans (State.regsKept_of_regs rfl) (State.keepReq_regsKept _ _ _)

theorem State.reqTo_regsWf (s : State) (pct : Nat) (h : s.regsWf) : (s.reqTo pct).regsWf := by
  obtain ⟨b, hb⟩ := s.reqTo_eq pct
  rw [hb, s.reqSent_only]
  cases b
  · exact h
  · exact State.keepReq_regsWf _ _ _ h

theorem State.refreshReq_only (s : State) :
    s.refreshReq = { s with regs := s.refreshReq.regs, cad := s.refreshReq.cad, linkOut := s.refreshReq.linkOut } := by
  unfold State.refreshReq
  dsimp only
  split
  · rfl
  · split
    · unfold State.sendReq; rw [State.reqTo_only]; rfl
    · rfl

theorem State.refreshReq_regsKept (s : State) : s.regsKept s.refreshReq [R.cadStretch.addr] := by
  unfold State.refreshReq
  dsimp only
  split
  · exact State.regsKept_of_regs rfl
  · refine (s.setF_regsKept F.cadStretchLocalReq s.localReq).trans ?_
    split
    · exact State.reqTo_regsKept _ _
    · exact State.setF_regsKept _ _ _

theorem State.refreshReq_regsWf (s : State) (h : s.regsWf) : s.refreshReq.regsWf := by
  unfold State.refreshReq
  dsimp only
  split
  · exact h
  · have hset : (s.setF F.cadStretchLocalReq s.localReq).regsWf := Sparse.wf_set _ _ _ _ h
    split
    · exact State.reqTo_regsWf _ _ hset
    · exact Sparse.wf_set _ _ _ _ hset

theorem State.refreshReq_islandKept (s : State) (l : List Nat) : s.islandKept s.refreshReq l :=
  ⟨fun x hlo _ _ => s.refreshReq_regsKept x (by rw [addr_cadStretch, List.mem_singleton]; omega), s.refreshReq_regsWf⟩

end Sys2Proof.Machine
end

section
/-! PROOFS. The module's failure and its power domains: what they leave alone, and that every domain goes off. -/

namespace Sys2Proof.Machine

/-! ## What stands beyond registers, log, messages, power and the switched domains -/

theorem State.dataKept.trans {s u v : State} (h : s.dataKept u) (k : u.dataKept v) : s.dataKept v := by
  obtain ⟨hh, ha, ht, hr, hp⟩ := h
  obtain ⟨kh, ka, kt, kr, kp⟩ := k
  exact ⟨kh.trans hh, ka.trans ha, kt.trans ht, kr.trans hr, kp.trans hp⟩

/-- HBM4, the partitions, the firn, and what the thermal controller and the converter keep beyond their registers. -/
def State.beyond (s : State) : Sparse Byte × Sparse PartSt × FirnSt × ThmSt × HkSt := (s.hbm, s.parts, s.firn, s.thm, s.hk)

theorem State.beyond_iff {s u : State} :
    u.beyond = s.beyond ↔ u.hbm = s.hbm ∧ u.parts = s.parts ∧ u.firn = s.firn ∧ u.thm = s.thm ∧ u.hk = s.hk := by
  simp [State.beyond]

theorem State.logEv_dataKept (s : State) (a b c d : Nat) : s.dataKept (s.logEv a b c d) := by
  rw [State.logEv_only]; exact ⟨rfl, rfl, rfl, rfl, rfl⟩
theorem State.logEv_beyond (s : State) (a b c d : Nat) : (s.logEv a b c d).beyond = s.beyond := by rw [State.logEv_only]; rfl
@[simp] theorem State.logEv_pwr (s : State) (a b c d : Nat) : (s.logEv a b c d).pwr = s.pwr := by rw [State.logEv_only]

theorem State.refreshReq_dataKept (s : State) : s.dataKept s.refreshReq := by
  rw [State.refreshReq_only]; exact ⟨rfl, rfl, rfl, rfl, rfl⟩
theorem State.refreshReq_beyond (s : State) : s.refreshReq.beyond = s.beyond := by rw [State.refreshReq_only]; rfl
@[simp] theorem State.refreshReq_pwr (s : State) : s.refreshReq.pwr = s.pwr := by rw [State.refreshReq_only]

/-! ## A module that fails (R370) -/

theorem State.sendFailed_only (s : State) (cause : Nat) : s.sendFailed cause = { s with linkOut := (s.sendFailed cause).linkOut } := by
  unfold State.sendFailed
  split
  · exact State.each_inv (fun u => u = { s with linkOut := u.linkOut }) _ (fun u d hu => by rw [State.sendMgmt, State.sendMsg_only, hu]) _ s rfl
  · rfl

theorem State.indicate_islandKept (s : State) (ready attn : Nat) (closed : Bool) (l : List Nat) :
    s.islandKept (s.indicate ready attn closed) l :=
  have h : ∀ (u : State) (f : FieldRef) (v : Nat), f.reg = R.pwrSlot → u.islandKept (u.setF f v) l :=
    fun u f v hf => u.setF_islandKept f v l (.inr (by rw [hf, addr_pwrSlot]; decide))
  ((h s _ _ rfl).trans (h _ _ _ rfl)).trans (h _ _ _ rfl)

/-- A module that has said that it fails and has logged it, before it shows it. -/
def State.failLogged (s : State) (cause : Nat) : State :=
  ({ s with pwr := { s.pwr with failedModule := true } }.sendFailed cause).logEv srcCtl 0x1202 0xFF
    (detail 0x1202 [s.slot, (Config.failCause cause).toNat])

theorem State.failModule_eq (s : State) (cause : Nat) : s.failModule cause = (s.failLogged cause).indicate 0 1 false := rfl

theorem State.failModule_dataKept (s : State) (cause : Nat) : s.dataKept (s.failModule cause) := by
  have h : s.dataKept (s.failLogged cause) := by
    refine State.dataKept.trans ?_ (State.logEv_dataKept _ _ _ _ _)
    rw [State.sendFailed_only]
    exact ⟨rfl, rfl, rfl, rfl, rfl⟩
  rw [State.failModule_eq]
  exact h.trans ⟨rfl, rfl, rfl, rfl, rfl⟩

theorem State.failModule_beyond (s : State) (cause : Nat) : (s.failModule cause).beyond = s.beyond := by
  have h : (s.failLogged cause).beyond = s.beyond := by
    refine (State.logEv_beyond _ _ _ _ _).trans ?_
    rw [State.sendFailed_only]
    rfl
  exact h

@[simp] theorem State.failModule_pwr (s : State) (cause : Nat) : (s.failModule cause).pwr = { s.pwr with failedModule := true } := by
  have h : (s.failLogged cause).pwr = { s.pwr with failedModule := true } := by
    refine (State.logEv_pwr _ _ _ _ _).trans ?_
    rw [State.sendFailed_only]
  exact h

theorem State.failModule_islandKept (s : State) (cause : Nat) (l : List Nat) : s.islandKept (s.failModule cause) l := by
  rw [State.failModule_eq]
  refine State.islandKept.trans ?_ (State.indicate_islandKept _ 0 1 false l)
  refine State.islandKept.trans ?_ (State.logEv_islandKept _ _ _ _ _ l)
  exact State.islandKept_of_regs l (by rw [State.sendFailed_only])

/-! ## Registers that return to reset (R12) -/

/-- Every entry that a table has for the key is the same. -/
def Sparse.Single {α : Type} (m : Sparse α) (k : Nat) : Prop := ∀ v w, (k, v) ∈ m → (k, w) ∈ m → v = w

theorem Sparse.single_of_wf {α : Type} [DecidableEq α] {d : Nat → α} {m : Sparse α} (h : Sparse.wf d m = true) (k : Nat) :
    Sparse.Single m k := by
  obtain ⟨hp, -⟩ := (Sparse.wf_iff d m).mp h
  have hkeys : (m.map Prod.fst).Nodup := List.pairwise_map.mpr (hp.imp Nat.ne_of_lt)
  exact fun v w hv hw => congrArg Prod.snd (List.inj_on_of_nodup_map hkeys hv hw rfl)

/-- A key that has been written has one entry at most. -/
theorem Sparse.single_set {α : Type} [DecidableEq α] (d : Nat → α) (m : Sparse α) (k : Nat) (v : α) :
    Sparse.Single (Sparse.set d m k v) k := by
  have hall : ∀ x, (k, x) ∈ Sparse.set d m k v → x = v := by
    intro x hx
    simp only [Sparse.set, Sparse.setRange, List.mem_append, List.mem_filter, List.mem_map, List.mem_range, Prod.mk.injEq,
      decide_eq_true_eq] at hx
    rcases hx with ⟨-, hlt⟩ | ⟨⟨-, -, -, hv⟩, -⟩ | ⟨-, hge⟩
    · omega
    · exact hv.symm
    · omega
  exact fun x y hx hy => (hall x hx).trans (hall y hy).symm

/-- A change of every entry that leaves a key's one value alone leaves what the key reads as alone. -/
theorem Sparse.get_mapAll_keep {α : Type} [DecidableEq α] (d : Nat → α) (m : Sparse α) (g : Nat → α → α) (k : Nat)
    (h : Sparse.Single m k) (hg : ∀ v, g k v = v) : Sparse.get d (Sparse.mapAll d m g) k = Sparse.get d m k := by
  have hlookup : List.lookup k (m.map (fun e => (e.1, g e.1 e.2))) = List.lookup k m := by
    clear h
    induction m with
    | nil => rfl
    | cons e es ih =>
      obtain ⟨x, v⟩ := e
      by_cases hk : k = x
      · subst hk; simp [hg]
      · have hk' : (k == x) = false := by simpa using hk
        simp [List.lookup_cons, hk', ih]
  have hmem : ∀ v, (k, v) ∈ m.map (fun e => (e.1, g e.1 e.2)) → (k, v) ∈ m := by
    intro v hv
    obtain ⟨⟨x, w⟩, he, heq⟩ := List.mem_map.mp hv
    obtain ⟨rfl, rfl⟩ := Prod.mk.inj heq
    rwa [hg]
  have hone : ∃ w, ∀ v, (k, v) ∈ m.map (fun e => (e.1, g e.1 e.2)) → v = w := by
    by_cases hex : ∃ w, (k, w) ∈ m
    · obtain ⟨w, hw⟩ := hex
      exact ⟨w, fun v hv => h v w (hmem v hv) hw⟩
    · exact ⟨d k, fun v hv => absurd ⟨v, hmem v hv⟩ hex⟩
  obtain ⟨w, hw⟩ := hone
  exact (Sparse.getD_filter_ne d _ k w hw).trans (congrArg (Option.getD · (d k)) hlookup)

theorem RegKind.block_of_mem_kinds {b : Block} {κ : RegKind} (h : κ ∈ b.kinds) : κ.geom.block = b := by
  cases b <;> revert h <;> revert κ <;> decide

theorem RegKind.atOffset_kind {κ : RegKind} {i o : Nat} {r : Reg} (h : κ.atOffset i o = some r) : r.kind = κ := by
  simp only [RegKind.atOffset] at h
  split_ifs at h <;> simp only [Option.some.injEq] at h <;> rw [← h]

/-- A register that has an address lies in the block that holds the address. -/
theorem Reg.ofAddr_block {a : Nat} {r : Reg} (h : Reg.ofAddr a = some r) :
    ∃ b : Block, b.base 0 ≤ a ∧ a < b.base 0 + b.shape.1 * b.shape.2 ∧ r.kind.geom.block = b := by
  obtain ⟨b, -, hat⟩ := List.exists_of_findSome?_eq_some h
  unfold Block.regAt at hat
  dsimp only at hat
  split at hat
  · cases hat
  · obtain ⟨κ, hκ, hoff⟩ := List.exists_of_findSome?_eq_some hat
    exact ⟨b, by omega, by omega, by rw [RegKind.atOffset_kind hoff]; exact RegKind.block_of_mem_kinds hκ⟩

theorem Reg.ofAddr_island {a : Nat} {r : Reg} (h : Reg.ofAddr a = some r) (hlo : 0x40000000 ≤ a) (hhi : a < 0x50000000) :
    r.kind.geom.block = .hk := by
  obtain ⟨b, hb0, hb1, hb⟩ := Reg.ofAddr_block h
  rw [hb]
  cases b
  case hk => rfl
  all_goals simp only [Block.base, Block.shape] at hb0 hb1; omega

/-- A reset of registers of other blocks leaves the island's registers alone. -/
theorem State.clearBy_island (s : State) (l : Letter) (scope : Reg → Bool) (hs : ∀ r : Reg, r.kind.geom.block = .hk → scope r = false)
    {a : Nat} (hlo : 0x40000000 ≤ a) (hhi : a < 0x50000000) (h : Sparse.Single s.regs a) :
    Sparse.get regDefault (s.clearBy l scope).regs a = Sparse.get regDefault s.regs a := by
  unfold State.clearBy
  dsimp only
  refine Sparse.get_mapAll_keep _ _ _ _ h (fun v => ?_)
  rcases hr : Reg.ofAddr a with _ | r
  · rfl
  · simp [hs r (Reg.ofAddr_island hr hlo hhi)]

theorem State.clearBy_regsWf (s : State) (l : Letter) (scope : Reg → Bool) (h : s.regsWf) : (s.clearBy l scope).regsWf := by
  unfold State.clearBy State.regsWf
  dsimp only
  exact Sparse.wf_mapAll _ _ _ h

/-! ## What a domain loses when it goes off (R386) -/

theorem State.domainLost_beyond (s : State) (k : Nat) : (s.domainLost k).beyond = s.beyond := by
  unfold State.domainLost
  split
  · rfl
  · split
    · rfl
    · split
      · rfl
      · split <;> rfl

@[simp] theorem State.domainLost_pwr (s : State) (k : Nat) : (s.domainLost k).pwr = s.pwr := by
  unfold State.domainLost
  split
  · rfl
  · split
    · rfl
    · split
      · rfl
      · split <;> rfl

/-- The island's registers lose nothing. -/
theorem State.domainLost_island (s : State) (k : Nat) {a : Nat} (hlo : 0x40000000 ≤ a) (hhi : a < 0x50000000)
    (h : Sparse.Single s.regs a) : Sparse.get regDefault (s.domainLost k).regs a = Sparse.get regDefault s.regs a := by
  unfold State.domainLost
  split
  · exact State.clearBy_island _ _ _ (fun r hr => by simp [hr]) hlo hhi h
  · split
    · exact State.clearBy_island _ _ _ (fun r hr => by simp [hr]) hlo hhi h
    · split
      · exact State.clearBy_island _ _ _ (fun r hr => by simp [hr]) hlo hhi h
      · split
        · exact State.setFlag_regsKept s F.glbBridgeEnabled false a (by rw [addr_glbBridge, List.mem_singleton]; omega)
        · rfl

theorem State.domainLost_regsWf (s : State) (k : Nat) (h : s.regsWf) : (s.domainLost k).regsWf := by
  unfold State.domainLost
  split
  · exact State.clearBy_regsWf _ _ _ h
  · split
    · exact State.clearBy_regsWf _ _ _ h
    · split
      · exact State.clearBy_regsWf _ _ _ h
      · split
        · exact Sparse.wf_set _ _ _ _ h
        · exact h

/-- The registers of a domain that is being switched: its mode is written and its switches are counted. -/
def State.switched (s : State) (k m : Nat) : State := (s.setF (F.pwrDomState k) m).addF (F.pwrDomSwitches k) 1

theorem State.domainSet_eq (s : State) (k m : Nat) : s.domainSet k m = if m = 0 then (s.switched k m).domainLost k else s.switched k m := rfl

theorem State.switched_regsKept (s : State) (k m : Nat) : s.regsKept (s.switched k m) [(R.pwrDom k).addr] :=
  (s.setF_regsKept (F.pwrDomState k) m).trans (State.setF_regsKept _ (F.pwrDomSwitches k) _)

theorem State.switched_regsWf (s : State) (k m : Nat) (h : s.regsWf) : (s.switched k m).regsWf :=
  Sparse.wf_set _ _ _ _ (Sparse.wf_set _ _ _ _ h)

theorem State.switched_state (s : State) (k : Nat) {m : Nat} (hm : m < 4) : (s.switched k m).getF (F.pwrDomState k) = m := by
  simp [State.switched, State.addF, Nat.mod_eq_of_lt hm]

theorem State.switched_switches (s : State) (k m : Nat) :
    (s.switched k m).getF (F.pwrDomSwitches k) = (s.getF (F.pwrDomSwitches k) + 1) % 2 ^ 16 := by
  simp [State.switched, State.addF]

theorem State.domainSet_beyond (s : State) (k m : Nat) : (s.domainSet k m).beyond = s.beyond := by
  rw [State.domainSet_eq]
  split
  · exact State.domainLost_beyond _ k
  · rfl

@[simp] theorem State.domainSet_pwr (s : State) (k m : Nat) : (s.domainSet k m).pwr = s.pwr := by
  rw [State.domainSet_eq]
  split
  · exact State.domainLost_pwr _ k
  · rfl

/-- The island's registers but the domain's own are left alone where the table has one entry for them. -/
theorem State.domainSet_island (s : State) (k m : Nat) {a : Nat} (hlo : 0x40000000 ≤ a) (hhi : a < 0x50000000)
    (h : Sparse.Single (s.switched k m).regs a) :
    Sparse.get regDefault (s.domainSet k m).regs a = Sparse.get regDefault (s.switched k m).regs a := by
  rw [State.domainSet_eq]
  split
  · exact State.domainLost_island _ k hlo hhi h
  · rfl

theorem addr_pwrDom_range {k : Nat} (h : k < 72) : 0x40000000 ≤ (R.pwrDom k).addr ∧ (R.pwrDom k).addr < 0x50000000 := by
  rw [addr_pwrDom]; omega

/-- The register of the domain that is set. -/
theorem State.getR_domainSet_same (s : State) {k : Nat} (m : Nat) (hk : k < 72) :
    (s.domainSet k m).getR (R.pwrDom k) = (s.switched k m).getR (R.pwrDom k) :=
  s.domainSet_island k m (addr_pwrDom_range hk).1 (addr_pwrDom_range hk).2 (Sparse.single_set _ _ _ _)

/-! ## Every domain goes off (R395, R425) -/

theorem State.domainForce_eq (s : State) (k m : Nat) :
    s.domainForce k m = if (s.setF (F.pwrDomReq k) m).getF (F.pwrDomState k) = m then s.setF (F.pwrDomReq k) m
      else (s.setF (F.pwrDomReq k) m).domainSet k m := rfl

theorem State.domainForce_beyond (s : State) (k m : Nat) : (s.domainForce k m).beyond = s.beyond := by
  rw [State.domainForce_eq]
  split
  · rfl
  · exact State.domainSet_beyond _ k m

@[simp] theorem State.domainForce_pwr (s : State) (k m : Nat) : (s.domainForce k m).pwr = s.pwr := by
  rw [State.domainForce_eq]
  split
  · rfl
  · exact State.domainSet_pwr _ k m

theorem State.domainForce_regsWf (s : State) (k m : Nat) (h : s.regsWf) : (s.domainForce k m).regsWf := by
  have hset : (s.setF (F.pwrDomReq k) m).regsWf := Sparse.wf_set _ _ _ _ h
  rw [State.domainForce_eq, State.domainSet_eq]
  split
  · exact hset
  · split
    · exact State.domainLost_regsWf _ k (State.switched_regsWf _ k m hset)
    · exact State.switched_regsWf _ k m hset

/-- Of the island's registers, the switch of a domain writes the domain's own alone. -/
theorem State.domainForce_island (s : State) (k m : Nat) (h : s.regsWf) {a : Nat} (hlo : 0x40000000 ≤ a) (hhi : a < 0x50000000)
    (ha : a ∉ [(R.pwrDom k).addr]) : Sparse.get regDefault (s.domainForce k m).regs a = Sparse.get regDefault s.regs a := by
  have hset : (s.setF (F.pwrDomReq k) m).regsWf := Sparse.wf_set _ _ _ _ h
  have hkept := s.setF_regsKept (F.pwrDomReq k) m
  rw [State.domainForce_eq]
  split
  · exact hkept a ha
  · rw [State.domainSet_island _ k m hlo hhi (Sparse.single_of_wf (State.switched_regsWf _ k m hset) a)]
    exact (hkept.trans (State.switched_regsKept _ k m)) a ha

theorem State.domainForce_state (s : State) {k : Nat} (m : Nat) (hk : k < 72) (hm : m < 4) :
    (s.domainForce k m).getF (F.pwrDomState k) = m := by
  rw [State.domainForce_eq]
  split
  · assumption
  · exact (State.getF_congr (g := F.pwrDomState k) (State.getR_domainSet_same _ m hk)).trans (State.switched_state _ k hm)

/-- Domains that are forced off one after the other are off, as are those that were. -/
theorem State.each_domainForce_off (l : List Nat) (s : State) (h : s.regsWf)
    (hoff : ∀ d < 72, d ∉ l → s.getF (F.pwrDomState d) = 0) :
    ∀ d < 72, (s.each l (fun s k => s.domainForce k 0)).getF (F.pwrDomState d) = 0 := by
  induction l generalizing s with
  | nil => exact fun d hd => hoff d hd (List.not_mem_nil)
  | cons k l ih =>
    refine ih (s.domainForce k 0) (s.domainForce_regsWf k 0 h) (fun d hd hdl => ?_)
    by_cases hdk : d = k
    · subst hdk
      exact s.domainForce_state 0 hd (by decide)
    · obtain ⟨hlo, hhi⟩ := addr_pwrDom_range hd
      have hkept := s.domainForce_island k 0 h hlo hhi (by simp [hdk])
      rw [State.getF_congr (g := F.pwrDomState d) hkept]
      exact hoff d hd (by simp [hdk, hdl])

/-- The state from which the domains are forced off: none ramps or waits. -/
def State.rampsEnded (s : State) : State := ({ s with pwr := { s.pwr with domRamp := [], domWait := [] } } : State).setF F.pwrStatusRamping 0

theorem State.allDomainsOff_eq (s : State) : s.allDomainsOff =
    s.rampsEnded.each ((List.range 72).filter (fun k => s.rampsEnded.getF (F.pwrDomState k) ≠ 0)) (fun s k => s.domainForce k 0) := rfl

theorem State.allDomainsOff_beyond (s : State) : s.allDomainsOff.beyond = s.beyond :=
  State.each_keeps State.beyond _ (fun u k => u.domainForce_beyond k 0) _ s.rampsEnded

@[simp] theorem State.allDomainsOff_pwr (s : State) : s.allDomainsOff.pwr = { s.pwr with domRamp := [], domWait := [] } :=
  State.each_keeps State.pwr _ (fun u k => u.domainForce_pwr k 0) _ s.rampsEnded

theorem State.allDomainsOff_state (s : State) (h : s.regsWf) : ∀ d < 72, s.allDomainsOff.getF (F.pwrDomState d) = 0 := by
  rw [State.allDomainsOff_eq]
  refine State.each_domainForce_off _ _ (Sparse.wf_set _ _ _ _ h) (fun d hd hdl => ?_)
  simpa [hd] using hdl

theorem State.allDomainsOff_islandKept (s : State) (l : List Nat) (h : s.regsWf) : s.islandKept s.allDomainsOff l := by
  have hstart : s.islandKept s.rampsEnded l :=
    State.setF_islandKept { s with pwr := { s.pwr with domRamp := [], domWait := [] } } F.pwrStatusRamping 0 l
      (.inr (by rw [addr_pwrStatus]; decide))
  rw [State.allDomainsOff_eq]
  generalize hks : (List.range 72).filter (fun k => s.rampsEnded.getF (F.pwrDomState k) ≠ 0) = ks
  have hlt : ∀ k ∈ ks, k < 72 := fun k hk => List.mem_range.mp (List.mem_of_mem_filter (hks ▸ hk))
  clear hks
  generalize s.rampsEnded = u at hstart
  induction ks generalizing u with
  | nil => exact hstart
  | cons k ks ih =>
    refine ih (fun j hj => hlt j (List.mem_cons_of_mem _ hj)) (u.domainForce k 0)
      (hstart.trans ⟨fun a hlo hhi _ => ?_, u.domainForce_regsWf k 0⟩)
    have hk := hlt k List.mem_cons_self
    exact u.domainForce_island k 0 (hstart.2 h) (by omega) hhi (by rw [addr_pwrDom, List.mem_singleton]; omega)

end Sys2Proof.Machine
end

section
/-! PROOFS. Thermal control: what a reading of a sensor leaves, T_max and the levels that follow from it, the request, the shutdown, and the
bounds of THM_CFG and SUP_CFG. -/

namespace Sys2Proof.Machine

/-! ## The thermal controller's own records -/

theorem State.sens_congr {s u : State} (h : u.thm = s.thm) (k : Nat) : u.sens k = s.sens k := by unfold State.sens; rw [h]

@[simp] theorem State.sens_setSens_same (s : State) (k : Nat) (x : SensSt) : (s.setSens k x).sens k = x := by
  simp [State.sens, State.setSens]

theorem State.sens_setSens_other (s : State) (k j : Nat) (x : SensSt) (h : j ≠ k) : (s.setSens k x).sens j = s.sens j := by
  simp [State.sens, State.setSens, Sparse.get_set_other _ _ _ _ _ h]

@[simp] theorem State.getF_setSens (s : State) (k : Nat) (x : SensSt) (f : FieldRef) : (s.setSens k x).getF f = s.getF f :=
  State.getF_congr rfl
@[simp] theorem State.flag_setSens (s : State) (k : Nat) (x : SensSt) (f : FieldRef) : (s.setSens k x).flag f = s.flag f :=
  State.flag_congr rfl

theorem State.setSens_islandKept (s : State) (k : Nat) (x : SensSt) (l : List Nat) : s.islandKept (s.setSens k x) l :=
  State.islandKept_of_regs l rfl

theorem State.islandKept.temp {s u : State} {l : List Nat} (h : s.islandKept u l) {j : Nat} (hj : j < 112) (hl : (R.thmSens j).addr ∉ l) :
    u.temp j = s.temp j :=
  h.getF (F.thmSensTemp j) (by rw [addr_thmSens]; omega) (by rw [addr_thmSens]; omega) hl

theorem State.temp_lt (s : State) (k : Nat) : s.temp k < 4096 := s.getF_lt (F.thmSensTemp k)

theorem clampTemp_lt (x : Int) : clampTemp x < 4096 := by
  unfold clampTemp
  split
  · decide
  · omega

/-- What a report, a request and a failure of the module leave of the stores, the partitions, the firn, and the power state. -/
structure State.StoresKept (s u : State) : Prop where
  data : s.dataKept u
  parts : u.parts = s.parts
  firn : u.firn = s.firn
  rails : u.pwr.railsOn = s.pwr.railsOn

theorem State.StoresKept.trans {s u v : State} (h : s.StoresKept u) (k : u.StoresKept v) : s.StoresKept v :=
  ⟨h.data.trans k.data, k.parts.trans h.parts, k.firn.trans h.firn, k.rails.trans h.rails⟩

theorem State.storesKept_of_beyond {s u : State} (hd : s.dataKept u) (hb : u.beyond = s.beyond) (hr : u.pwr.railsOn = s.pwr.railsOn) :
    s.StoresKept u := by
  obtain ⟨-, hparts, hfirn, -, -⟩ := State.beyond_iff.mp hb
  exact ⟨hd, hparts, hfirn, hr⟩

theorem State.setSens_storesKept (s : State) (k : Nat) (x : SensSt) : s.StoresKept (s.setSens k x) :=
  ⟨⟨rfl, rfl, rfl, rfl, rfl⟩, rfl, rfl, rfl⟩
theorem State.setF_storesKept (s : State) (f : FieldRef) (v : Nat) : s.StoresKept (s.setF f v) :=
  ⟨⟨rfl, rfl, rfl, rfl, rfl⟩, rfl, rfl, rfl⟩

/-! ## A reading (R389, R390) -/

/-- RATE and RAW of sensor k are written. -/
def State.rawTaken (s : State) (k raw : Nat) : State :=
  (s.fresh.setF (F.thmSensRate k) (if (s.sens k).seen then s.fresh.rateFor (s.temp k) else 0)).setF (F.thmSensRaw k) raw

/-- What the other sensors say of sensor k: the median of those that work, and the difference that the placement of the sensors makes. -/
def State.expected (s : State) (k : Nat) : Int := medianLow ((s.working k).map s.temp) + Config.thermalDelta k s.free

/-- A reading deviates from what at least two working neighbours say by more than 8 °C. -/
def State.deviates (s : State) (k raw : Nat) : Prop :=
  2 ≤ (s.working k).length ∧ 32 < ((raw : Int) - medianLow ((s.working k).map s.temp) - Config.thermalDelta k s.free).natAbs

/-- The estimate that stands for a broken sensor. -/
def State.estimate (s : State) (k : Nat) : Nat := if s.working k = [] then s.temp k else clampTemp (s.expected k)

theorem State.estimate_lt (s : State) (k : Nat) : s.estimate k < 4096 := by
  unfold State.estimate
  split
  · exact s.temp_lt k
  · exact clampTemp_lt _

/-- After a reading sensor k stands for temperature v, is broken or not, and is otherwise as `x` says; the other sensors are as they were. -/
structure State.Read (s u : State) (k raw v : Nat) (broken : Bool) (x : SensSt) : Prop where
  temp : u.temp k = v
  raw : u.getF (F.thmSensRaw k) = raw
  rate : u.getF (F.thmSensRate k) = if (s.sens k).seen then s.rateFor (s.temp k) else 0
  broken : u.flag (F.thmSensBroken k) = broken
  sens : u.sens k = x
  others : ∀ j, j ≠ k → u.sens j = s.sens j
  island : s.islandKept u [(R.thmSens k).addr]
  stores : s.StoresKept u

theorem State.rateFor_lt (s : State) (t : Nat) : s.rateFor t < 4 := by
  unfold State.rateFor
  split
  · decide
  · split <;> decide

section
variable {s : State} {k raw : Nat}

/-- A write of another field of the sensor's own register, read through. -/
theorem State.rawTaken_fields (hraw : raw < 4096) :
    (s.rawTaken k raw).getF (F.thmSensRaw k) = raw ∧
    (s.rawTaken k raw).getF (F.thmSensRate k) = (if (s.sens k).seen then s.rateFor (s.temp k) else 0) ∧
    (s.rawTaken k raw).flag (F.thmSensBroken k) = s.flag (F.thmSensBroken k) := by
  have hrate : (if (s.sens k).seen then s.rateFor (s.temp k) else 0) < 4 := by
    split
    · exact s.rateFor_lt _
    · decide
  refine ⟨?_, ?_, ?_⟩ <;> simp only [State.rawTaken]
  · simp [Nat.mod_eq_of_lt hraw]
  · rw [State.getF_setF_field _ _ _ (by decide) (by decide) (by decide), State.getF_setF_own _ _ _ (by decide) (by decide)]
    exact Nat.mod_eq_of_lt hrate
  · rw [State.flag_setF_field _ _ _ (by decide) (by decide) (by decide), State.flag_setF_field _ _ _ (by decide) (by decide) (by decide)]
    rfl

theorem State.rawTaken_islandKept : s.islandKept (s.rawTaken k raw) [(R.thmSens k).addr] :=
  (State.islandKept_of_regs (u := s.fresh) _ rfl).trans
    ((State.setF_islandKept _ (F.thmSensRate k) _ _ (.inl (List.mem_singleton_self _))).trans
      (State.setF_islandKept _ (F.thmSensRaw k) _ _ (.inl (List.mem_singleton_self _))))

/-- The temperature that stands for the sensor is written, and what the controller keeps of it, after RATE, RAW and BROKEN. -/
theorem State.read_of_taken {p : State} {b : Bool} (v : Nat) (x : SensSt) (hv : v < 4096) (hraw : p.getF (F.thmSensRaw k) = raw)
    (hrate : p.getF (F.thmSensRate k) = if (s.sens k).seen then s.rateFor (s.temp k) else 0) (hb : p.flag (F.thmSensBroken k) = b)
    (hthm : p.thm = s.thm) (hisland : s.islandKept p [(R.thmSens k).addr]) (hstores : s.StoresKept p) :
    s.Read ((p.setF (F.thmSensTemp k) v).setSens k x) k raw v b x where
  temp := by simp [State.temp, Nat.mod_eq_of_lt hv]
  raw := by simpa using hraw
  rate := by simpa using hrate
  broken := by simpa using hb
  sens := State.sens_setSens_same _ _ _
  others j hj := (State.sens_setSens_other _ _ _ _ hj).trans (State.sens_congr hthm j)
  island := hisland.trans ((State.setF_islandKept _ (F.thmSensTemp k) _ _ (.inl (List.mem_singleton_self _))).trans
    (State.setSens_islandKept _ _ _ _))
  stores := hstores.trans ((State.setF_storesKept _ (F.thmSensTemp k) _).trans (State.setSens_storesKept _ _ _))

theorem State.rawTaken_storesKept : s.StoresKept (s.rawTaken k raw) := ⟨⟨rfl, rfl, rfl, rfl, rfl⟩, rfl, rfl, rfl⟩

/-- What touches neither the island's sensors nor what the controller keeps of them leaves a reading alone. -/
theorem State.Read.after {u w : State} {v : Nat} {b : Bool} {x : SensSt} (h : s.Read u k raw v b x) (hk : k < 112) (hisland : u.islandKept w [])
    (hthm : w.thm = u.thm) (hstores : u.StoresKept w) : s.Read w k raw v b x :=
  have hfield : ∀ hi lo, w.getF ⟨R.thmSens k, hi, lo⟩ = u.getF ⟨R.thmSens k, hi, lo⟩ := fun hi lo =>
    hisland.getF ⟨R.thmSens k, hi, lo⟩ (by simp; omega) (by simp; omega) List.not_mem_nil
  { temp := (hfield 11 0).trans h.temp
    raw := (hfield 23 12).trans h.raw
    rate := (hfield 25 24).trans h.rate
    broken := by rw [← h.broken]; unfold State.flag; rw [hfield]
    sens := (State.sens_congr hthm k).trans h.sens
    others := fun j hj => (State.sens_congr hthm j).trans (h.others j hj)
    island := h.island.trans (hisland.mono (List.nil_subset _))
    stores := h.stores.trans hstores }

theorem State.logEv_storesKept (s : State) (a b c d : Nat) : s.StoresKept (s.logEv a b c d) :=
  State.storesKept_of_beyond (s.logEv_dataKept a b c d) (s.logEv_beyond a b c d) (by rw [State.logEv_pwr])

theorem State.failModule_storesKept (s : State) (cause : Nat) : s.StoresKept (s.failModule cause) :=
  State.storesKept_of_beyond (s.failModule_dataKept cause) (s.failModule_beyond cause) (by rw [State.failModule_pwr])

@[simp] theorem State.logEv_thm (s : State) (a b c d : Nat) : (s.logEv a b c d).thm = s.thm := by rw [State.logEv_only]
@[simp] theorem State.failModule_thm (s : State) (cause : Nat) : (s.failModule cause).thm = s.thm :=
  (State.beyond_iff.mp (s.failModule_beyond cause)).2.2.2.1

/-- A broken sensor goes by its estimate. -/
theorem State.takeReading_broken (hraw : raw < 4096) (hb : s.flag (F.thmSensBroken k) = true) :
    ∃ u, s.takeReading k raw = (u, false) ∧ s.Read u k raw (s.estimate k) true { s.sens k with seen := true } := by
  obtain ⟨hr, hrate, hbr⟩ := State.rawTaken_fields (s := s) (k := k) hraw
  refine ⟨((s.rawTaken k raw).setF (F.thmSensTemp k) (s.estimate k)).setSens k { s.sens k with seen := true }, ?_,
    State.read_of_taken _ _ (s.estimate_lt k) hr hrate (hbr.trans hb) rfl State.rawTaken_islandKept State.rawTaken_storesKept⟩
  unfold State.takeReading
  exact if_pos (hbr.trans hb)

/-- A reading that does not deviate is the temperature, and the count of deviating readings starts again. -/
theorem State.takeReading_agrees (hraw : raw < 4096) (hb : s.flag (F.thmSensBroken k) = false) (hd : ¬s.deviates k raw) :
    ∃ u, s.takeReading k raw = (u, false) ∧ s.Read u k raw raw false { s.sens k with seen := true, deviant := 0 } := by
  obtain ⟨hr, hrate, hbr⟩ := State.rawTaken_fields (s := s) (k := k) hraw
  refine ⟨((s.rawTaken k raw).setF (F.thmSensTemp k) raw).setSens k { s.sens k with seen := true, deviant := 0 }, ?_,
    State.read_of_taken _ _ hraw hr hrate (hbr.trans hb) rfl State.rawTaken_islandKept State.rawTaken_storesKept⟩
  unfold State.takeReading
  exact (if_neg (by rw [Bool.not_eq_true]; exact hbr.trans hb)).trans (if_neg hd)

/-- A deviating reading before the eighth is the temperature, and is counted. -/
theorem State.takeReading_deviates (hraw : raw < 4096) (hb : s.flag (F.thmSensBroken k) = false) (hd : s.deviates k raw)
    (h7 : (s.sens k).deviant < 7) :
    ∃ u, s.takeReading k raw = (u, true) ∧ s.Read u k raw raw false { s.sens k with seen := true, deviant := (s.sens k).deviant + 1 } ∧
      u.pwr = s.pwr := by
  obtain ⟨hr, hrate, hbr⟩ := State.rawTaken_fields (s := s) (k := k) hraw
  refine ⟨((s.rawTaken k raw).setF (F.thmSensTemp k) raw).setSens k { s.sens k with seen := true, deviant := (s.sens k).deviant + 1 }, ?_,
    State.read_of_taken _ _ hraw hr hrate (hbr.trans hb) rfl State.rawTaken_islandKept State.rawTaken_storesKept, rfl⟩
  unfold State.takeReading
  exact (if_neg (by rw [Bool.not_eq_true]; exact hbr.trans hb)).trans ((if_pos hd).trans (if_neg (by omega)))

/-- The eighth deviating reading marks the sensor BROKEN and logs it (R390). -/
def State.brokenNow (s : State) (k raw : Nat) : State :=
  ((((s.rawTaken k raw).setFlag (F.thmSensBroken k) true).setF (F.thmSensTemp k) (s.estimate k)).setSens k
    { s.sens k with seen := true, deviant := (s.sens k).deviant + 1 }).logEv srcHk 0x0F0E 0xFF k

/-- The eighth deviating reading breaks the sensor, which goes by its estimate from then on. -/
theorem State.takeReading_breaks (hk : k < 112) (hraw : raw < 4096) (hb : s.flag (F.thmSensBroken k) = false) (hd : s.deviates k raw)
    (h7 : 7 ≤ (s.sens k).deviant) :
    ∃ u, s.takeReading k raw = (u, false) ∧
      s.Read u k raw (s.estimate k) true { s.sens k with seen := true, deviant := (s.sens k).deviant + 1 } := by
  obtain ⟨hr, hrate, hbr⟩ := State.rawTaken_fields (s := s) (k := k) hraw
  have hv : s.Read (s.brokenNow k raw) k raw (s.estimate k) true { s.sens k with seen := true, deviant := (s.sens k).deviant + 1 } := by
    refine (State.read_of_taken (s := s) (p := (s.rawTaken k raw).setFlag (F.thmSensBroken k) true) _ _ (s.estimate_lt k)
      (by simpa using hr) (by simpa using hrate) (State.flag_setFlag_own _ _ _ (by decide)) rfl ?_ ?_).after hk
      (State.logEv_islandKept _ _ _ _ _ _) (State.logEv_thm _ _ _ _ _) (State.logEv_storesKept _ _ _ _ _)
    · exact State.rawTaken_islandKept.trans (State.setF_islandKept _ (F.thmSensBroken k) _ _ (.inl (List.mem_singleton_self _)))
    · exact (State.rawTaken_storesKept (k := k) (raw := raw)).trans (State.setF_storesKept _ _ _)
  refine ⟨if 8 < ((List.range 112).filter (fun j => (s.brokenNow k raw).flag (F.thmSensBroken j))).length
    then (s.brokenNow k raw).failModule 2 else s.brokenNow k raw, ?_, ?_⟩
  · unfold State.takeReading
    exact (if_neg (by rw [Bool.not_eq_true]; exact hbr.trans hb)).trans ((if_pos hd).trans (if_pos (by omega)))
  · split
    · exact hv.after hk (State.failModule_islandKept _ 2 _) (State.failModule_thm _ 2) (State.failModule_storesKept _ 2)
    · exact hv

end

/-! ## T_max, the levels and the request (R391 to R393) -/

/-- The hottest of the first n sensors, as `State.hottest` finds it. -/
def State.hottestOf (s : State) (n : Nat) : Nat × Nat :=
  (List.range n).foldl (fun b k => if b.2 < s.temp k then (k, s.temp k) else b) (0, s.temp 0)

theorem State.hottestOf_succ (s : State) (n : Nat) :
    s.hottestOf (n + 1) = if (s.hottestOf n).2 < s.temp n then (n, s.temp n) else s.hottestOf n := by
  unfold State.hottestOf
  rw [List.range_succ, List.foldl_append]
  rfl

/-- It is one of them, or sensor 0, and none of them is hotter. -/
theorem State.hottestOf_spec (s : State) (n : Nat) :
    (s.hottestOf n).1 < max n 1 ∧ (s.hottestOf n).2 = s.temp (s.hottestOf n).1 ∧ ∀ j < n, s.temp j ≤ (s.hottestOf n).2 := by
  induction n with
  | zero => exact ⟨Nat.one_pos, rfl, fun j hj => absurd hj (Nat.not_lt_zero j)⟩
  | succ n ih =>
    obtain ⟨hlt, htop, hall⟩ := ih
    rw [State.hottestOf_succ]
    split
    · rename_i hless
      refine ⟨by omega, rfl, fun j hj => ?_⟩
      rcases Nat.lt_succ_iff_lt_or_eq.mp hj with h | rfl
      · exact (hall j h).trans hless.le
      · exact le_rfl
    · rename_i hless
      refine ⟨by omega, htop, fun j hj => ?_⟩
      rcases Nat.lt_succ_iff_lt_or_eq.mp hj with h | rfl
      · exact hall j h
      · exact Nat.le_of_not_lt hless

theorem State.hottest_spec (s : State) :
    s.hottest.1 < 112 ∧ s.hottest.2 = s.temp s.hottest.1 ∧ ∀ j < 112, s.temp j ≤ s.hottest.2 := s.hottestOf_spec 112

/-- From s to u the sensors, THM_CFG, the power state and the stores stay; THM_STATUS may change. -/
structure State.Settles (s u : State) : Prop where
  island : s.islandKept u [R.thmStatus.addr]
  sens : ∀ j, u.sens j = s.sens j
  pwr : u.pwr = s.pwr
  stores : s.StoresKept u

theorem State.Settles.trans {s u v : State} (h : s.Settles u) (k : u.Settles v) : s.Settles v :=
  ⟨h.island.trans k.island, fun j => (k.sens j).trans (h.sens j), k.pwr.trans h.pwr, h.stores.trans k.stores⟩

theorem State.setF_settles (s : State) (hi lo v : Nat) : s.Settles (s.setF ⟨R.thmStatus, hi, lo⟩ v) :=
  ⟨s.setF_islandKept _ _ _ (.inl (List.mem_singleton_self _)), fun _ => rfl, rfl, s.setF_storesKept _ _⟩

theorem State.logEv_settles (s : State) (a b c d : Nat) : s.Settles (s.logEv a b c d) :=
  ⟨s.logEv_islandKept _ _ _ _ _, fun j => State.sens_congr (s.logEv_thm a b c d) j, s.logEv_pwr a b c d, s.logEv_storesKept a b c d⟩

theorem State.refreshReq_settles (s : State) : s.Settles s.refreshReq :=
  ⟨s.refreshReq_islandKept _, fun j => State.sens_congr (State.beyond_iff.mp s.refreshReq_beyond).2.2.2.1 j, s.refreshReq_pwr,
    State.storesKept_of_beyond s.refreshReq_dataKept s.refreshReq_beyond (by rw [State.refreshReq_pwr])⟩

theorem State.islandKept.getF_thmStatus {s u : State} (h : s.islandKept u []) (hi lo : Nat) :
    u.getF ⟨R.thmStatus, hi, lo⟩ = s.getF ⟨R.thmStatus, hi, lo⟩ :=
  h.getF ⟨R.thmStatus, hi, lo⟩ (by simp) (by simp) List.not_mem_nil

/-- One level of THM_STATUS: set at its bound, cleared more than 5 °C below it, each logged (R392). -/
def State.leveled (s : State) (f : FieldRef) (bound tmax codeOn codeOff dOn dOff : Nat) : State :=
  if !s.flag f && bound ≤ tmax then (s.setFlag f true).logEv srcHk codeOn 0xFF dOn
  else if s.flag f && tmax < bound - 20 then (s.setFlag f false).logEv srcHk codeOff 0xFF dOff
  else s

theorem State.levels_eq (s : State) (k tmax : Nat) :
    ∃ a b c d, s.levels k tmax = (s.leveled F.thmStatusWarn (s.getF F.thmCfgWarn) tmax 0x1301 0x1302 a b).leveled F.thmStatusThrottle
      (s.getF F.thmCfgTh) tmax 0x1303 0x1304 c d := ⟨_, _, _, _, rfl⟩

section
variable (s : State) (n bound tmax codeOn codeOff dOn dOff : Nat)

theorem State.leveled_settles : s.Settles (s.leveled ⟨R.thmStatus, n, n⟩ bound tmax codeOn codeOff dOn dOff) := by
  unfold State.leveled
  split
  · exact (s.setF_settles n n _).trans (State.logEv_settles _ _ _ _ _)
  · split
    · exact (s.setF_settles n n _).trans (State.logEv_settles _ _ _ _ _)
    · exact ⟨State.islandKept_of_regs _ rfl, fun _ => rfl, rfl, ⟨⟨rfl, rfl, rfl, rfl, rfl⟩, rfl, rfl, rfl⟩⟩

/-- The level's other neighbours in THM_STATUS stay. -/
theorem State.leveled_getF {h l : Nat} (hn : n < 32) (hap : h < n ∨ n < l) :
    (s.leveled ⟨R.thmStatus, n, n⟩ bound tmax codeOn codeOff dOn dOff).getF ⟨R.thmStatus, h, l⟩ = s.getF ⟨R.thmStatus, h, l⟩ := by
  unfold State.leveled
  split
  · rw [(State.logEv_islandKept _ _ _ _ _ _).getF_thmStatus, State.getF_setFlag_field s _ _ hn le_rfl hap]
  · split
    · rw [(State.logEv_islandKept _ _ _ _ _ _).getF_thmStatus, State.getF_setFlag_field s _ _ hn le_rfl hap]
    · rfl

theorem State.leveled_flag (hn : n < 32) : (s.leveled ⟨R.thmStatus, n, n⟩ bound tmax codeOn codeOff dOn dOff).flag ⟨R.thmStatus, n, n⟩ =
    (if bound ≤ tmax then true else if tmax + 20 < bound then false else s.flag ⟨R.thmStatus, n, n⟩) := by
  have hlog : ∀ (u : State) (c d : Nat), (u.logEv srcHk c 0xFF d).flag ⟨R.thmStatus, n, n⟩ = u.flag ⟨R.thmStatus, n, n⟩ := fun u c d => by
    unfold State.flag; rw [(State.logEv_islandKept _ _ _ _ _ _).getF_thmStatus]
  unfold State.leveled
  by_cases hup : bound ≤ tmax
  · rw [if_pos hup]
    cases hf : s.flag ⟨R.thmStatus, n, n⟩
    · simp [hup, hlog, State.flag_setFlag_own _ _ _ hn]
    · rw [if_neg (by simp), if_neg (by simp; omega), hf]
  · rw [if_neg hup, if_neg (by simp [hup])]
    by_cases hdown : tmax + 20 < bound
    · rw [if_pos hdown]
      cases hf : s.flag ⟨R.thmStatus, n, n⟩
      · rw [if_neg (by simp), hf]
      · rw [if_pos (by simp; omega), hlog, State.flag_setFlag_own _ _ _ hn]
    · rw [if_neg hdown, if_neg (by simp; omega)]

end

/-! ## The thermal request (R393) -/

theorem State.thermalReq_settles (s : State) (tmax us : Nat) : s.Settles (s.thermalReq tmax us) := by
  have hhist : ∀ h, s.Settles { s with thm := { s.thm with hist := h } } := fun h =>
    ⟨State.islandKept_of_regs _ rfl, fun _ => rfl, rfl, ⟨⟨rfl, rfl, rfl, rfl, rfl⟩, rfl, rfl, rfl⟩⟩
  unfold State.thermalReq
  dsimp only
  split
  · exact (hhist _).trans (State.setF_settles _ 27 20 _)
  · split
    · exact (hhist _).trans (State.setF_settles _ 27 20 _)
    · exact hhist _

theorem State.thermalReq_getF (s : State) (tmax us : Nat) {h l : Nat} (hap : h < 20 ∨ 27 < l) :
    (s.thermalReq tmax us).getF ⟨R.thmStatus, h, l⟩ = s.getF ⟨R.thmStatus, h, l⟩ := by
  unfold State.thermalReq
  dsimp only
  split
  · exact State.getF_setF_field _ R.thmStatus _ (by decide) (by decide) hap
  · split
    · exact State.getF_setF_field _ R.thmStatus _ (by decide) (by decide) hap
    · rfl

/-- A higher request takes effect at once. -/
theorem State.thermalReq_higher (s : State) (tmax us : Nat) (hth : s.flag F.thmStatusThrottle = true)
    (hlt : s.getF F.thmStatusReq < min 50 (max 1 (tmax - s.getF F.thmCfgTh))) :
    (s.thermalReq tmax us).getF F.thmStatusReq = min 50 (max 1 (tmax - s.getF F.thmCfgTh)) := by
  have hwant : s.thermalWant tmax = min 50 (max 1 (tmax - s.getF F.thmCfgTh)) := if_pos hth
  unfold State.thermalReq
  dsimp only
  rw [if_pos (hwant ▸ hlt), State.getF_setF_own _ _ _ (by decide) (by decide), hwant]
  exact Nat.mod_eq_of_lt (by simp)

/-! ## What follows a reading -/

/-- T_max and the sensor that has it stand in THM_STATUS. -/
def State.ranked (s : State) : State := (s.setF F.thmStatusHottest s.hottest.1).setF F.thmStatusTmax s.hottest.2

/-- The levels follow T_max. -/
def State.ruled (s : State) : State := s.ranked.levels s.hottest.1 s.hottest.2

/-- The request follows, when the sensor just read is the hottest. -/
def State.judged (s : State) (k us : Nat) : State :=
  (if s.hottest.1 = k then s.ruled.thermalReq s.hottest.2 us else s.ruled).refreshReq

theorem State.ruled_settles (s : State) : s.Settles s.ruled := by
  obtain ⟨a, b, c, d, h⟩ := s.ranked.levels_eq s.hottest.1 s.hottest.2
  rw [State.ruled, h]
  exact ((s.setF_settles 19 13 _).trans (State.setF_settles _ 11 0 _)).trans
    ((State.leveled_settles _ 29 _ _ _ _ _ _).trans (State.leveled_settles _ 30 _ _ _ _ _ _))

theorem State.judged_settles (s : State) (k us : Nat) : s.Settles (s.judged k us) := by
  unfold State.judged
  refine State.Settles.trans ?_ (State.refreshReq_settles _)
  split
  · exact s.ruled_settles.trans (State.thermalReq_settles _ _ _)
  · exact s.ruled_settles

/-- Fields of THM_STATUS below and above the two levels are those of `ranked`. -/
theorem State.ruled_getF (s : State) {h l : Nat} (hap : h < 29 ∨ 30 < l) :
    s.ruled.getF ⟨R.thmStatus, h, l⟩ = s.ranked.getF ⟨R.thmStatus, h, l⟩ := by
  obtain ⟨a, b, c, d, hl⟩ := s.ranked.levels_eq s.hottest.1 s.hottest.2
  rw [State.ruled, hl, State.leveled_getF _ 30 _ _ _ _ _ _ (by decide) (by omega), State.leveled_getF _ 29 _ _ _ _ _ _ (by decide) (by omega)]

theorem State.ranked_thmCfg (s : State) (h l : Nat) : s.ranked.getF ⟨R.thmCfg, h, l⟩ = s.getF ⟨R.thmCfg, h, l⟩ := by
  unfold State.ranked
  rw [State.getF_setF_other _ _ _ _ (by simp), State.getF_setF_other _ _ _ _ (by simp)]

theorem State.ruled_warn (s : State) : s.ruled.flag F.thmStatusWarn = (if s.getF F.thmCfgWarn ≤ s.hottest.2 then true
    else if s.hottest.2 + 20 < s.getF F.thmCfgWarn then false else s.flag F.thmStatusWarn) := by
  obtain ⟨a, b, c, d, hl⟩ := s.ranked.levels_eq s.hottest.1 s.hottest.2
  have hother : s.ruled.flag F.thmStatusWarn =
      (s.ranked.leveled F.thmStatusWarn (s.ranked.getF F.thmCfgWarn) s.hottest.2 0x1301 0x1302 a b).flag F.thmStatusWarn := by
    unfold State.flag
    rw [State.ruled, hl, State.leveled_getF _ 30 _ _ _ _ _ _ (by decide) (by decide)]
  rw [hother, State.leveled_flag _ 29 _ _ _ _ _ _ (by decide), State.ranked_thmCfg]
  simp [State.ranked]

theorem State.ruled_throttle (s : State) : s.ruled.flag F.thmStatusThrottle = (if s.getF F.thmCfgTh ≤ s.hottest.2 then true
    else if s.hottest.2 + 20 < s.getF F.thmCfgTh then false else s.flag F.thmStatusThrottle) := by
  obtain ⟨a, b, c, d, hl⟩ := s.ranked.levels_eq s.hottest.1 s.hottest.2
  have hother : ∀ x, (s.ranked.leveled F.thmStatusWarn x s.hottest.2 0x1301 0x1302 a b).flag F.thmStatusThrottle = s.flag F.thmStatusThrottle := by
    intro x
    unfold State.flag
    rw [State.leveled_getF _ 29 _ _ _ _ _ _ (by decide) (by decide)]
    simp [State.ranked]
  rw [State.ruled, hl, State.leveled_flag _ 30 _ _ _ _ _ _ (by decide), hother, State.ranked_thmCfg]

section
variable (s : State) (k us : Nat)

/-- Fields of THM_STATUS but REQ are those of `ruled`. -/
theorem State.judged_getF {h l : Nat} (hap : h < 20 ∨ 27 < l) :
    (s.judged k us).getF ⟨R.thmStatus, h, l⟩ = s.ruled.getF ⟨R.thmStatus, h, l⟩ := by
  unfold State.judged
  rw [(State.refreshReq_islandKept _ _).getF_thmStatus]
  split
  · exact State.thermalReq_getF _ _ _ hap
  · rfl

theorem State.judged_flag {n : Nat} (hap : n < 20 ∨ 27 < n) : (s.judged k us).flag ⟨R.thmStatus, n, n⟩ = s.ruled.flag ⟨R.thmStatus, n, n⟩ := by
  unfold State.flag
  rw [State.judged_getF s k us hap]

theorem State.judged_tmax : (s.judged k us).getF F.thmStatusTmax = s.hottest.2 := by
  have hlt : s.hottest.2 < 4096 := by rw [s.hottest_spec.2.1]; exact s.temp_lt _
  rw [State.judged_getF s k us (by decide), State.ruled_getF s (by decide), State.ranked, State.getF_setF_own _ _ _ (by decide) (by decide)]
  exact Nat.mod_eq_of_lt (by simpa using hlt)

theorem State.judged_hottest : (s.judged k us).getF F.thmStatusHottest = s.hottest.1 := by
  have hlt := s.hottest_spec.1
  rw [State.judged_getF s k us (by decide), State.ruled_getF s (by decide), State.ranked,
    State.getF_setF_field _ _ _ (by decide) (by decide) (by decide), State.getF_setF_own _ _ _ (by decide) (by decide)]
  exact Nat.mod_eq_of_lt (by simp; omega)

theorem State.judged_shutdown : (s.judged k us).flag F.thmStatusShutdown = s.flag F.thmStatusShutdown := by
  rw [State.judged_flag s k us (by decide)]
  unfold State.flag
  rw [State.ruled_getF s (by decide)]
  simp [State.ranked]

theorem State.ruled_req : s.ruled.getF F.thmStatusReq = s.getF F.thmStatusReq := by
  rw [State.ruled_getF s (by decide)]
  simp [State.ranked]

/-- The request stays when another sensor is the hottest. -/
theorem State.judged_req_other (h : s.hottest.1 ≠ k) : (s.judged k us).getF F.thmStatusReq = s.getF F.thmStatusReq := by
  rw [State.judged, (State.refreshReq_islandKept _ _).getF_thmStatus, if_neg h, State.ruled_req]

theorem State.judged_req_higher (h : s.hottest.1 = k) (hth : (s.judged k us).flag F.thmStatusThrottle = true)
    (hlt : s.getF F.thmStatusReq < min 50 (max 1 (s.hottest.2 - s.getF F.thmCfgTh))) :
    (s.judged k us).getF F.thmStatusReq = min 50 (max 1 (s.hottest.2 - s.getF F.thmCfgTh)) := by
  have hcfg : s.ruled.getF F.thmCfgTh = s.getF F.thmCfgTh := s.ruled_settles.island.getF F.thmCfgTh (by simp) (by simp) (by simp)
  rw [State.judged_flag s k us (by decide)] at hth
  rw [State.judged, (State.refreshReq_islandKept _ _).getF_thmStatus, if_pos h, ← hcfg]
  exact State.thermalReq_higher _ _ _ hth (by rw [State.ruled_req, hcfg]; exact hlt)

end

/-! ## Shutdown (R395) -/

/-- HBM4 refreshes itself, and a reset that runs ends, but for the recovery from a supply reset. -/
def State.selfRefresh (s : State) : State :=
  { s with pwr := { s.pwr with hbmRefresh := true, running := if s.pwr.recovering then s.pwr.running else none } }

/-- The NV record is written, the units have stopped and the module is failed, before the domains and the rails go off. -/
def State.stoppedHot (s : State) (k temp : Nat) : State :=
  (((s.nvRecord 1 temp k).stopUnits.logEv srcHk 0x1305 0xFF (detail 0x1305 [k, temp])).failModule 1).selfRefresh

theorem State.thermalShutdown_eq (s : State) (k temp : Nat) : s.thermalShutdown k temp =
    (((s.stoppedHot k temp).allDomainsOff.railsOff.setFlag F.thmStatusShutdown true).setF F.pwrModeState 5).indicate 0 1 false := rfl

theorem State.getR_of_regs {s u : State} (h : u.regs = s.regs) (g : Reg) : u.getR g = s.getR g := by unfold State.getR; rw [h]

theorem State.indicate_regsKept (s : State) (ready attn : Nat) (closed : Bool) : s.regsKept (s.indicate ready attn closed) [R.pwrSlot.addr] :=
  ((s.setF_regsKept F.pwrSlotRdy ready).trans (State.setF_regsKept _ F.pwrSlotAttn attn)).trans (State.setFlag_regsKept _ F.pwrSlotReadyOut closed)

section
variable (s : State) (k temp : Nat)

theorem State.nvRecord_islandKept (kind value sensor : Nat) (l : List Nat) : s.islandKept (s.nvRecord kind value sensor) l :=
  State.islandKept_of_regs l rfl
theorem State.stopUnits_islandKept (l : List Nat) : s.islandKept s.stopUnits l := State.islandKept_of_regs l rfl
theorem State.selfRefresh_islandKept (l : List Nat) : s.islandKept s.selfRefresh l := State.islandKept_of_regs l rfl
theorem State.railsOff_islandKept (l : List Nat) : s.islandKept s.railsOff l := State.islandKept_of_regs l rfl
theorem State.stopUnits_beyond : s.stopUnits.beyond = s.beyond := rfl
theorem State.selfRefresh_beyond : s.selfRefresh.beyond = s.beyond := rfl
theorem State.railsOff_beyond : s.railsOff.beyond = s.beyond := rfl
theorem State.indicate_beyond (ready attn : Nat) (closed : Bool) : (s.indicate ready attn closed).beyond = s.beyond := rfl
theorem State.setF_beyond (f : FieldRef) (v : Nat) : (s.setF f v).beyond = s.beyond := rfl
theorem State.setFlag_beyond (f : FieldRef) (b : Bool) : (s.setFlag f b).beyond = s.beyond := rfl

theorem State.stoppedHot_islandKept (l : List Nat) : s.islandKept (s.stoppedHot k temp) l :=
  ((s.nvRecord_islandKept 1 temp k l).trans (State.stopUnits_islandKept _ l)).trans
    (((State.logEv_islandKept _ _ _ _ _ l).trans (State.failModule_islandKept _ _ l)).trans (State.selfRefresh_islandKept _ l))

theorem State.thermalShutdown_beyond : (s.thermalShutdown k temp).beyond = (s.nvRecord 1 temp k).beyond := by
  rw [State.thermalShutdown_eq, State.indicate_beyond, State.setF_beyond, State.setFlag_beyond, State.railsOff_beyond,
    State.allDomainsOff_beyond, State.stoppedHot, State.selfRefresh_beyond, State.failModule_beyond, State.logEv_beyond, State.stopUnits_beyond]

theorem State.indicate_pwr (ready attn : Nat) (closed : Bool) : (s.indicate ready attn closed).pwr = s.pwr := rfl
theorem State.railsOff_pwr : s.railsOff.pwr = { s.pwr with railsOn := false } := rfl
theorem State.selfRefresh_pwr :
    s.selfRefresh.pwr = { s.pwr with hbmRefresh := true, running := if s.pwr.recovering then s.pwr.running else none } := rfl
theorem State.stopUnits_pwr : s.stopUnits.pwr = { s.pwr with stopped := true } := rfl

/-- The rails are off, the units stopped, the module failed, its HBM4 in self-refresh. -/
theorem State.thermalShutdown_pwr : (s.thermalShutdown k temp).pwr.railsOn = false ∧ (s.thermalShutdown k temp).pwr.stopped = true ∧
    (s.thermalShutdown k temp).pwr.failedModule = true ∧ (s.thermalShutdown k temp).pwr.hbmRefresh = true := by
  simp only [State.thermalShutdown_eq, State.indicate_pwr, State.setF_pwr, State.setFlag_pwr, State.railsOff_pwr, State.allDomainsOff_pwr,
    State.stoppedHot, State.selfRefresh_pwr, State.failModule_pwr, State.logEv_pwr, State.stopUnits_pwr, and_self]

/-- The writes that end a shutdown, to registers that no domain and no sensor has. -/
theorem State.thermalShutdown_getR (g : Reg) (h1 : g.addr ≠ R.thmStatus.addr) (h2 : g.addr ≠ R.pwrMode.addr) (h3 : g.addr ≠ R.pwrSlot.addr) :
    (s.thermalShutdown k temp).getR g = (s.stoppedHot k temp).allDomainsOff.getR g := by
  rw [State.thermalShutdown_eq, (State.indicate_regsKept _ _ _ _).getR g (by simpa using h3), State.getR_setF_other _ F.pwrModeState g _ h2]
  exact (State.getR_setF_other _ F.thmStatusShutdown g _ h1).trans (State.getR_of_regs rfl g)

theorem State.thermalShutdown_islandKept (h : s.regsWf) : s.islandKept (s.thermalShutdown k temp) [R.thmStatus.addr] := by
  have hstop := s.stoppedHot_islandKept k temp [R.thmStatus.addr]
  refine hstop.trans ((State.allDomainsOff_islandKept _ _ (hstop.2 h)).trans ?_)
  rw [State.thermalShutdown_eq]
  exact ((State.railsOff_islandKept _ _).trans (State.setF_islandKept _ F.thmStatusShutdown (bit true) _ (.inl (List.mem_singleton_self _)))).trans
    ((State.setF_islandKept _ F.pwrModeState _ _ (.inr (by simp))).trans (State.indicate_islandKept _ _ _ _ _))

/-- THM_STATUS shows the shutdown, and keeps its other fields. -/
theorem State.thermalShutdown_status (h : s.regsWf) : (s.thermalShutdown k temp).flag F.thmStatusShutdown = true ∧
    ∀ hi lo, hi < 31 → (s.thermalShutdown k temp).getF ⟨R.thmStatus, hi, lo⟩ = s.getF ⟨R.thmStatus, hi, lo⟩ := by
  have hmode : R.thmStatus.addr ≠ R.pwrMode.addr := by simp
  have hstop := s.stoppedHot_islandKept k temp []
  have hread : (s.thermalShutdown k temp).getR R.thmStatus =
      ((s.stoppedHot k temp).allDomainsOff.railsOff.setFlag F.thmStatusShutdown true).getR R.thmStatus := by
    rw [State.thermalShutdown_eq, (State.indicate_regsKept _ _ _ _).getR _ (by simp), State.getR_setF_other _ _ _ _ hmode]
  refine ⟨(State.flag_congr (g := F.thmStatusShutdown) hread).trans (State.flag_setFlag_own _ _ _ (by decide)), fun hi lo hlt => ?_⟩
  rw [State.getF_congr (g := ⟨R.thmStatus, hi, lo⟩) hread, State.getF_setFlag_field _ _ _ (by decide) (by decide) (.inl hlt),
    (State.railsOff_islandKept _ []).getF_thmStatus, (State.allDomainsOff_islandKept _ [] (hstop.2 h)).getF_thmStatus, hstop.getF_thmStatus]

theorem State.thermalShutdown_mode : (s.thermalShutdown k temp).getF F.pwrModeState = 5 := by
  rw [State.thermalShutdown_eq, State.getF_congr (g := F.pwrModeState) ((State.indicate_regsKept _ _ _ _).getR _ (by simp)),
    State.getF_setF_own _ _ _ (by decide) (by decide)]
  rfl

theorem State.thermalShutdown_domains (h : s.regsWf) : ∀ d < 72, (s.thermalShutdown k temp).getF (F.pwrDomState d) = 0 := by
  intro d hd
  rw [State.getF_congr (g := F.pwrDomState d) (s.thermalShutdown_getR k temp (R.pwrDom d) (by simp; omega) (by simp; omega) (by simp; omega))]
  exact State.allDomainsOff_state _ ((s.stoppedHot_islandKept k temp []).2 h) d hd

end

/-- The second reading in a row at the shutdown level shuts the module down; a deviating one does not count (R395). -/
def State.shutChecked (s : State) (k : Nat) (deviating : Bool) : State :=
  if deviating then s
  else if s.getF F.thmCfgShut ≤ s.temp k then
    let u := s.setSens k { s.sens k with overShut := (s.sens k).overShut + 1 }
    if 2 ≤ (s.sens k).overShut + 1 && !u.flag F.thmStatusShutdown then u.thermalShutdown k (u.temp k) else u
  else s.setSens k { s.sens k with overShut := 0 }

theorem exec_sensorSample (k : Fin 112) (reading : BitVec 12) (us : Nat) (s : State) : exec (.sensorSample k reading us) s =
    .next (((s.takeReading k reading.toNat).1.judged k us).shutChecked k (s.takeReading k reading.toNat).2) := by rfl

/-- What the check leaves of the sensors, THM_STATUS below SHUTDOWN, HBM4 and the partitions. -/
structure State.Checked (s u : State) (k : Nat) : Prop where
  island : s.islandKept u [R.thmStatus.addr]
  status : ∀ hi lo, hi < 31 → u.getF ⟨R.thmStatus, hi, lo⟩ = s.getF ⟨R.thmStatus, hi, lo⟩
  deviant : (u.sens k).deviant = (s.sens k).deviant
  others : ∀ j, j ≠ k → u.sens j = s.sens j
  hbm : u.hbm = s.hbm
  parts : u.parts = s.parts

section
variable {s : State} {k : Nat}

theorem State.setSens_checked {x : SensSt} (hx : x.deviant = (s.sens k).deviant) : s.Checked (s.setSens k x) k :=
  ⟨State.setSens_islandKept _ _ _ _, fun _ _ _ => State.getF_setSens _ _ _ _, by rw [State.sens_setSens_same, hx],
    fun j hj => State.sens_setSens_other _ _ _ _ hj, rfl, rfl⟩

theorem State.thermalShutdown_checked (h : s.regsWf) (temp : Nat) : s.Checked (s.thermalShutdown k temp) k := by
  obtain ⟨hhbm, hparts, -, hthm, -⟩ := State.beyond_iff.mp (s.thermalShutdown_beyond k temp)
  exact ⟨s.thermalShutdown_islandKept k temp h, (s.thermalShutdown_status k temp h).2, by rw [State.sens_congr hthm]; rfl,
    fun j _ => (State.sens_congr hthm j).trans rfl, hhbm, hparts⟩

theorem State.Checked.trans {u v : State} (h : s.Checked u k) (g : u.Checked v k) : s.Checked v k :=
  ⟨h.island.trans g.island, fun hi lo hlt => (g.status hi lo hlt).trans (h.status hi lo hlt), g.deviant.trans h.deviant,
    fun j hj => (g.others j hj).trans (h.others j hj), g.hbm.trans h.hbm, g.parts.trans h.parts⟩

theorem State.shutChecked_checked (h : s.regsWf) (deviating : Bool) : s.Checked (s.shutChecked k deviating) k := by
  have hcount := State.setSens_checked (s := s) (k := k) (x := { s.sens k with overShut := (s.sens k).overShut + 1 }) rfl
  unfold State.shutChecked
  split
  · exact ⟨State.islandKept_of_regs _ rfl, fun _ _ _ => rfl, rfl, fun _ _ => rfl, rfl, rfl⟩
  · split
    · dsimp only
      split
      · exact hcount.trans (State.thermalShutdown_checked (hcount.island.2 h) _)
      · exact hcount
    · exact State.setSens_checked rfl

theorem State.shutChecked_below (h : s.temp k < s.getF F.thmCfgShut) (deviating : Bool) : s.StoresKept (s.shutChecked k deviating) ∧
    (s.shutChecked k deviating).flag F.thmStatusShutdown = s.flag F.thmStatusShutdown := by
  unfold State.shutChecked
  split
  · exact ⟨⟨⟨rfl, rfl, rfl, rfl, rfl⟩, rfl, rfl, rfl⟩, rfl⟩
  · rw [if_neg (by omega)]
    exact ⟨s.setSens_storesKept _ _, State.flag_setSens _ _ _ _⟩

/-- The second reading at the shutdown level (R395). -/
theorem State.shutChecked_shuts (h : s.regsWf) (htemp : s.getF F.thmCfgShut ≤ s.temp k) (hover : 1 ≤ (s.sens k).overShut)
    (hnot : s.flag F.thmStatusShutdown = false) :
    let u := s.shutChecked k false
    u.flag F.thmStatusShutdown = true ∧ u.getF F.pwrModeState = 5 ∧ u.pwr.railsOn = false ∧ u.pwr.stopped = true ∧
      u.pwr.failedModule = true ∧ u.pwr.hbmRefresh = true ∧ u.firn.nvSeq = s.firn.nvSeq + 1 ∧ (∀ d < 72, u.getF (F.pwrDomState d) = 0) := by
  have hu : s.shutChecked k false =
      (s.setSens k { s.sens k with overShut := (s.sens k).overShut + 1 }).thermalShutdown k (s.temp k) := by
    unfold State.shutChecked
    rw [if_neg (by decide), if_pos htemp]
    dsimp only
    rw [State.flag_setSens, hnot, if_pos (by simpa using hover)]
    rfl
  rw [hu]
  generalize hv : s.setSens k { s.sens k with overShut := (s.sens k).overShut + 1 } = v
  have hwf : v.regsWf := hv ▸ h
  have hseq : v.firn.nvSeq = s.firn.nvSeq := hv ▸ rfl
  obtain ⟨hrails, hstopped, hfailed, hrefresh⟩ := v.thermalShutdown_pwr k (s.temp k)
  obtain ⟨-, -, hfirn, -, -⟩ := State.beyond_iff.mp (v.thermalShutdown_beyond k (s.temp k))
  refine ⟨(v.thermalShutdown_status k _ hwf).1, v.thermalShutdown_mode k _, hrails, hstopped, hfailed, hrefresh, ?_,
    v.thermalShutdown_domains k _ hwf⟩
  rw [hfirn, ← hseq]
  rfl

end

/-! ## A reading and what follows it -/

section
variable {s : State} {k raw : Nat}

/-- What a reading can do: it agrees, deviates, breaks the sensor, or is a broken sensor's. -/
theorem State.takeReading_spec (hk : k < 112) (hraw : raw < 4096) :
    ∃ p deviating v b x, s.takeReading k raw = (p, deviating) ∧ s.Read p k raw v b x ∧ x.overShut = (s.sens k).overShut ∧
      ((s.flag (F.thmSensBroken k) = false ∧ ¬s.deviates k raw) → v = raw ∧ x.deviant = 0 ∧ b = false) ∧
      ((s.flag (F.thmSensBroken k) = false ∧ s.deviates k raw ∧ (s.sens k).deviant < 7) →
        deviating = true ∧ v = raw ∧ x.deviant = (s.sens k).deviant + 1 ∧ b = false ∧ p.pwr = s.pwr) ∧
      ((s.flag (F.thmSensBroken k) = false ∧ s.deviates k raw ∧ 7 ≤ (s.sens k).deviant) → v = s.estimate k ∧ b = true) ∧
      (s.flag (F.thmSensBroken k) = true → v = s.estimate k ∧ b = true) ∧
      ((s.flag (F.thmSensBroken k) = true ∨ ¬s.deviates k raw ∨ 7 ≤ (s.sens k).deviant) → deviating = false) := by
  cases hb : s.flag (F.thmSensBroken k) with
  | true =>
    obtain ⟨p, htake, hread⟩ := State.takeReading_broken hraw hb
    exact ⟨p, _, _, _, _, htake, hread, rfl, by simp, by simp, by simp, by simp, by simp⟩
  | false =>
    by_cases hd : s.deviates k raw
    · rcases Nat.lt_or_ge (s.sens k).deviant 7 with h7 | h7
      · obtain ⟨p, htake, hread, hpwr⟩ := State.takeReading_deviates hraw hb hd h7
        exact ⟨p, _, _, _, _, htake, hread, rfl, by simp [hd], by simp [hpwr], by simp [Nat.not_le.mpr h7], by simp,
          by simp [hd, Nat.not_le.mpr h7]⟩
      · obtain ⟨p, htake, hread⟩ := State.takeReading_breaks hk hraw hb hd h7
        exact ⟨p, _, _, _, _, htake, hread, rfl, by simp [hd], by simp [Nat.not_lt.mpr h7], by simp, by simp, by simp⟩
    · obtain ⟨p, htake, hread⟩ := State.takeReading_agrees hraw hb hd
      exact ⟨p, _, _, _, _, htake, hread, rfl, by simp, by simp [hd], by simp [hd], by simp, by simp⟩

/-- After a reading and all that follows it, sensor k stands for temperature v, and the other sensors are as they were. -/
theorem State.Read.sampled {p u : State} {v us : Nat} {b : Bool} {x : SensSt} (hread : s.Read p k raw v b x) (hk : k < 112)
    (hcheck : (p.judged k us).Checked u k) :
    u.getF (F.thmSensRaw k) = raw ∧ u.getF (F.thmSensRate k) = (if (s.sens k).seen then s.rateFor (s.temp k) else 0) ∧
    u.temp k = v ∧ u.flag (F.thmSensBroken k) = b ∧ (u.sens k).deviant = x.deviant ∧
    (∀ j < 112, u.temp j = p.temp j) ∧ (∀ j < 112, j ≠ k → u.temp j = s.temp j ∧ u.sens j = s.sens j) := by
  have hsettle := p.judged_settles k us
  have hisland := hsettle.island.trans hcheck.island
  have hfield : ∀ j < 112, ∀ hi lo, u.getF ⟨R.thmSens j, hi, lo⟩ = p.getF ⟨R.thmSens j, hi, lo⟩ := fun j hj hi lo =>
    hisland.getF ⟨R.thmSens j, hi, lo⟩ (by simp; omega) (by simp; omega) (by simp; omega)
  refine ⟨(hfield k hk _ _).trans hread.raw, (hfield k hk _ _).trans hread.rate, (hfield k hk _ _).trans hread.temp, ?_, ?_,
    fun j hj => hfield j hj _ _, fun j hj hne => ⟨?_, ?_⟩⟩
  · rw [← hread.broken]
    unfold State.flag
    rw [hfield k hk]
  · rw [hcheck.deviant, hsettle.sens, hread.sens]
  · exact (hfield j hj _ _).trans (hread.island.temp hj (by simpa using hne))
  · rw [hcheck.others j hne, hsettle.sens, hread.others j hne]

/-- THM_CFG and THM_STATUS are what they were, once a reading is taken. -/
theorem State.Read.getF_thm {p : State} {v : Nat} {b : Bool} {x : SensSt} (hread : s.Read p k raw v b x) (hi lo : Nat) :
    p.getF ⟨R.thmCfg, hi, lo⟩ = s.getF ⟨R.thmCfg, hi, lo⟩ ∧ p.getF ⟨R.thmStatus, hi, lo⟩ = s.getF ⟨R.thmStatus, hi, lo⟩ :=
  ⟨hread.island.getF ⟨R.thmCfg, hi, lo⟩ (by simp) (by simp) (by simp; omega),
    hread.island.getF ⟨R.thmStatus, hi, lo⟩ (by simp) (by simp) (by simp; omega)⟩

/-- T_max, the levels and the request after a reading, in terms of what stood before it (R391 to R393). -/
theorem State.Read.status {p u : State} {v us : Nat} {b : Bool} {x : SensSt} (hread : s.Read p k raw v b x) (hk : k < 112)
    (hcheck : (p.judged k us).Checked u k) :
    let top := u.getF F.thmStatusTmax
    (∀ j < 112, u.temp j ≤ top) ∧ u.getF F.thmStatusHottest < 112 ∧ u.temp (u.getF F.thmStatusHottest) = top ∧
    u.flag F.thmStatusWarn = (if s.getF F.thmCfgWarn ≤ top then true else if top + 20 < s.getF F.thmCfgWarn then false else
      s.flag F.thmStatusWarn) ∧
    u.flag F.thmStatusThrottle = (if s.getF F.thmCfgTh ≤ top then true else if top + 20 < s.getF F.thmCfgTh then false else
      s.flag F.thmStatusThrottle) ∧
    (u.getF F.thmStatusHottest ≠ k → u.getF F.thmStatusReq = s.getF F.thmStatusReq) ∧
    ((u.getF F.thmStatusHottest = k ∧ u.flag F.thmStatusThrottle = true ∧
        s.getF F.thmStatusReq < min 50 (max 1 (top - s.getF F.thmCfgTh))) →
      u.getF F.thmStatusReq = min 50 (max 1 (top - s.getF F.thmCfgTh))) := by
  obtain ⟨-, -, -, -, -, htemps, -⟩ := hread.sampled hk hcheck
  obtain ⟨hlt, htop, hall⟩ := p.hottest_spec
  have hflag : ∀ n < 31, u.flag ⟨R.thmStatus, n, n⟩ = (p.judged k us).flag ⟨R.thmStatus, n, n⟩ := fun n hn => by
    unfold State.flag; rw [hcheck.status n n hn]
  have hflagOld : ∀ n, p.flag ⟨R.thmStatus, n, n⟩ = s.flag ⟨R.thmStatus, n, n⟩ := fun n => by
    unfold State.flag; rw [(hread.getF_thm n n).2]
  have hmax : u.getF F.thmStatusTmax = p.hottest.2 := (hcheck.status _ _ (by decide)).trans (p.judged_tmax k us)
  have hhot : u.getF F.thmStatusHottest = p.hottest.1 := (hcheck.status _ _ (by decide)).trans (p.judged_hottest k us)
  dsimp only
  rw [hmax, hhot]
  refine ⟨fun j hj => htemps j hj ▸ hall j hj, hlt, (htemps _ hlt).trans htop.symm, ?_, ?_, fun hne => ?_, fun ⟨heq, hth, hless⟩ => ?_⟩
  · rw [hflag 29 (by decide), State.judged_flag p k us (by decide), State.ruled_warn, hflagOld, (hread.getF_thm 9 0).1]
  · rw [hflag 30 (by decide), State.judged_flag p k us (by decide), State.ruled_throttle, hflagOld, (hread.getF_thm 19 10).1]
  · rw [hcheck.status _ _ (by decide), State.judged_req_other p k us hne, (hread.getF_thm 27 20).2]
  · rw [hflag 30 (by decide)] at hth
    rw [← (hread.getF_thm 19 10).1] at hless ⊢
    rw [← (hread.getF_thm 27 20).2] at hless
    rw [hcheck.status _ _ (by decide), State.judged_req_higher p k us heq hth hless]

end

/-! ## The bounds of THM_CFG and SUP_CFG (R412) -/

theorem thmCfgOk_iff (w : Word) : thmCfgOk w = true ↔
    bitsOf w 9 0 < bitsOf w 19 10 ∧ bitsOf w 19 10 + 32 ≤ bitsOf w 29 20 ∧ 400 ≤ bitsOf w 29 20 ∧ bitsOf w 29 20 ≤ 472 ∧ 340 ≤ bitsOf w 19 10 := by
  simp [thmCfgOk, and_assoc]

theorem supCfgOk_iff (w : Word) : supCfgOk w = true ↔
    90 ≤ bitsOf w 7 0 ∧ bitsOf w 7 0 ≤ 97 ∧ 85 ≤ bitsOf w 15 8 ∧ bitsOf w 15 8 + 3 ≤ bitsOf w 7 0 ∧ 10 ≤ bitsOf w 23 16 ∧ bitsOf w 23 16 ≤ 50 := by
  simp [supCfgOk, and_assoc]

theorem exec_thmCfgWrite (w : Word) (s : State) : exec (.thmCfgWrite w) s = .next (s.thmCfgWrite w) := by rfl
theorem exec_supCfgWrite (w : Word) (s : State) : exec (.supCfgWrite w) s = .next (s.supCfgWrite w) := by rfl
theorem exec_pwrInstallSave (s : State) : exec .pwrInstallSave s = .next s.installSave := by rfl

/-- A field of a register that has been given a word with some of its other bits set to 0. -/
theorem State.getF_setR_withBits (s : State) (r : Reg) (w : Word) {hi lo h l : Nat} (hhi : hi < 32) (hlo : lo ≤ hi) (hap : h < lo ∨ hi < l) :
    (s.setR r (withBits w hi lo 0)).getF ⟨r, h, l⟩ = bitsOf w h l := by
  unfold State.getF
  rw [State.getR_setR_same, bitsOf_withBits_apart _ _ _ _ _ _ hhi hlo hap]

theorem State.thmCfgWrite_taken (s : State) (w : Word) (h : thmCfgOk w = true) : s.gives (.thmCfgWrite w) (fun u =>
    u.getF F.thmCfgWarn = bitsOf w 9 0 ∧ u.getF F.thmCfgTh = bitsOf w 19 10 ∧ u.getF F.thmCfgShut = bitsOf w 29 20 ∧
    u = { s with regs := u.regs } ∧ s.regsKept u [R.thmCfg.addr]) := by
  refine ⟨s.setR R.thmCfg (withBits w 31 30 0), ?_, ?_, ?_, ?_, rfl, s.setR_regsKept _ _⟩
  · rw [exec_thmCfgWrite, State.thmCfgWrite, if_pos h]
  all_goals exact State.getF_setR_withBits _ _ _ (by decide) (by decide) (by decide)

theorem State.thmCfgWrite_refused (s : State) (w : Word) (h : ¬thmCfgOk w = true) : s.gives (.thmCfgWrite w) (fun u =>
    u.flag F.thmStatusCfgErr = true ∧ u = { s with regs := u.regs } ∧ s.regsKept u [R.thmStatus.addr]) := by
  refine ⟨s.setFlag F.thmStatusCfgErr true, ?_, State.flag_setFlag_own _ _ _ (by decide), rfl, s.setFlag_regsKept _ _⟩
  rw [exec_thmCfgWrite, State.thmCfgWrite, if_neg h]

theorem State.supCfgWrite_taken (s : State) (w : Word) (h : supCfgOk w = true) : s.gives (.supCfgWrite w) (fun u =>
    u.getF F.supCfgWarnPct = bitsOf w 7 0 ∧ u.getF F.supCfgResetPct = bitsOf w 15 8 ∧ u.getF F.supCfgStretch = bitsOf w 23 16 ∧
    u = { s with regs := u.regs } ∧ s.regsKept u [R.supCfg.addr]) := by
  refine ⟨s.setR R.supCfg (withBits w 31 24 0), ?_, ?_, ?_, ?_, rfl, s.setR_regsKept _ _⟩
  · rw [exec_supCfgWrite, State.supCfgWrite, if_pos h]
  all_goals exact State.getF_setR_withBits _ _ _ (by decide) (by decide) (by decide)

theorem State.supCfgWrite_refused (s : State) (w : Word) (h : ¬supCfgOk w = true) : s.gives (.supCfgWrite w) (fun u =>
    u.flag F.supStatusCfgErr = true ∧ u = { s with regs := u.regs } ∧ s.regsKept u [R.supStatus.addr]) := by
  refine ⟨s.setFlag F.supStatusCfgErr true, ?_, State.flag_setFlag_own _ _ _ (by decide), rfl, s.setFlag_regsKept _ _⟩
  rw [exec_supCfgWrite, State.supCfgWrite, if_neg h]

/-! ## The installed values (R411) -/

/-- What PWR_INSTALL keeps of a register: a comparator's STATE starts at inside. -/
def State.toInstall (s : State) (r : Reg) : Word := if r.kind = .hkCmpCfg then withBits (s.getR r) 29 28 0 else s.getR r

/-- Each of a list of registers at different addresses holds what has been written to it. -/
theorem Sparse.get_foldl_set {d : Nat → Word} (f : Reg → Word) (l : List Reg) (hl : (l.map Reg.addr).Nodup) (m : Sparse Word) {r : Reg}
    (hr : r ∈ l) : Sparse.get d (l.foldl (fun m r => Sparse.set d m r.addr (f r)) m) r.addr = f r := by
  induction l using List.reverseRecOn with
  | nil => cases hr
  | append_singleton l q ih =>
    rw [List.map_append, List.nodup_append'] at hl
    obtain ⟨hnodup, -, hdisj⟩ := hl
    rw [List.foldl_append, List.foldl_cons, List.foldl_nil]
    rcases List.mem_append.mp hr with hr | hr
    · have hne : r.addr ≠ q.addr := fun heq => hdisj (List.mem_map_of_mem hr) (by simp [heq])
      rw [Sparse.get_set_other _ _ _ _ _ hne, ih hnodup hr]
    · obtain rfl := List.mem_singleton.mp hr
      exact Sparse.get_set_same _ _ _ _

theorem installedRegs_nodup : (installedRegs.map Reg.addr).Nodup := by decide

/-- Every register of Table 14.6 is installed as it stands. -/
theorem State.installSave_word (s : State) {r : Reg} (hr : r ∈ installedRegs) : s.installSave.installedWord r = s.toInstall r :=
  Sparse.get_foldl_set s.toInstall installedRegs installedRegs_nodup s.firn.settings hr

/-- PWR_INSTALL makes the settings in force the installed ones. -/
theorem State.pwrInstallSave_gives (s : State) : s.gives .pwrInstallSave (fun u =>
    u = { s with firn := { s.firn with settings := u.firn.settings } } ∧
    (∀ r ∈ [R.thmCfg, R.supCfg, R.hkTimer, R.hkMask 0, R.hkMask 1], u.installedWord r = s.getR r) ∧
    (∀ c < 16, u.installedWord (R.hkPwm c) = s.getR (R.hkPwm c) ∧ u.installedWord (R.hkCmpBnd c) = s.getR (R.hkCmpBnd c) ∧
      u.installedWord (R.hkCmpCfg c) = withBits (s.getR (R.hkCmpCfg c)) 29 28 0)) := by
  refine ⟨s.installSave, exec_pwrInstallSave s, rfl, fun r hr => ?_, fun c hc => ⟨?_, ?_, ?_⟩⟩
  · have hkind : r.kind ≠ .hkCmpCfg := by
      simp only [List.mem_cons, List.not_mem_nil, or_false] at hr
      rcases hr with rfl | rfl | rfl | rfl | rfl <;> decide
    rw [s.installSave_word (List.mem_append_left _ (List.mem_append_left _ (List.mem_append_left _ hr)))]
    exact if_neg hkind
  · exact (s.installSave_word (by simp [installedRegs, hc])).trans (if_neg (by simp))
  · exact (s.installSave_word (by simp [installedRegs, hc])).trans (if_neg (by simp))
  · exact (s.installSave_word (by simp [installedRegs, hc])).trans (if_pos rfl)

end Sys2Proof.Machine

open Sys2Proof Sys2Proof.Machine

/-- Settles O54: the clauses of a reading are those of `State.takeReading_spec` and of what follows it, those of a write are the bounds that
`thmCfgOk` and `supCfgOk` check. -/
theorem temperaturesAndSettings : Obligations.TemperaturesAndSettings := by
  intro k reading us w s
  refine ⟨fun hwf => ?_, ⟨fun h => s.thmCfgWrite_taken w ((thmCfgOk_iff w).mpr h), fun h => s.thmCfgWrite_refused w ?_⟩,
    ⟨fun h => s.supCfgWrite_taken w ((supCfgOk_iff w).mpr h), fun h => s.supCfgWrite_refused w ?_⟩, ?_⟩
  · obtain ⟨p, dev, v, b, x, htake, hread, hover, hagrees, hdeviates, hbreaks, hbroken, hcounts⟩ :=
      State.takeReading_spec (s := s) k.isLt reading.isLt
    have hsettle := p.judged_settles k us
    have hrwf : (p.judged k us).regsWf := hsettle.island.2 (hread.island.2 hwf)
    have hcheck := State.shutChecked_checked (k := k) hrwf dev
    obtain ⟨hraw, hrate, htemp, hflag, hdev, htemps, hothers⟩ := hread.sampled k.isLt hcheck
    obtain ⟨hall, hlt, htop, hwarn, hth, hreqOther, hreqHigher⟩ := hread.status k.isLt hcheck
    have hcfg : (p.judged k us).getF F.thmCfgShut = s.getF F.thmCfgShut :=
      (hsettle.island.getF F.thmCfgShut (by simp) (by simp) (by simp)).trans (hread.getF_thm 29 20).1
    have hsame : (p.judged k us).temp k = ((p.judged k us).shutChecked k dev).temp k := (hcheck.island.temp k.isLt (by simp; omega)).symm
    have hlatch : (p.judged k us).flag F.thmStatusShutdown = s.flag F.thmStatusShutdown :=
      (p.judged_shutdown k us).trans (by unfold State.flag; rw [(hread.getF_thm 31 31).2])
    refine ⟨(p.judged k us).shutChecked k dev, ?_, hraw, hrate, fun h => ?_, fun h => ?_, fun h => ?_, fun h => ?_, hothers, hall, hlt, htop,
      hwarn, hth, hreqOther, hreqHigher, fun ⟨hdue, hshut, honce, hnot⟩ => ?_, fun hbelow => ?_, ?_, ?_⟩
    · rw [exec_sensorSample, htake]
    · obtain ⟨hv, hx, hb⟩ := hagrees h
      exact ⟨htemp.trans hv, hdev.trans hx, hflag.trans hb⟩
    · obtain ⟨rfl, hv, hx, hb, hpwr⟩ := hdeviates h
      exact ⟨htemp.trans hv, hdev.trans hx, hflag.trans hb, hsettle.pwr.trans hpwr⟩
    · obtain ⟨hv, hb⟩ := hbreaks h
      exact ⟨htemp.trans hv, hflag.trans hb⟩
    · obtain ⟨hv, hb⟩ := hbroken h
      exact ⟨htemp.trans hv, hflag.trans hb⟩
    · obtain rfl := hcounts hdue
      have hfirn : (p.judged k us).firn = s.firn := hsettle.stores.firn.trans hread.stores.firn
      rw [← hfirn]
      exact State.shutChecked_shuts hrwf (by rw [hcfg, hsame]; exact hshut) (by rw [hsettle.sens, hread.sens, hover]; exact honce)
        (hlatch.trans hnot)
    · obtain ⟨hstores, hflagKept⟩ := State.shutChecked_below (s := p.judged k us) (k := k) (by rw [hcfg, hsame]; exact hbelow) dev
      have hkept := (hread.stores.trans hsettle.stores).trans hstores
      exact ⟨hkept.rails, hkept.data, hflagKept.trans hlatch⟩
    · exact hcheck.hbm.trans ((hsettle.stores.data.1).trans hread.stores.data.1)
    · exact hcheck.parts.trans (hsettle.stores.parts.trans hread.stores.parts)
  · rw [thmCfgOk_iff]; omega
  · rw [supCfgOk_iff]; omega
  · exact s.pwrInstallSave_gives

end

section
/-! PROOFS. Power domains by command: a request that is refused, ignored, started or left to wait, and a switch that ends. -/

namespace Sys2Proof.Machine

theorem exec_pwrDomReqWrite (d : Fin 72) (req : Fin 4) (core : Bool) (s : State) :
    exec (.pwrDomReqWrite d req core) s = .next (s.domWrite d req core) := by rfl
theorem exec_domainSwitchDone (d : Fin 72) (s : State) : exec (.domainSwitchDone d) s = execDomainSwitchDone d s := by rfl

/-! ## Requests (R386, R387) -/

theorem State.logEv_onlyLogs (s : State) (a b c d : Nat) : s.onlyLogs (s.logEv a b c d) := ⟨s.logEv_only a b c d, s.logEv_regsKept a b c d⟩

/-- The domains that ramp are shown as switching, and counted. -/
def State.showRamps (s : State) (l : List (Nat × Nat)) : State :=
  (s.each l (fun s x => s.setF (F.pwrDomState x.1) 3)).setF F.pwrStatusRamping l.length

/-- The module with its ramping and waiting domains as given. -/
def State.withRamps (s : State) (ramp wait : List (Nat × Nat)) : State := { s with pwr := { s.pwr with domRamp := ramp, domWait := wait } }

@[simp] theorem State.withRamps_domRamp (s : State) (ramp wait : List (Nat × Nat)) : (s.withRamps ramp wait).pwr.domRamp = ramp := rfl
@[simp] theorem State.withRamps_domWait (s : State) (ramp wait : List (Nat × Nat)) : (s.withRamps ramp wait).pwr.domWait = wait := rfl
theorem State.withRamps_dataKept (s : State) (ramp wait : List (Nat × Nat)) : s.dataKept (s.withRamps ramp wait) := ⟨rfl, rfl, rfl, rfl, rfl⟩

/-- While no domain waits, only the ramping ones are new. -/
theorem State.withRamps_pwr_none {s u : State} (hu : u.pwr = s.pwr) (hw : s.pwr.domWait = []) (ramp : List (Nat × Nat)) :
    (u.withRamps ramp []).pwr = { s.pwr with domRamp := ramp } := by
  rw [← hu] at hw ⊢
  show { u.pwr with domRamp := ramp, domWait := [] } = { u.pwr with domRamp := ramp, domWait := u.pwr.domWait }
  rw [hw]

theorem State.each_switching_only (l : List (Nat × Nat)) (s : State) :
    s.each l (fun s x => s.setF (F.pwrDomState x.1) 3) = { s with regs := (s.each l (fun s x => s.setF (F.pwrDomState x.1) 3)).regs } := by
  induction l generalizing s with
  | nil => rfl
  | cons x l ih => rw [State.each_cons, ih]; rfl

theorem State.showRamps_only (s : State) (l : List (Nat × Nat)) : s.showRamps l = { s with regs := (s.showRamps l).regs } := by
  unfold State.showRamps
  rw [State.each_switching_only]
  rfl

@[simp] theorem State.showRamps_pwr (s : State) (l : List (Nat × Nat)) : (s.showRamps l).pwr = s.pwr := by rw [State.showRamps_only]
theorem State.showRamps_dataKept (s : State) (l : List (Nat × Nat)) : s.dataKept (s.showRamps l) := by
  rw [State.showRamps_only]; exact ⟨rfl, rfl, rfl, rfl, rfl⟩
theorem State.showRamps_beyond (s : State) (l : List (Nat × Nat)) : (s.showRamps l).beyond = s.beyond := by rw [State.showRamps_only]; rfl

theorem State.showRamps_ramping (s : State) (l : List (Nat × Nat)) (h : l.length < 256) :
    (s.showRamps l).getF F.pwrStatusRamping = l.length := by
  rw [State.showRamps, State.getF_setF_own _ _ _ (by decide) (by decide)]
  exact Nat.mod_eq_of_lt h

/-- A domain's other fields stay while it and others are shown as switching. -/
theorem State.showRamps_field (s : State) (l : List (Nat × Nat)) {d hi lo : Nat} (hd : d < 72) (hap : hi < 0 ∨ 1 < lo) :
    (s.showRamps l).getF ⟨R.pwrDom d, hi, lo⟩ = s.getF ⟨R.pwrDom d, hi, lo⟩ := by
  rw [State.showRamps, State.getF_setF_other _ _ _ _ (by simp; omega)]
  refine State.each_keeps (fun u => u.getF ⟨R.pwrDom d, hi, lo⟩) _ (fun u x => ?_) l s
  by_cases hx : x.1 = d
  · rw [hx]
    exact State.getF_setF_field u _ _ (by decide) (by decide) hap
  · exact State.getF_setF_other _ _ _ _ (by simp; omega)

/-- The domain that joins the ramps last is shown as switching. -/
theorem State.showRamps_state (s : State) (l : List (Nat × Nat)) (x : Nat × Nat) (hx : x.1 < 72) :
    (s.showRamps (l ++ [x])).getF (F.pwrDomState x.1) = 3 := by
  rw [State.showRamps, State.getF_setF_other _ _ _ _ (by simp; omega)]
  unfold State.each
  rw [List.foldl_append, List.foldl_cons, List.foldl_nil, State.getF_setF_own _ _ _ (by decide) (by decide)]
  rfl

theorem insertDom_nil (x : Nat × Nat) : insertDom x [] = [x] := by simp [insertDom]

/-- With one domain that waits and room for it, the domain ramps. -/
theorem State.rampNext_starts (s : State) {ramp : List (Nat × Nat)} {x : Nat × Nat} (hlen : ramp.length < 4) (hne : ∀ y ∈ ramp, y.1 ≠ x.1) :
    (s.withRamps ramp [x]).rampNext = (s.withRamps (ramp ++ [x]) []).showRamps (ramp ++ [x]) := by
  have hbusy : (ramp.map Prod.fst).contains x.1 = false := by
    rw [List.contains_eq_any_beq, List.any_eq_false]
    intro y hy
    obtain ⟨z, hz, rfl⟩ := List.mem_map.mp hy
    simpa using (hne z hz).symm
  unfold State.rampNext
  simp only [State.withRamps_domRamp, State.withRamps_domWait, List.filter_cons, List.filter_nil, hbusy, startRamps, if_pos hlen,
    Bool.not_false, if_true, Bool.false_eq_true, if_false, List.length_cons, List.length_nil, List.append_nil, List.foldr_nil]
  rfl

/-- With four domains that ramp, the one that waits goes on waiting. -/
theorem State.rampNext_waits (s : State) {ramp : List (Nat × Nat)} {x : Nat × Nat} (hlen : ramp.length = 4) :
    (s.withRamps ramp [x]).rampNext = (s.withRamps ramp [x]).showRamps ramp := by
  have hfull : ¬ramp.length < 4 := by omega
  unfold State.rampNext
  cases hbusy : (ramp.map Prod.fst).contains x.1 with
  | false =>
    simp only [State.withRamps_domRamp, State.withRamps_domWait, List.filter_cons, List.filter_nil, hbusy, startRamps, if_neg hfull,
      Bool.not_false, if_true, Bool.false_eq_true, if_false, List.length_cons, List.length_nil, List.append_nil, List.foldr_cons, List.foldr_nil,
      insertDom_nil]
    rfl
  | true =>
    simp only [State.withRamps_domRamp, State.withRamps_domWait, List.filter_cons, List.filter_nil, hbusy, startRamps, Bool.not_true, if_true,
      Bool.false_eq_true, if_false, List.length_nil, List.nil_append, List.foldr_cons, List.foldr_nil, insertDom_nil]
    rfl

/-- With none that ramps or waits, nothing starts. -/
theorem State.rampNext_none (s : State) (hr : s.pwr.domRamp = []) (hw : s.pwr.domWait = []) :
    s.rampNext = (s.withRamps [] []).showRamps [] := by
  unfold State.rampNext
  simp only [hr, hw, List.filter_nil, List.length_nil, startRamps, List.append_nil, List.foldr_nil]
  rfl

theorem State.domainGoal_setReq (s : State) (d req : Nat) : (s.setF (F.pwrDomReq d) req).domainGoal d = s.domainGoal d := by
  unfold State.domainGoal
  rw [State.getF_setF_field _ _ _ (by decide) (by decide) (by decide)]
  rfl

section
variable {s : State} {d : Fin 72} {req : Fin 4}

/-- A request that is not firmware's is logged alone (R387). -/
theorem State.pwrDomReqWrite_foreign : s.gives (.pwrDomReqWrite d req false) (fun u => s.onlyLogs u ∧ s.logs u srcHk (code14 1) 0xFF d) :=
  ⟨_, exec_pwrDomReqWrite d req false s, s.logEv_onlyLogs _ _ _ _, s.logEv_logs _ _ _ _⟩

theorem State.pwrDomReqWrite_locked (hl : s.flag (F.pwrDomLocked d) = true) :
    s.gives (.pwrDomReqWrite d req true) (fun u => s.onlyLogs u) := by
  refine ⟨s.logEv srcHk (code14 1) 0xFF d, ?_, s.logEv_onlyLogs _ _ _ _⟩
  rw [exec_pwrDomReqWrite, State.domWrite, if_pos rfl, State.domainReq, if_pos hl]

variable (hl : s.flag (F.pwrDomLocked d) = false)
include hl

/-- REQ 3, retain of anything but a tile pair, and any mode but off for the endpoint of a module that is no bridge are ignored. -/
theorem State.pwrDomReqWrite_ignored (h : req.val = 3 ∨ (req.val = 1 ∧ 48 ≤ d.val) ∨ (d = 71 ∧ req ≠ 0 ∧ s.me.bridge = false)) :
    exec (.pwrDomReqWrite d req true) s = .next s := by
  rw [exec_pwrDomReqWrite, State.domWrite, if_pos rfl, State.domainReq, if_neg (by simp [hl]), if_pos]
  rcases h with h | h | ⟨hd, hreq, hbridge⟩
  · exact .inl h
  · exact .inr (.inl h)
  · exact .inr (.inr ⟨congrArg Fin.val hd, fun h0 => hreq (Fin.ext h0), hbridge⟩)

variable (hok : req.val < 3 ∧ (req.val = 1 → d.val < 48) ∧ (d = 71 → req = 0 ∨ s.me.bridge = true))
include hok

/-- What an admissible request of firmware does. -/
theorem State.domWrite_accepted : s.domWrite d req true = if s.domainGoal d = req.val then s.setF (F.pwrDomReq d) req
    else ((s.setF (F.pwrDomReq d) req).withRamps s.pwr.domRamp (insertDom (d.val, req.val) s.pwr.domWait)).rampNext := by
  obtain ⟨hlt, hretain, hbridge⟩ := hok
  rw [State.domWrite, if_pos rfl, State.domainReq, if_neg (by simp [hl]), if_neg]
  · dsimp only
    rw [State.domainGoal_setReq]
    rfl
  · rintro (h | ⟨h1, h48⟩ | ⟨h71, h0, hb⟩)
    · omega
    · have := hretain h1; omega
    · rcases hbridge (Fin.ext h71) with h | h
      · exact h0 (congrArg Fin.val h)
      · rw [hb] at h; cases h

/-- A domain that is or will be in the mode asked for. -/
theorem State.pwrDomReqWrite_there (hgoal : s.domainGoal d = req.val) : s.gives (.pwrDomReqWrite d req true) (fun u =>
    u.getF (F.pwrDomReq d) = req.val ∧ u = { s with regs := u.regs } ∧ s.regsKept u [(R.pwrDom d).addr]) := by
  refine ⟨s.setF (F.pwrDomReq d) req, ?_, ?_, rfl, s.setF_regsKept _ _⟩
  · rw [exec_pwrDomReqWrite, State.domWrite_accepted hl hok, if_pos hgoal]
  · rw [State.getF_setF_own _ _ _ (by decide) (by decide)]
    exact Nat.mod_eq_of_lt req.isLt

variable (hgoal : s.domainGoal d ≠ req.val) (hw : s.pwr.domWait = [])
include hgoal hw

/-- The domain starts to switch while fewer than four ramp. -/
theorem State.pwrDomReqWrite_starts (hlen : s.pwr.domRamp.length < 4) (hne : ∀ x ∈ s.pwr.domRamp, x.1 < 72 ∧ x.1 ≠ d.val) :
    s.gives (.pwrDomReqWrite d req true) (fun u =>
      u.pwr = { s.pwr with domRamp := s.pwr.domRamp ++ [(d.val, req.val)] } ∧ u.getF (F.pwrDomState d) = 3 ∧
      u.getF F.pwrStatusRamping = s.pwr.domRamp.length + 1 ∧ u.getF (F.pwrDomReq d) = req.val ∧ s.dataKept u) := by
  refine ⟨((s.setF (F.pwrDomReq d) req).withRamps (s.pwr.domRamp ++ [(d.val, req.val)]) []).showRamps (s.pwr.domRamp ++ [(d.val, req.val)]),
    ?_, ?_, State.showRamps_state _ _ (d.val, req.val) d.isLt, ?_, ?_, ?_⟩
  · rw [exec_pwrDomReqWrite, State.domWrite_accepted hl hok, if_neg hgoal, hw, insertDom_nil,
      State.rampNext_starts _ hlen (fun y hy => (hne y hy).2)]
  · rw [State.showRamps_pwr, State.withRamps_pwr_none (State.setF_pwr _ _ _) hw]
  · rw [State.showRamps_ramping _ _ (by simp; omega)]
    simp
  · rw [State.showRamps_field _ _ d.isLt (by decide)]
    exact (State.getF_setF_own s _ _ (by decide) (by decide)).trans (Nat.mod_eq_of_lt req.isLt)
  · exact (State.setF_storesKept s _ _).data.trans ((State.withRamps_dataKept _ _ _).trans (State.showRamps_dataKept _ _))

/-- The domain waits while four ramp. -/
theorem State.pwrDomReqWrite_waits (hlen : s.pwr.domRamp.length = 4) : s.gives (.pwrDomReqWrite d req true) (fun u =>
    u.pwr = { s.pwr with domWait := [(d.val, req.val)] } ∧ s.dataKept u) := by
  refine ⟨((s.setF (F.pwrDomReq d) req).withRamps s.pwr.domRamp [(d.val, req.val)]).showRamps s.pwr.domRamp, ?_, ?_, ?_⟩
  · rw [exec_pwrDomReqWrite, State.domWrite_accepted hl hok, if_neg hgoal, hw, insertDom_nil, State.rampNext_waits _ hlen]
  · rw [State.showRamps_pwr]; rfl
  · exact (State.setF_storesKept s _ _).data.trans ((State.withRamps_dataKept _ _ _).trans (State.showRamps_dataKept _ _))

end

/-! ## A switch that ends (R385, R386) -/

theorem State.bridgeOn_regs (s : State) : s.bridgeOn.regs =
    (((s.setFlag F.glbBridgeEnabled true).setF F.glbBridgeSpeed (1 + Config.freeNat s.free % 6)).setF F.glbBridgeWidth
      (if Config.freeNat (s.free + 1) % 2 = 0 then 8 else 16)).regs := rfl

theorem State.bridgeOn_regsKept (s : State) : s.regsKept s.bridgeOn [R.glbBridge.addr] :=
  ((s.setFlag_regsKept F.glbBridgeEnabled true).trans
    (State.setF_regsKept _ F.glbBridgeSpeed (1 + Config.freeNat s.free % 6))).trans
    ((State.setF_regsKept _ F.glbBridgeWidth (if Config.freeNat (s.free + 1) % 2 = 0 then 8 else 16)).trans
      (State.regsKept_of_regs s.bridgeOn_regs))

theorem State.bridgeOn_beyond (s : State) : s.bridgeOn.beyond = s.beyond := rfl
theorem State.bridgeOn_pwr (s : State) : s.bridgeOn.pwr = s.pwr := rfl
theorem State.bridgeOn_dataKept (s : State) : s.dataKept s.bridgeOn := ⟨rfl, rfl, rfl, rfl, rfl⟩

/-- Domain k has switched to mode m: what ramped leaves the ramps, and a bridge's endpoint that comes on is enabled. -/
def State.switchEnded (s : State) (x : Nat × Nat) (bridge : Bool) : State :=
  (({ s with pwr := { s.pwr with domRamp := s.pwr.domRamp.erase x } } : State).domainSet x.1 x.2).when bridge State.bridgeOn

section
variable (s : State) (x : Nat × Nat) (bridge : Bool)

theorem State.switchEnded_pwr : (s.switchEnded x bridge).pwr = { s.pwr with domRamp := s.pwr.domRamp.erase x } :=
  (State.when_keeps State.pwr _ State.bridgeOn_pwr _ _).trans (State.domainSet_pwr _ _ _)

theorem State.switchEnded_beyond : (s.switchEnded x bridge).beyond = s.beyond :=
  (State.when_keeps State.beyond _ State.bridgeOn_beyond _ _).trans (State.domainSet_beyond _ _ _)

theorem State.when_bridgeOn_dataKept (u : State) : u.dataKept (u.when bridge State.bridgeOn) := by
  cases bridge
  · exact ⟨rfl, rfl, rfl, rfl, rfl⟩
  · exact u.bridgeOn_dataKept

theorem State.switchEnded_getR (hx : x.1 < 72) : (s.switchEnded x bridge).getR (R.pwrDom x.1) = (s.switched x.1 x.2).getR (R.pwrDom x.1) := by
  have hwhen : ∀ u : State, (u.when bridge State.bridgeOn).getR (R.pwrDom x.1) = u.getR (R.pwrDom x.1) := fun u =>
    State.when_keeps (fun u => u.getR (R.pwrDom x.1)) _ (fun u => u.bridgeOn_regsKept.getR _ (by simp; omega)) _ _
  rw [State.switchEnded, hwhen, State.getR_domainSet_same _ _ hx]
  rfl

/-- A domain that comes on or is retained loses nothing. -/
theorem State.switchEnded_dataKept (hm : x.2 ≠ 0) : s.dataKept (s.switchEnded x bridge) := by
  refine State.dataKept.trans ?_ (State.when_bridgeOn_dataKept bridge _)
  rw [State.domainSet_eq, if_neg hm]
  exact ⟨rfl, rfl, rfl, rfl, rfl⟩

/-- A tile pair that goes off has lost its stores and its arrays. -/
theorem State.switchEnded_tilePair (hm : x.2 = 0) (hk : x.1 < 48) :
    (s.switchEnded x bridge).tiles = s.tiles.filter (fun e => e.1 / 2 ≠ x.1) ∧
    (s.switchEnded x bridge).arrays = s.arrays.filter (fun e => e.1 / 128 / 2 ≠ x.1) := by
  obtain ⟨-, harrays, htiles, -, -⟩ := State.when_bridgeOn_dataKept bridge
    (({ s with pwr := { s.pwr with domRamp := s.pwr.domRamp.erase x } } : State).domainSet x.1 x.2)
  refine ⟨htiles.trans ?_, harrays.trans ?_⟩ <;> rw [State.domainSet_eq, if_pos hm, State.domainLost, if_pos hk] <;> rfl

end

theorem State.domainSwitchDone_none {s : State} {d : Fin 72} (h : ∀ x ∈ s.pwr.domRamp, x.1 ≠ d.val) :
    exec (.domainSwitchDone d) s = .next s := by
  have hfind : s.pwr.domRamp.find? (fun x => x.1 = d.val) = none := List.find?_eq_none.mpr (fun x hx => by simpa using h x hx)
  rw [exec_domainSwitchDone, execDomainSwitchDone, hfind]

/-- A store that has no words reads as zeros. -/
theorem TileSt.byte_empty (b : Nat) : ({} : TileSt).byte b = 0 := by
  simp [TileSt.byte, TileSt.word]

theorem State.domainSwitchDone_gives {s : State} {d : Fin 72} {req : Fin 4} (hr : s.pwr.domRamp = [(d.val, req.val)]) (hw : s.pwr.domWait = []) :
    s.gives (.domainSwitchDone d) (fun u =>
      u.pwr = { s.pwr with domRamp := [] } ∧ u.getF (F.pwrDomState d) = req.val ∧ u.getF F.pwrStatusRamping = 0 ∧
      u.getF (F.pwrDomSwitches d) = (s.getF (F.pwrDomSwitches d) + 1) % 2 ^ 16 ∧ u.hbm = s.hbm ∧ u.parts = s.parts ∧
      (0 < req.val → s.dataKept u) ∧
      ((req.val = 0 ∧ d.val < 48) → (∀ a b, a / 2 = d.val → (u.tile a).byte b = 0) ∧ (∀ e ∈ u.arrays, e.1 / 256 ≠ d.val))) := by
  have hfind : s.pwr.domRamp.find? (fun x => x.1 = d.val) = some (d.val, req.val) := by simp [hr]
  have hexec : ∃ bridge, exec (.domainSwitchDone d) s = .next (s.switchEnded (d.val, req.val) bridge).rampNext := by
    rw [exec_domainSwitchDone, execDomainSwitchDone, hfind]
    exact ⟨_, rfl⟩
  obtain ⟨bridge, hexec⟩ := hexec
  have hpwr := s.switchEnded_pwr (d.val, req.val) bridge
  rw [hr, List.erase_cons_head] at hpwr
  generalize hv : s.switchEnded (d.val, req.val) bridge = v at hexec hpwr
  have hbeyond := hv ▸ s.switchEnded_beyond (d.val, req.val) bridge
  have hreg := hv ▸ s.switchEnded_getR (d.val, req.val) bridge d.isLt
  have hshow := (v.withRamps [] []).showRamps_dataKept []
  have hfield : ∀ hi lo, ((v.withRamps [] []).showRamps []).getF ⟨R.pwrDom d, hi, lo⟩ = v.getF ⟨R.pwrDom d, hi, lo⟩ := fun hi lo =>
    State.getF_setF_other _ F.pwrStatusRamping _ _ (by simp; omega)
  obtain ⟨hhbm, hparts, -, -, -⟩ := State.beyond_iff.mp (((v.withRamps [] []).showRamps_beyond []).trans hbeyond)
  rw [State.rampNext_none v (by rw [hpwr]) (by rw [hpwr]; exact hw)] at hexec
  refine ⟨_, hexec, ?_, ?_, State.showRamps_ramping _ _ (by decide), ?_, hhbm, hparts, fun hm => ?_, fun ⟨hm, hk⟩ => ⟨fun a b ha => ?_, fun e he => ?_⟩⟩
  · rw [State.showRamps_pwr]
    show { v.pwr with domRamp := [], domWait := [] } = { s.pwr with domRamp := [], domWait := s.pwr.domWait }
    rw [hpwr, hw]
  · rw [hfield, State.getF_congr (g := F.pwrDomState d) hreg]
    exact State.switched_state s d req.isLt
  · rw [hfield, State.getF_congr (g := F.pwrDomSwitches d) hreg]
    exact State.switched_switches s d req
  · exact (hv ▸ s.switchEnded_dataKept (d.val, req.val) bridge (by simpa using hm.ne') : s.dataKept v).trans hshow
  · obtain ⟨htiles, -⟩ := hv ▸ s.switchEnded_tilePair (d.val, req.val) bridge hm hk
    have htile : ((v.withRamps [] []).showRamps []).tile a = {} := by
      rw [State.tile_congr hshow.2.2.1]
      unfold State.tile Sparse.get
      rw [show (v.withRamps [] []).tiles = v.tiles from rfl, htiles, Sparse.lookup_filter_drop _ _ _ (by simp [ha])]
      rfl
    rw [htile, TileSt.byte_empty]
  · obtain ⟨-, harrays⟩ := hv ▸ s.switchEnded_tilePair (d.val, req.val) bridge hm hk
    have hmem : e ∈ v.arrays := hshow.2.1 ▸ he
    rw [harrays] at hmem
    have := List.of_mem_filter hmem
    rw [decide_eq_true_eq, Nat.div_div_eq_div_mul] at this
    exact this

end Sys2Proof.Machine
end

section
/-! PROOFS. The housekeeping converter: triggers and scans, a conversion that ends, urgent requests, the FIFO and the comparators. -/

namespace Sys2Proof.Machine

theorem exec_hkTimerExpiry (s : State) : exec .hkTimerExpiry s = .next (s.when (s.getF F.hkTimerPeriod ≠ 0) (·.trigger 0)) := by rfl
theorem exec_pwmEvent (k : Fin 16) (s : State) : exec (.pwmEvent k) s = .next (s.when (s.flag (F.hkPwmEnable k)) (fun s =>
    if s.hk.delays.contains k.val then s.satF F.hkStatusMissed 1 else { s with hk := { s.hk with delays := s.hk.delays ++ [k.val] } })) := by rfl
theorem exec_pwmDelayExpiry (k : Fin 16) (s : State) : exec (.pwmDelayExpiry k) s = .next (s.when (s.hk.delays.contains k.val) (fun s =>
    { s with hk := { s.hk with delays := s.hk.delays.filter (· ≠ k.val) } }.trigger 1)) := by rfl
theorem exec_hkUrgentWrite (ch : Fin 64) (s : State) : exec (.hkUrgentWrite ch) s = .next (s.urgentAsk ch) := by rfl
theorem exec_hkFifoRead (s : State) : exec .hkFifoRead s = .next s.fifoPop := by rfl
theorem exec_hkCmpWrite (c : Fin 16) (cfg : Bool) (w : Word) (s : State) : exec (.hkCmpWrite c cfg w) s = .next (s.cmpWrite c cfg w) := by rfl

/-! ## Scans and the next conversion (R405, R406) -/

/-- u differs from s in what the converter keeps of its scans and conversions, the FIFO aside. -/
def State.converts (s u : State) : Prop := u = { s with hk := u.hk } ∧ u.hk.fifo = s.hk.fifo

theorem State.converts.trans {s u v : State} (h : s.converts u) (k : u.converts v) : s.converts v := by
  obtain ⟨hu, hf⟩ := h
  obtain ⟨hv, hg⟩ := k
  exact ⟨by rw [hv, hu], hg.trans hf⟩

theorem State.convNext_converts (s : State) : s.converts s.convNext := by
  unfold State.convNext
  split
  · exact ⟨rfl, rfl⟩
  · split
    · exact ⟨rfl, rfl⟩
    · split <;> exact ⟨rfl, rfl⟩

/-- A converter that converts goes on. -/
theorem State.convNext_busy {s : State} (h : s.hk.conv ≠ none) : s.convNext = s := by
  unfold State.convNext
  split
  · rfl
  · contradiction

/-- An urgent request comes first. -/
theorem State.convNext_urgent {s : State} {c : Nat} {rest : List Nat} (h : s.hk.conv = none) (hu : s.hk.urgent = c :: rest) :
    s.convNext = { s with hk := { s.hk with conv := some (c, 2), urgent := rest } } := by
  simp only [State.convNext, h, hu]

/-- Then the scan's next channel. -/
theorem State.convNext_scan {s : State} {q c : Nat} {rest : List Nat} (h : s.hk.conv = none) (hu : s.hk.urgent = [])
    (hs : s.hk.scan = some (q, c :: rest)) : s.convNext = { s with hk := { s.hk with conv := some (c, q), scan := some (q, rest) } } := by
  simp only [State.convNext, h, hu, hs]

/-- Without either the converter rests. -/
theorem State.convNext_idle {s : State} (h : s.hk.conv = none) (hu : s.hk.urgent = []) (hs : s.hk.scan = none) : s.convNext = s := by
  simp only [State.convNext, h, hu, hs]

/-- A scan of the enabled channels is counted and stands ready. -/
def State.scanReady (s : State) (src : Nat) : State :=
  { s with hk := { s.hk with
    scanNo := (s.hk.scanNo + 1) % 2048, scan := if s.scanChannels = [] then none else some (src, s.scanChannels) } }

theorem State.scanStart_eq (s : State) (src : Nat) : s.scanStart src = (s.scanReady src).convNext := rfl

theorem State.scanStart_converts (s : State) (src : Nat) : s.converts (s.scanStart src) :=
  State.converts.trans (u := s.scanReady src) ⟨rfl, rfl⟩ (State.convNext_converts _)

theorem State.scanEnd_converts (s : State) : s.converts s.scanEnd := by
  unfold State.scanEnd
  split
  · dsimp only
    split
    · exact State.converts.trans ⟨rfl, rfl⟩ (State.scanStart_converts _ _)
    · exact ⟨rfl, rfl⟩
  · exact ⟨rfl, rfl⟩

/-- What a trigger from a source does to t (R405): it starts a scan, becomes pending, or is missed. -/
def State.Fires (t u : State) (src : Nat) : Prop :=
  u = { t with hk := u.hk, regs := u.regs } ∧ u.hk.fifo = t.hk.fifo ∧
  (∀ a, a ≠ R.hkStatus.addr → Sparse.get regDefault u.regs a = Sparse.get regDefault t.regs a) ∧
  ((t.hk.scan = none ∧ t.hk.conv = none ∧ t.hk.urgent = []) → u.regs = t.regs ∧ u.hk.urgent = [] ∧
    u.hk.scanNo = (t.hk.scanNo + 1) % 2048 ∧
    (∀ c rest, t.scanChannels = c :: rest → u.hk.conv = some (c, src) ∧ u.hk.scan = some (src, rest)) ∧
    (t.scanChannels = [] → u.hk.conv = none ∧ u.hk.scan = none)) ∧
  ((t.hk.scan ≠ none ∧ t.hk.pendingTrig = none) → u.hk = { t.hk with pendingTrig := some src } ∧ u.regs = t.regs) ∧
  ((t.hk.scan ≠ none ∧ t.hk.pendingTrig ≠ none) → u.hk = t.hk ∧
    u.getF F.hkStatusMissed = min 255 (t.getF F.hkStatusMissed + 1))

theorem State.getF_satF_missed (s : State) : (s.satF F.hkStatusMissed 1).getF F.hkStatusMissed = min 255 (s.getF F.hkStatusMissed + 1) := by
  rw [State.getF_satF_same _ _ _ (by decide) (by decide), Nat.min_comm]
  rfl

/-- A scan starts from rest with its first channel. -/
theorem State.scanStart_rest {t : State} (src : Nat) (hc : t.hk.conv = none) (hu : t.hk.urgent = []) :
    (t.scanStart src).hk.urgent = [] ∧ (t.scanStart src).hk.scanNo = (t.hk.scanNo + 1) % 2048 ∧
    (∀ c rest, t.scanChannels = c :: rest → (t.scanStart src).hk.conv = some (c, src) ∧ (t.scanStart src).hk.scan = some (src, rest)) ∧
    (t.scanChannels = [] → (t.scanStart src).hk.conv = none ∧ (t.scanStart src).hk.scan = none) := by
  rw [State.scanStart_eq]
  cases hl : t.scanChannels with
  | nil =>
    rw [State.convNext_idle (s := t.scanReady src) hc hu (by simp [State.scanReady, hl])]
    exact ⟨hu, rfl, by simp, fun _ => ⟨hc, by simp [State.scanReady, hl]⟩⟩
  | cons c rest =>
    rw [State.convNext_scan (s := t.scanReady src) (q := src) (c := c) (rest := rest) hc hu (by simp [State.scanReady, hl])]
    refine ⟨hu, rfl, fun c' rest' h => ?_, by simp⟩
    obtain ⟨rfl, rfl⟩ := List.cons.inj h
    exact ⟨rfl, rfl⟩

theorem State.trigger_fires (t : State) (src : Nat) : t.Fires (t.trigger src) src := by
  unfold State.trigger
  split
  · rename_i hs
    obtain ⟨honly, hfifo⟩ := t.scanStart_converts src
    have hregs : (t.scanStart src).regs = t.regs := by rw [honly]
    refine ⟨?_, hfifo, fun a _ => by rw [hregs], fun ⟨_, hc, hu⟩ => ⟨hregs, State.scanStart_rest src hc hu⟩, fun ⟨h, _⟩ => absurd hs h,
      fun ⟨h, _⟩ => absurd hs h⟩
    rw [honly]
  · rename_i hs
    split
    · rename_i hp
      exact ⟨rfl, rfl, fun _ _ => rfl, fun ⟨h, _⟩ => by simp [hs] at h, fun _ => ⟨rfl, rfl⟩, fun ⟨_, h⟩ => absurd hp h⟩
    · rename_i hp
      exact ⟨rfl, rfl, fun a ha => t.setF_regsKept F.hkStatusMissed _ a (by simpa using ha), fun ⟨h, _⟩ => by simp [hs] at h,
        fun ⟨_, h⟩ => by simp [hp] at h, fun _ => ⟨rfl, t.getF_satF_missed⟩⟩

section
variable {s : State} {p : Fin 16}

theorem State.hkTimerExpiry_off (h : s.getF F.hkTimerPeriod = 0) : exec .hkTimerExpiry s = .next s := by
  rw [exec_hkTimerExpiry, h]
  rfl

theorem State.hkTimerExpiry_gives (h : s.getF F.hkTimerPeriod ≠ 0) : s.gives .hkTimerExpiry (fun u => s.Fires u 0) := by
  refine ⟨s.trigger 0, ?_, s.trigger_fires 0⟩
  rw [exec_hkTimerExpiry, decide_eq_true h]
  rfl

theorem State.pwmEvent_off (h : s.flag (F.hkPwmEnable p) = false) : exec (.pwmEvent p) s = .next s := by
  rw [exec_pwmEvent, h]
  rfl

theorem State.pwmEvent_delays (h : s.flag (F.hkPwmEnable p) = true) (hd : p.val ∉ s.hk.delays) :
    s.gives (.pwmEvent p) (fun u => u = { s with hk := { s.hk with delays := s.hk.delays ++ [p.val] } }) := by
  refine ⟨_, ?_, rfl⟩
  rw [exec_pwmEvent, h, State.when_true, if_neg (by simpa using hd)]

theorem State.pwmEvent_missed (h : s.flag (F.hkPwmEnable p) = true) (hd : p.val ∈ s.hk.delays) : s.gives (.pwmEvent p) (fun u =>
    u = { s with regs := u.regs } ∧ u.getF F.hkStatusMissed = min 255 (s.getF F.hkStatusMissed + 1)) := by
  refine ⟨s.satF F.hkStatusMissed 1, ?_, rfl, s.getF_satF_missed⟩
  rw [exec_pwmEvent, h, State.when_true, if_pos (by simpa using hd)]

theorem State.pwmDelayExpiry_none (hd : p.val ∉ s.hk.delays) : exec (.pwmDelayExpiry p) s = .next s := by
  rw [exec_pwmDelayExpiry, List.contains_eq_mem, decide_eq_false hd]
  rfl

theorem State.pwmDelayExpiry_gives (hd : p.val ∈ s.hk.delays) : s.gives (.pwmDelayExpiry p) (fun u =>
    State.Fires { s with hk := { s.hk with delays := s.hk.delays.filter (· ≠ p.val) } } u 1) := by
  refine ⟨_, ?_, State.trigger_fires _ 1⟩
  rw [exec_pwmDelayExpiry, List.contains_eq_mem, decide_eq_true hd]
  rfl

/-! ## Urgent requests and the FIFO (R406, R407) -/

variable {ch : Fin 64}

theorem State.hkUrgentWrite_refused (h : 4 ≤ s.hk.urgent.length) : s.gives (.hkUrgentWrite ch) (fun u =>
    u = { s with regs := u.regs } ∧ u.getF F.hkStatusUrgRefused = min 63 (s.getF F.hkStatusUrgRefused + 1)) := by
  refine ⟨s.satF F.hkStatusUrgRefused 1, ?_, rfl, ?_⟩
  · rw [exec_hkUrgentWrite, State.urgentAsk, if_pos h]
  · rw [State.getF_satF_same _ _ _ (by decide) (by decide), Nat.min_comm]
    rfl

theorem State.hkUrgentWrite_converts (hu : s.hk.urgent = []) (hc : s.hk.conv = none) : s.gives (.hkUrgentWrite ch) (fun u =>
    u = { s with hk := { s.hk with conv := some (ch.val, 2) } }) := by
  refine ⟨{ s with hk := { s.hk with conv := some (ch.val, 2), urgent := [] } }, ?_, by rw [← hu]⟩
  rw [exec_hkUrgentWrite, State.urgentAsk, if_neg (by simp [hu]),
    State.convNext_urgent (s := { s with hk := { s.hk with urgent := s.hk.urgent ++ [ch.val] } }) (c := ch.val) (rest := []) hc (by simp [hu])]

theorem State.hkUrgentWrite_queues (hlen : s.hk.urgent.length < 4) (hc : s.hk.conv ≠ none) : s.gives (.hkUrgentWrite ch) (fun u =>
    u = { s with hk := { s.hk with urgent := s.hk.urgent ++ [ch.val] } }) := by
  refine ⟨_, ?_, rfl⟩
  rw [exec_hkUrgentWrite, State.urgentAsk, if_neg (by omega),
    State.convNext_busy (s := { s with hk := { s.hk with urgent := s.hk.urgent ++ [ch.val] } }) hc]

theorem State.hkFifoRead_empty (h : s.hk.fifo = []) : s.gives .hkFifoRead (fun u => u.getR R.hkFifo = 0 ∧ u = { s with regs := u.regs }) := by
  refine ⟨s.setR R.hkFifo 0, ?_, State.getR_setR_same _ _ _, rfl⟩
  rw [exec_hkFifoRead, State.fifoPop, h]

theorem State.hkFifoRead_oldest {v : Word} {rest : List Word} (h : s.hk.fifo = v :: rest) : s.gives .hkFifoRead (fun u =>
    u.getR R.hkFifo = v ∧ u = { s with regs := u.regs, hk := { s.hk with fifo := rest } }) := by
  refine ⟨({ s with hk := { s.hk with fifo := rest } } : State).setR R.hkFifo v, ?_, State.getR_setR_same _ _ _, rfl⟩
  rw [exec_hkFifoRead, State.fifoPop, h]

end

/-! ## The comparators (R408, R409) -/

section
variable (s : State) (c ch code : Nat)

/-- Comparator c is enabled and bound to channel ch. -/
def State.cmpBound : Bool := s.flag (F.hkCmpCfgEnable c) && s.getF (F.hkCmpCfgChannel c) = ch

/-- The STATE that a code of channel ch leaves comparator c in: 0 inside, 1 below, 2 above its band. -/
def State.cmpNext : Nat :=
  if !s.cmpBound c ch then s.getF (F.hkCmpCfgState c)
  else if s.getF (F.hkCmpCfgState c) = 0 then
    if code < s.getF (F.hkCmpBndLow c) then 1 else if s.getF (F.hkCmpBndHigh c) < code then 2 else 0
  else if s.getF (F.hkCmpBndLow c) + s.getF (F.hkCmpCfgHyst c) ≤ code ∧ code + s.getF (F.hkCmpCfgHyst c) ≤ s.getF (F.hkCmpBndHigh c) then 0
  else s.getF (F.hkCmpCfgState c)

/-- The code takes comparator c out of its band. -/
def State.cmpLeaves : Bool := s.cmpBound c ch && s.getF (F.hkCmpCfgState c) = 0 && s.cmpNext c ch code ≠ 0

/-- Comparator c goes outside, to STATE st: its bit of HK_CMP_EVT is set and it is logged. -/
def State.cmpOut (st : Nat) : State :=
  ((s.setF (F.hkCmpCfgState c) st).setR R.hkCmpEvt (s.getR R.hkCmpEvt ||| BitVec.ofNat 32 (2 ^ c))).logEv srcHk 0x1308 0xFF
    (detail 0x1308 [c, ch, code])

end

/-- From s to u comparator c has taken STATE st, with its event bit set or not, and all else on the island is kept. -/
structure State.CmpMoved (s u : State) (c st : Nat) (event : Bool) : Prop where
  state : u.getF (F.hkCmpCfgState c) = st
  fields : ∀ hi lo, hi < 28 ∨ 29 < lo → u.getF ⟨R.hkCmpCfg c, hi, lo⟩ = s.getF ⟨R.hkCmpCfg c, hi, lo⟩
  evt : u.getR R.hkCmpEvt = if event then s.getR R.hkCmpEvt ||| BitVec.ofNat 32 (2 ^ c) else s.getR R.hkCmpEvt
  island : s.islandKept u [(R.hkCmpCfg c).addr, R.hkCmpEvt.addr]
  data : s.dataKept u
  beyond : u.beyond = s.beyond

section
variable {s : State} {c : Nat}

theorem State.cmpMoved_stays (s : State) (c : Nat) : s.CmpMoved s c (s.getF (F.hkCmpCfgState c)) false :=
  ⟨rfl, fun _ _ _ => rfl, rfl, State.islandKept_of_regs _ rfl, ⟨rfl, rfl, rfl, rfl, rfl⟩, rfl⟩

theorem State.cmpMoved_returns (hc : c < 16) : s.CmpMoved (s.setF (F.hkCmpCfgState c) 0) c 0 false where
  state := by simp
  fields hi lo hap := State.getF_setF_field _ _ _ (by decide) (by decide) hap
  evt := State.getR_setF_other _ _ _ _ (by simp; omega)
  island := s.setF_islandKept _ _ _ (.inl List.mem_cons_self)
  data := (s.setF_storesKept _ _).data
  beyond := rfl

/-- The registers of a comparator that goes outside, before it is logged. -/
theorem State.cmpMoved_out (hc : c < 16) {st : Nat} (hst : st < 4) :
    s.CmpMoved ((s.setF (F.hkCmpCfgState c) st).setR R.hkCmpEvt (s.getR R.hkCmpEvt ||| BitVec.ofNat 32 (2 ^ c))) c st true := by
  have hcfg : ∀ hi lo, ((s.setF (F.hkCmpCfgState c) st).setR R.hkCmpEvt (s.getR R.hkCmpEvt ||| BitVec.ofNat 32 (2 ^ c))).getF
      ⟨R.hkCmpCfg c, hi, lo⟩ = (s.setF (F.hkCmpCfgState c) st).getF ⟨R.hkCmpCfg c, hi, lo⟩ :=
    fun hi lo => State.getF_congr (State.getR_setR_other _ _ _ _ (by simp; omega))
  refine ⟨?_, fun hi lo hap => ?_, State.getR_setR_same _ _ _, ?_, ⟨rfl, rfl, rfl, rfl, rfl⟩, rfl⟩
  · rw [hcfg, State.getF_setF_own _ _ _ (by decide) (by decide)]
    exact Nat.mod_eq_of_lt hst
  · rw [hcfg]
    exact State.getF_setF_field _ _ _ (by decide) (by decide) hap
  · exact (s.setF_islandKept _ _ _ (.inl List.mem_cons_self)).trans (State.setR_islandKept _ _ _ _ (.inl (by simp)))

/-- A report changes nothing about the comparators. -/
theorem State.CmpMoved.logged {u : State} {st : Nat} {event : Bool} (h : s.CmpMoved u c st event) (hc : c < 16) (d : Nat) :
    s.CmpMoved (u.logEv srcHk 0x1308 0xFF d) c st event := by
  have hlog := u.logEv_islandKept srcHk 0x1308 0xFF d []
  have hcfg : ∀ hi lo, (u.logEv srcHk 0x1308 0xFF d).getF ⟨R.hkCmpCfg c, hi, lo⟩ = u.getF ⟨R.hkCmpCfg c, hi, lo⟩ :=
    fun hi lo => hlog.getF ⟨R.hkCmpCfg c, hi, lo⟩ (by simp; omega) (by simp; omega) List.not_mem_nil
  exact {
    state := (hcfg _ _).trans h.state
    fields := fun hi lo hap => (hcfg hi lo).trans (h.fields hi lo hap)
    evt := (hlog.getR R.hkCmpEvt (by simp) (by simp) List.not_mem_nil).trans h.evt
    island := h.island.trans (u.logEv_islandKept _ _ _ _ _)
    data := h.data.trans (u.logEv_dataKept _ _ _ _)
    beyond := (u.logEv_beyond _ _ _ _).trans h.beyond }

theorem State.cmpMoved_leaves (hc : c < 16) (ch code : Nat) {st : Nat} (hst : st < 4) : s.CmpMoved (s.cmpOut c ch code st) c st true :=
  (State.cmpMoved_out hc hst).logged hc _

theorem State.compare_eq (s : State) (c ch code : Nat) : s.compare c ch code =
    if s.cmpBound c ch then
      if s.getF (F.hkCmpCfgState c) = 0 then
        if code < s.getF (F.hkCmpBndLow c) then s.cmpOut c ch code 1
        else if s.getF (F.hkCmpBndHigh c) < code then s.cmpOut c ch code 2 else s
      else if s.getF (F.hkCmpBndLow c) + s.getF (F.hkCmpCfgHyst c) ≤ code ∧ code + s.getF (F.hkCmpCfgHyst c) ≤ s.getF (F.hkCmpBndHigh c) then
        s.setF (F.hkCmpCfgState c) 0
      else s
    else s := rfl

/-- What comparator c does with a code of channel ch. -/
theorem State.compare_moves (s : State) (hc : c < 16) (ch code : Nat) :
    s.CmpMoved (s.compare c ch code) c (s.cmpNext c ch code) (s.cmpLeaves c ch code) := by
  have hstays := s.cmpMoved_stays c
  rw [State.compare_eq]
  cases hb : s.cmpBound c ch with
  | false => simpa [State.cmpLeaves, State.cmpNext, hb] using hstays
  | true =>
    by_cases hst : s.getF (F.hkCmpCfgState c) = 0
    · rw [hst] at hstays
      by_cases hlow : code < s.getF (F.hkCmpBndLow c)
      · simpa [State.cmpLeaves, State.cmpNext, hb, hst, hlow] using State.cmpMoved_leaves hc ch code (by decide)
      · by_cases hhigh : s.getF (F.hkCmpBndHigh c) < code
        · simpa [State.cmpLeaves, State.cmpNext, hb, hst, hlow, hhigh] using State.cmpMoved_leaves hc ch code (by decide)
        · simpa [State.cmpLeaves, State.cmpNext, hb, hst, hlow, hhigh] using hstays
    · by_cases hband : s.getF (F.hkCmpBndLow c) + s.getF (F.hkCmpCfgHyst c) ≤ code ∧
          code + s.getF (F.hkCmpCfgHyst c) ≤ s.getF (F.hkCmpBndHigh c)
      · simpa [State.cmpLeaves, State.cmpNext, hb, hst, hband] using State.cmpMoved_returns hc
      · simpa [State.cmpLeaves, State.cmpNext, hb, hst, hband] using hstays

end

/-! ## Every comparator, in ascending order (R407) -/

/-- Where the comparators keep their STATE and their events. -/
def cmpRegs : List Nat := R.hkCmpEvt.addr :: (List.range 16).map (fun c => (R.hkCmpCfg c).addr)

theorem mem_cmpRegs {a : Nat} : a ∈ cmpRegs ↔ a = 0x40003018 ∨ ∃ c < 16, a = 0x40003204 + 8 * c := by
  simp [cmpRegs, eq_comm]

theorem addr_hkCmpBnd_not_mem (c : Nat) : (R.hkCmpBnd c).addr ∉ cmpRegs := by
  rw [mem_cmpRegs, addr_hkCmpBnd]
  rintro (h | ⟨d, -, h⟩) <;> omega

/-- From s to u the comparators below n, and they alone, have evaluated a code of channel ch. -/
structure State.Compared (s u : State) (ch code n : Nat) : Prop where
  state : ∀ c < 16, u.getF (F.hkCmpCfgState c) = if c < n then s.cmpNext c ch code else s.getF (F.hkCmpCfgState c)
  fields : ∀ c < 16, ∀ hi lo, hi < 28 ∨ 29 < lo → u.getF ⟨R.hkCmpCfg c, hi, lo⟩ = s.getF ⟨R.hkCmpCfg c, hi, lo⟩
  evt : ∀ c < 16, (u.getR R.hkCmpEvt).getLsbD c = ((s.getR R.hkCmpEvt).getLsbD c || (decide (c < n) && s.cmpLeaves c ch code))
  island : s.islandKept u cmpRegs
  data : s.dataKept u
  beyond : u.beyond = s.beyond

/-- What a comparator makes of a code depends on its two registers. -/
theorem State.cmpNext_congr {s u : State} {c : Nat} (hst : u.getF (F.hkCmpCfgState c) = s.getF (F.hkCmpCfgState c))
    (hf : ∀ hi lo, hi < 28 ∨ 29 < lo → u.getF ⟨R.hkCmpCfg c, hi, lo⟩ = s.getF ⟨R.hkCmpCfg c, hi, lo⟩)
    (hbnd : u.getR (R.hkCmpBnd c) = s.getR (R.hkCmpBnd c)) (ch code : Nat) :
    u.cmpNext c ch code = s.cmpNext c ch code ∧ u.cmpLeaves c ch code = s.cmpLeaves c ch code := by
  have hen : u.flag (F.hkCmpCfgEnable c) = s.flag (F.hkCmpCfgEnable c) := by
    unfold State.flag; rw [hf _ _ (.inr (by decide))]
  have hbound : u.cmpBound c ch = s.cmpBound c ch := by
    rw [State.cmpBound, State.cmpBound, hen, hf 27 22 (.inl (by decide))]
  have hhyst := hf 7 0 (.inl (by decide))
  have hlow : u.getF (F.hkCmpBndLow c) = s.getF (F.hkCmpBndLow c) := State.getF_congr hbnd
  have hhigh : u.getF (F.hkCmpBndHigh c) = s.getF (F.hkCmpBndHigh c) := State.getF_congr hbnd
  have hnext : u.cmpNext c ch code = s.cmpNext c ch code := by
    simp only [State.cmpNext, hbound, hst, hlow, hhigh, hhyst]
  exact ⟨hnext, by simp only [State.cmpLeaves, hbound, hst, hnext]⟩

/-- A bit that is set or not. -/
theorem getLsbD_or_two_pow (w : Word) (b : Bool) (c : Nat) {i : Nat} (hi : i < 32) :
    (if b then w ||| BitVec.ofNat 32 (2 ^ c) else w).getLsbD i = (w.getLsbD i || (b && decide (c = i))) := by
  cases b
  · simp
  · rw [if_pos rfl, BitVec.getLsbD_or, BitVec.getLsbD_ofNat, Nat.testBit_two_pow]
    simp [hi]

/-- The next comparator evaluates the code as it would have at first. -/
theorem State.Compared.step {s u : State} {ch code n : Nat} (h : s.Compared u ch code n) (hn : n < 16) :
    s.Compared (u.compare n ch code) ch code (n + 1) := by
  have hm := u.compare_moves hn ch code
  have hbnd : u.getR (R.hkCmpBnd n) = s.getR (R.hkCmpBnd n) :=
    h.island.getR (R.hkCmpBnd n) (by simp; omega) (by simp; omega) (addr_hkCmpBnd_not_mem n)
  obtain ⟨hnext, hleaves⟩ := State.cmpNext_congr (by simpa using h.state n hn) (h.fields n hn) hbnd ch code
  rw [hnext, hleaves] at hm
  have hother : ∀ c < 16, c ≠ n → (u.compare n ch code).getR (R.hkCmpCfg c) = u.getR (R.hkCmpCfg c) := fun c hc hcn =>
    hm.island.getR (R.hkCmpCfg c) (by simp; omega) (by simp; omega) (by simp; omega)
  refine ⟨fun c hc => ?_, fun c hc hi lo hap => ?_, fun c hc => ?_, h.island.trans (hm.island.mono ?_), h.data.trans hm.data,
    hm.beyond.trans h.beyond⟩
  · by_cases hcn : c = n
    · subst hcn
      rw [hm.state, if_pos (Nat.lt_succ_self c)]
    · have hiff : c < n + 1 ↔ c < n := by omega
      simp only [hiff]
      exact (State.getF_congr (g := F.hkCmpCfgState c) (hother c hc hcn)).trans (h.state c hc)
  · by_cases hcn : c = n
    · subst hcn
      exact (hm.fields hi lo hap).trans (h.fields c hc hi lo hap)
    · exact (State.getF_congr (g := ⟨R.hkCmpCfg c, hi, lo⟩) (hother c hc hcn)).trans (h.fields c hc hi lo hap)
  · rw [hm.evt, getLsbD_or_two_pow _ _ _ (by omega), h.evt c hc]
    by_cases hcn : c = n
    · subst hcn
      simp
    · have hiff : c < n + 1 ↔ c < n := by omega
      simp [hiff, Ne.symm hcn]
  · intro a ha
    rw [mem_cmpRegs]
    simp only [addr_hkCmpCfg, addr_hkCmpEvt, List.mem_cons, List.not_mem_nil, or_false] at ha
    rcases ha with rfl | rfl
    · exact .inr ⟨n, hn, rfl⟩
    · exact .inl rfl

theorem State.compared_zero (s : State) (ch code : Nat) : s.Compared s ch code 0 where
  state _ _ := by simp
  fields _ _ _ _ _ := rfl
  evt _ _ := by simp
  island := State.islandKept_of_regs _ rfl
  data := ⟨rfl, rfl, rfl, rfl, rfl⟩
  beyond := rfl

theorem State.each_compare (s : State) (ch code : Nat) {n : Nat} (hn : n ≤ 16) :
    s.Compared (s.each (List.range n) (fun s c => s.compare c ch code)) ch code n := by
  induction n with
  | zero => exact s.compared_zero ch code
  | succ n ih =>
    rw [List.range_succ, State.each, List.foldl_append]
    exact (ih (by omega)).step hn

/-! ## A conversion that ends (R407), and the one that follows (R405, R406) -/

/-- A conversion's code stands in its value register and in the FIFO, or is counted as lost. -/
def State.convStored (s : State) (ch src code : Nat) : State :=
  let u := s.setR (R.hkValue ch) (hkWord src 0 s.hk.scanNo code)
  if s.hk.fifo.length < 256 then { u with hk := { s.hk with fifo := s.hk.fifo ++ [hkWord src ch s.hk.scanNo code] } }
  else u.satF F.hkStatusFifoLost 1

/-- The comparators have evaluated it besides. -/
def State.convCompared (s : State) (ch src code : Nat) : State :=
  (s.convStored ch src code).each (List.range 16) (fun s c => s.compare c ch code)

/-- The converter is free. -/
def State.convFreed (s : State) : State := { s with hk := { s.hk with conv := none } }

/-- The converter takes its next conversion; where the one that ended was a scan's, the scan may end. -/
def State.convGoesOn (s : State) (src : Nat) : State := (if src = 2 then s.convFreed else s.convFreed.scanEnd).convNext

theorem exec_hkConversionDone (code : BitVec 12) (s : State) : exec (.hkConversionDone code) s = .next (match s.hk.conv with
    | none => s
    | some (ch, src) => ((s.convCompared ch src code.toNat).convGoesOn src).refreshReq) := by rfl

theorem State.hkConversionDone_none {s : State} {code : BitVec 12} (h : s.hk.conv = none) : exec (.hkConversionDone code) s = .next s := by
  rw [exec_hkConversionDone, h]

section
variable (s : State) (ch src code : Nat)

theorem State.convStored_island : s.islandKept (s.convStored ch src code) [(R.hkValue ch).addr, R.hkStatus.addr] := by
  have hval : s.islandKept (s.setR (R.hkValue ch) (hkWord src 0 s.hk.scanNo code)) [(R.hkValue ch).addr, R.hkStatus.addr] :=
    s.setR_islandKept _ _ _ (.inl List.mem_cons_self)
  unfold State.convStored
  dsimp only
  split
  · exact hval
  · exact hval.trans (State.setF_islandKept _ F.hkStatusFifoLost _ _ (.inl (by simp)))

theorem State.convStored_value (hch : ch < 64) : (s.convStored ch src code).getR (R.hkValue ch) = hkWord src 0 s.hk.scanNo code := by
  have hval := s.getR_setR_same (R.hkValue ch) (hkWord src 0 s.hk.scanNo code)
  unfold State.convStored
  dsimp only
  split
  · exact hval
  · exact (State.getR_setF_other _ F.hkStatusFifoLost _ _ (by simp; omega)).trans hval

theorem State.convStored_room (h : s.hk.fifo.length < 256) :
    (s.convStored ch src code).hk = { s.hk with fifo := s.hk.fifo ++ [hkWord src ch s.hk.scanNo code] } := by
  rw [State.convStored, if_pos h]

theorem State.convStored_full (h : 256 ≤ s.hk.fifo.length) : (s.convStored ch src code).hk = s.hk := by
  rw [State.convStored, if_neg (by omega)]
  rfl

theorem State.convStored_lost (hch : ch < 64) (h : 256 ≤ s.hk.fifo.length) :
    (s.convStored ch src code).getF F.hkStatusFifoLost = min 255 (s.getF F.hkStatusFifoLost + 1) := by
  rw [State.convStored, if_neg (by omega), State.getF_satF_same _ _ _ (by decide) (by decide), Nat.min_comm,
    State.getF_congr (g := F.hkStatusFifoLost) (s.getR_setR_other (R.hkValue ch) R.hkStatus _ (by simp; omega))]
  rfl

theorem State.convStored_data : s.dataKept (s.convStored ch src code) := by
  unfold State.convStored
  split
  · exact ⟨rfl, rfl, rfl, rfl, rfl⟩
  · exact ⟨rfl, rfl, rfl, rfl, rfl⟩

theorem State.convStored_parts : (s.convStored ch src code).parts = s.parts := by
  unfold State.convStored
  split <;> rfl

/-- What the FIFO takes is all that storing changes about the scans and the conversions. -/
theorem State.convStored_scans : (s.convStored ch src code).hk = { s.hk with fifo := (s.convStored ch src code).hk.fifo } := by
  by_cases h : s.hk.fifo.length < 256
  · rw [State.convStored_room _ _ _ _ h]
  · rw [State.convStored_full _ _ _ _ (by omega)]

theorem State.convGoesOn_only : s.convGoesOn src = { s with hk := (s.convGoesOn src).hk } ∧ (s.convGoesOn src).hk.fifo = s.hk.fifo := by
  have hfreed : s.converts s.convFreed := ⟨rfl, rfl⟩
  unfold State.convGoesOn
  split
  · exact hfreed.trans (State.convNext_converts _)
  · exact (hfreed.trans (State.scanEnd_converts _)).trans (State.convNext_converts _)

end

/-- A scan with channels left does not end. -/
theorem State.scanEnd_goesOn {s : State} {q c : Nat} {rest : List Nat} (h : s.hk.scan = some (q, c :: rest)) : s.scanEnd = s := by
  simp only [State.scanEnd, h]

/-- A scan without channels left ends. -/
theorem State.scanEnd_ends {s : State} {q : Nat} (h : s.hk.scan = some (q, [])) (hp : s.hk.pendingTrig = none) :
    s.scanEnd = { s with hk := { s.hk with scan := none } } := by
  simp only [State.scanEnd, h, hp]

/-- The end of a scan takes an urgent request at once, or leaves it and the free converter. -/
theorem State.scanEnd_urgent {s : State} {c : Nat} {rest : List Nat} (hc : s.hk.conv = none) (hu : s.hk.urgent = c :: rest) :
    s.scanEnd.convNext.hk.conv = some (c, 2) ∧ s.scanEnd.convNext.hk.urgent = rest := by
  have hnext : ∀ u : State, u.hk.conv = none → u.hk.urgent = c :: rest → u.convNext.hk.conv = some (c, 2) ∧ u.convNext.hk.urgent = rest :=
    fun u hc hu => by rw [State.convNext_urgent hc hu]; exact ⟨rfl, rfl⟩
  unfold State.scanEnd
  split
  · dsimp only
    split
    · rename_i q _ src _
      obtain ⟨hconv, hurgent⟩ := hnext
        (State.scanReady { s with hk := { s.hk with scan := none, pendingTrig := none } } src) hc hu
      rw [State.scanStart_eq, State.convNext_busy (by rw [hconv]; simp)]
      exact ⟨hconv, hurgent⟩
    · exact hnext _ hc hu
  · exact hnext _ hc hu

section
variable {s : State} {src : Nat}

theorem State.convGoesOn_urgent {c : Nat} {rest : List Nat} (hu : s.hk.urgent = c :: rest) :
    (s.convGoesOn src).hk.conv = some (c, 2) ∧ (s.convGoesOn src).hk.urgent = rest := by
  unfold State.convGoesOn
  split
  · rw [State.convNext_urgent (s := s.convFreed) rfl hu]
    exact ⟨rfl, rfl⟩
  · exact State.scanEnd_urgent (s := s.convFreed) rfl hu

theorem State.convGoesOn_scan {q c : Nat} {rest : List Nat} (hu : s.hk.urgent = []) (hs : s.hk.scan = some (q, c :: rest)) :
    (s.convGoesOn src).hk.conv = some (c, q) ∧ (s.convGoesOn src).hk.scan = some (q, rest) := by
  rw [State.convGoesOn, State.scanEnd_goesOn (s := s.convFreed) hs, ite_self, State.convNext_scan (s := s.convFreed) rfl hu hs]
  exact ⟨rfl, rfl⟩

theorem State.convGoesOn_rests {q : Nat} (hu : s.hk.urgent = []) (hs : s.hk.scan = some (q, [])) (hp : s.hk.pendingTrig = none)
    (hsrc : src ≠ 2) : (s.convGoesOn src).hk.conv = none ∧ (s.convGoesOn src).hk.scan = none := by
  rw [State.convGoesOn, if_neg hsrc, State.scanEnd_ends (s := s.convFreed) hs hp,
    State.convNext_idle (s := { s.convFreed with hk := { s.convFreed.hk with scan := none } }) rfl hu rfl]
  exact ⟨rfl, rfl⟩

end

/-- What a conversion's end leaves: the code is stored and compared, the next conversion runs and the request for a stretch is refreshed. -/
def State.convEnded (s : State) (ch src code : Nat) : State := ((s.convCompared ch src code).convGoesOn src).refreshReq

section
variable (s : State) (ch src code : Nat)

theorem State.convCompared_compared :
    (s.convStored ch src code).Compared (s.convCompared ch src code) ch code 16 := State.each_compare _ ch code (Nat.le_refl 16)

theorem State.convCompared_hk : (s.convCompared ch src code).hk = (s.convStored ch src code).hk :=
  (State.beyond_iff.mp (s.convCompared_compared ch src code).beyond).2.2.2.2

theorem State.convEnded_hk : (s.convEnded ch src code).hk = ((s.convCompared ch src code).convGoesOn src).hk :=
  (State.beyond_iff.mp (State.refreshReq_beyond _)).2.2.2.2

/-- After the comparators no register of the island changes. -/
theorem State.convEnded_island : (s.convCompared ch src code).islandKept (s.convEnded ch src code) [] := by
  refine State.islandKept.trans (State.islandKept_of_regs _ ?_) (State.refreshReq_islandKept _ _)
  rw [(State.convGoesOn_only _ src).1]

theorem State.convEnded_data : s.dataKept (s.convEnded ch src code) := by
  refine (((s.convStored_data ch src code).trans (s.convCompared_compared ch src code).data).trans ?_).trans (State.refreshReq_dataKept _)
  rw [(State.convGoesOn_only _ src).1]
  exact ⟨rfl, rfl, rfl, rfl, rfl⟩

theorem State.convEnded_parts : (s.convEnded ch src code).parts = s.parts := by
  have hlast : (s.convEnded ch src code).parts = ((s.convCompared ch src code).convGoesOn src).parts :=
    (State.beyond_iff.mp (State.refreshReq_beyond _)).2.1
  rw [hlast, (State.convGoesOn_only _ src).1]
  exact (State.beyond_iff.mp (s.convCompared_compared ch src code).beyond).2.1.trans (s.convStored_parts ch src code)

theorem State.convEnded_fifo : (s.convEnded ch src code).hk.fifo = (s.convStored ch src code).hk.fifo := by
  rw [State.convEnded_hk, (State.convGoesOn_only _ src).2, State.convCompared_hk]

/-- A register that is no comparator's stands as the store left it. -/
theorem State.convEnded_getR (r : Reg) (hlo : 0x40001000 ≤ r.addr) (hhi : r.addr < 0x50000000) (hr : r.addr ∉ cmpRegs) :
    (s.convEnded ch src code).getR r = (s.convStored ch src code).getR r :=
  ((s.convEnded_island ch src code).getR r hlo hhi List.not_mem_nil).trans ((s.convCompared_compared ch src code).island.getR r hlo hhi hr)

theorem addr_hkValue_not_mem {k : Nat} (h : k < 64) : (R.hkValue k).addr ∉ cmpRegs := by
  rw [mem_cmpRegs, addr_hkValue]
  rintro (h | ⟨d, -, h⟩) <;> omega

theorem addr_hkStatus_not_mem : R.hkStatus.addr ∉ cmpRegs := by
  rw [mem_cmpRegs, addr_hkStatus]
  rintro (h | ⟨d, -, h⟩) <;> omega

theorem State.convEnded_value (hch : ch < 64) : (s.convEnded ch src code).getR (R.hkValue ch) = hkWord src 0 s.hk.scanNo code :=
  (s.convEnded_getR ch src code (R.hkValue ch) (by simp; omega) (by simp; omega) (addr_hkValue_not_mem hch)).trans
    (s.convStored_value ch src code hch)

theorem State.convEnded_lost (hch : ch < 64) (h : 256 ≤ s.hk.fifo.length) :
    (s.convEnded ch src code).getF F.hkStatusFifoLost = min 255 (s.getF F.hkStatusFifoLost + 1) :=
  (State.getF_congr (g := F.hkStatusFifoLost)
    (s.convEnded_getR ch src code R.hkStatus (by simp) (by simp) addr_hkStatus_not_mem)).trans (s.convStored_lost ch src code hch h)

/-- The comparators see the code as they would have before it was stored. -/
theorem State.convStored_cmp {c : Nat} (hc : c < 16) (hch : ch < 64) (k x : Nat) :
    (s.convStored ch src code).cmpNext c k x = s.cmpNext c k x ∧ (s.convStored ch src code).cmpLeaves c k x = s.cmpLeaves c k x := by
  have hisl := s.convStored_island ch src code
  have hcfg : (s.convStored ch src code).getR (R.hkCmpCfg c) = s.getR (R.hkCmpCfg c) :=
    hisl.getR (R.hkCmpCfg c) (by simp; omega) (by simp; omega) (by simp; omega)
  exact State.cmpNext_congr (State.getF_congr (g := F.hkCmpCfgState c) hcfg) (fun hi lo _ => State.getF_congr (g := ⟨R.hkCmpCfg c, hi, lo⟩) hcfg)
    (hisl.getR (R.hkCmpBnd c) (by simp; omega) (by simp; omega) (by simp; omega)) k x

theorem State.convEnded_state {c : Nat} (hc : c < 16) (hch : ch < 64) :
    (s.convEnded ch src code).getF (F.hkCmpCfgState c) = s.cmpNext c ch code := by
  have hcmp := (s.convCompared_compared ch src code).state c hc
  rw [if_pos hc, (s.convStored_cmp ch src code hc hch ch code).1] at hcmp
  exact ((s.convEnded_island ch src code).getF (F.hkCmpCfgState c) (by simp; omega) (by simp; omega) List.not_mem_nil).trans hcmp

theorem State.convEnded_evt {c : Nat} (hc : c < 16) (hch : ch < 64) :
    ((s.convEnded ch src code).getR R.hkCmpEvt).getLsbD c = ((s.getR R.hkCmpEvt).getLsbD c || s.cmpLeaves c ch code) := by
  have hcmp := (s.convCompared_compared ch src code).evt c hc
  rw [(s.convStored_cmp ch src code hc hch ch code).2, decide_eq_true hc, Bool.true_and,
    (s.convStored_island ch src code).getR R.hkCmpEvt (by simp) (by simp) (by simp; omega)] at hcmp
  rwa [(s.convEnded_island ch src code).getR R.hkCmpEvt (by simp) (by simp) List.not_mem_nil]

/-- The next conversion: an urgent request first, then the scan's next channel; a scan with none left ends. -/
theorem State.convEnded_next :
    (∀ c rest, s.hk.urgent = c :: rest → (s.convEnded ch src code).hk.conv = some (c, 2) ∧ (s.convEnded ch src code).hk.urgent = rest) ∧
    (s.hk.urgent = [] →
      (∀ q c rest, s.hk.scan = some (q, c :: rest) →
        (s.convEnded ch src code).hk.conv = some (c, q) ∧ (s.convEnded ch src code).hk.scan = some (q, rest)) ∧
      (∀ q, (s.hk.scan = some (q, []) ∧ src < 2 ∧ s.hk.pendingTrig = none) →
        (s.convEnded ch src code).hk.conv = none ∧ (s.convEnded ch src code).hk.scan = none)) := by
  have hhk := (s.convCompared_hk ch src code).trans (s.convStored_scans ch src code)
  have hurgent : (s.convCompared ch src code).hk.urgent = s.hk.urgent := by rw [hhk]
  have hscan : (s.convCompared ch src code).hk.scan = s.hk.scan := by rw [hhk]
  have hpend : (s.convCompared ch src code).hk.pendingTrig = s.hk.pendingTrig := by rw [hhk]
  rw [State.convEnded_hk]
  refine ⟨fun c rest hu => State.convGoesOn_urgent (hurgent.trans hu), fun hu => ⟨fun q c rest hs => ?_, fun q ⟨hs, hsrc, hp⟩ => ?_⟩⟩
  · exact State.convGoesOn_scan (hurgent.trans hu) (hscan.trans hs)
  · exact State.convGoesOn_rests (hurgent.trans hu) (hscan.trans hs) (hpend.trans hp) (by omega)

end

/-! ## A comparator that is written (R408) -/

/-- The comparator's registers after the write, before its stretch request is refreshed. -/
def State.cmpWritten (s : State) (c : Nat) (cfg : Bool) (w : Word) : State :=
  if cfg then s.setR (R.hkCmpCfg c) (withBits (withBits w 29 28 0) 21 16 0)
  else (s.setR (R.hkCmpBnd c) (withBits (withBits w 31 28 0) 15 12 0)).setF (F.hkCmpCfgState c) 0

theorem State.cmpWrite_eq (s : State) (c : Nat) (cfg : Bool) (w : Word) : s.cmpWrite c cfg w = (s.cmpWritten c cfg w).refreshReq := rfl

/-- A field of a register that has been given a word with two parts of its other bits set to 0. -/
theorem State.getF_setR_withBits₂ (s : State) (r : Reg) (w : Word) {hi lo hi' lo' h l : Nat} (hhi : hi < 32) (hlo : lo ≤ hi)
    (hhi' : hi' < 32) (hlo' : lo' ≤ hi') (hap : h < lo ∨ hi < l) (hap' : h < lo' ∨ hi' < l) :
    (s.setR r (withBits (withBits w hi lo 0) hi' lo' 0)).getF ⟨r, h, l⟩ = bitsOf w h l := by
  rw [State.getF_setR_withBits _ _ _ hhi' hlo' hap', bitsOf_withBits_apart _ _ _ _ _ _ hhi hlo hap]

theorem getLsbD_eq_bitsOf (w : Word) (i : Nat) : w.getLsbD i = decide (bitsOf w i i = 1) := by
  rw [BitVec.getLsbD, Nat.testBit_eq_decide_div_mod_eq, bitsOf, Nat.add_sub_cancel_left, pow_one]

section
variable (s : State) (c : Nat) (w : Word)

theorem State.cmpWritten_cfg {hi lo : Nat} (hap : hi < 28 ∨ 29 < lo) (hap' : hi < 16 ∨ 21 < lo) :
    (s.cmpWritten c true w).getF ⟨R.hkCmpCfg c, hi, lo⟩ = bitsOf w hi lo :=
  s.getF_setR_withBits₂ _ w (by decide) (by decide) (by decide) (by decide) hap hap'

theorem State.cmpWritten_bnd {hi lo : Nat} (hap : hi < 28 ∨ 31 < lo) (hap' : hi < 12 ∨ 15 < lo) :
    (s.cmpWritten c false w).getF ⟨R.hkCmpBnd c, hi, lo⟩ = bitsOf w hi lo :=
  (State.getF_congr (g := ⟨R.hkCmpBnd c, hi, lo⟩) (State.getR_setF_other _ (F.hkCmpCfgState c) (R.hkCmpBnd c) _ (by simp))).trans
    (s.getF_setR_withBits₂ _ w (by decide) (by decide) (by decide) (by decide) hap hap')

theorem State.cmpWritten_state (cfg : Bool) : (s.cmpWritten c cfg w).getF (F.hkCmpCfgState c) = 0 := by
  cases cfg
  · exact (State.getF_setF_own _ _ _ (by decide) (by decide)).trans rfl
  · refine (s.getF_setR_withBits _ _ (by decide) (by decide) (by decide)).trans ?_
    rw [bitsOf_withBits _ _ _ _ (by decide) (by decide)]
    rfl

theorem State.cmpWritten_storesKept (cfg : Bool) : s.dataKept (s.cmpWritten c cfg w) ∧ (s.cmpWritten c cfg w).beyond = s.beyond := by
  cases cfg <;> exact ⟨⟨rfl, rfl, rfl, rfl, rfl⟩, rfl⟩

end

theorem State.hkCmpWrite_gives (s : State) (p : Fin 16) (cfg : Bool) (w : Word) : s.gives (.hkCmpWrite p cfg w) (fun u =>
    u.getF (F.hkCmpCfgState p) = 0 ∧ u.hk = s.hk ∧ s.dataKept u ∧ u.parts = s.parts ∧
    (cfg = true → u.flag (F.hkCmpCfgEnable p) = w.getLsbD 31 ∧ u.flag (F.hkCmpCfgAction p) = w.getLsbD 30 ∧
      u.getF (F.hkCmpCfgChannel p) = bitsOf w 27 22 ∧ u.getF (F.hkCmpCfgStretch p) = bitsOf w 15 8 ∧ u.getF (F.hkCmpCfgHyst p) = bitsOf w 7 0 ∧
      u.getR (R.hkCmpBnd p) = s.getR (R.hkCmpBnd p)) ∧
    (cfg = false → u.getF (F.hkCmpBndHigh p) = bitsOf w 27 16 ∧ u.getF (F.hkCmpBndLow p) = bitsOf w 11 0)) := by
  have hisl := (s.cmpWritten p cfg w).refreshReq_islandKept []
  have hcfg : ∀ hi lo, (s.cmpWritten p cfg w).refreshReq.getF ⟨R.hkCmpCfg p, hi, lo⟩ = (s.cmpWritten p cfg w).getF ⟨R.hkCmpCfg p, hi, lo⟩ :=
    fun hi lo => hisl.getF ⟨R.hkCmpCfg p, hi, lo⟩ (by simp; omega) (by simp; omega) List.not_mem_nil
  have hbnd : (s.cmpWritten p cfg w).refreshReq.getR (R.hkCmpBnd p) = (s.cmpWritten p cfg w).getR (R.hkCmpBnd p) :=
    hisl.getR (R.hkCmpBnd p) (by simp; omega) (by simp; omega) List.not_mem_nil
  have hbndF : ∀ hi lo, (s.cmpWritten p cfg w).refreshReq.getF ⟨R.hkCmpBnd p, hi, lo⟩ = (s.cmpWritten p cfg w).getF ⟨R.hkCmpBnd p, hi, lo⟩ :=
    fun hi lo => State.getF_congr (g := ⟨R.hkCmpBnd p, hi, lo⟩) hbnd
  obtain ⟨hdata, hbeyond⟩ := s.cmpWritten_storesKept p w cfg
  obtain ⟨-, hparts, -, -, hhk⟩ := State.beyond_iff.mp ((State.refreshReq_beyond (s.cmpWritten p cfg w)).trans hbeyond)
  refine ⟨(s.cmpWritten p cfg w).refreshReq, by rw [exec_hkCmpWrite, State.cmpWrite_eq], (hcfg 29 28).trans (s.cmpWritten_state p w cfg), hhk,
    hdata.trans (State.refreshReq_dataKept _), hparts, ?_, ?_⟩
  · rintro rfl
    have hbit : ∀ i, 29 < i → (s.cmpWritten p true w).refreshReq.flag ⟨R.hkCmpCfg p, i, i⟩ = w.getLsbD i := fun i hi => by
      rw [State.flag, hcfg, s.cmpWritten_cfg p w (.inr hi) (.inr (by omega)), getLsbD_eq_bitsOf]
    refine ⟨hbit 31 (by decide), hbit 30 (by decide), ?_, ?_, ?_, ?_⟩
    · exact (hcfg 27 22).trans (s.cmpWritten_cfg p w (by decide) (by decide))
    · exact (hcfg 15 8).trans (s.cmpWritten_cfg p w (by decide) (by decide))
    · exact (hcfg 7 0).trans (s.cmpWritten_cfg p w (by decide) (by decide))
    · exact hbnd.trans (s.getR_setR_other (R.hkCmpCfg p) (R.hkCmpBnd p) _ (by simp))
  · rintro rfl
    exact ⟨(hbndF 27 16).trans (s.cmpWritten_bnd p w (by decide) (by decide)), (hbndF 11 0).trans (s.cmpWritten_bnd p w (by decide) (by decide))⟩

end Sys2Proof.Machine

open Sys2Proof Sys2Proof.Machine

/-- Settles O55: a request is refused, taken, started or left waiting by what it asks and what ramps already; the converter's triggers, urgent
requests and FIFO go case by case; a conversion's code is stored, every comparator evaluates it, and the next conversion follows. -/
theorem domainsAndConverter : Obligations.DomainsAndConverter := by
  unfold Obligations.DomainsAndConverter
  intro d req core cfg p ch code w s
  refine ⟨?_, ?_, State.domainSwitchDone_none, fun ⟨hr, hw, _⟩ => State.domainSwitchDone_gives hr hw, State.hkTimerExpiry_off,
    State.hkTimerExpiry_gives, State.pwmEvent_off, fun h => ⟨State.pwmEvent_delays h, State.pwmEvent_missed h⟩, State.pwmDelayExpiry_none,
    State.pwmDelayExpiry_gives, State.hkConversionDone_none, fun src hsrc hconv => ?_, State.hkUrgentWrite_refused,
    fun ⟨hu, hc⟩ => State.hkUrgentWrite_converts hu hc, fun ⟨hlen, hc⟩ => State.hkUrgentWrite_queues hlen hc, State.hkFifoRead_empty,
    fun _ _ => State.hkFifoRead_oldest, s.hkCmpWrite_gives p cfg w⟩
  · rintro rfl
    exact State.pwrDomReqWrite_foreign
  · rintro rfl
    refine ⟨State.pwrDomReqWrite_locked, fun hl => ⟨State.pwrDomReqWrite_ignored hl, fun hok => ⟨State.pwrDomReqWrite_there hl hok, ?_, ?_⟩⟩⟩
    · exact fun ⟨hgoal, hw, hlen, hne⟩ => State.pwrDomReqWrite_starts hl hok hgoal hw hlen hne
    · exact fun ⟨hgoal, hw, hlen⟩ => State.pwrDomReqWrite_waits hl hok hgoal hw hlen
  · obtain ⟨hurgent, hscan⟩ := s.convEnded_next ch src code.toNat
    refine ⟨s.convEnded ch src code.toNat, ?_, s.convEnded_value ch src code.toNat ch.isLt, fun hroom => ?_, fun hfull => ⟨?_, ?_⟩,
      fun c hc => ?_, hurgent, hscan, s.convEnded_data ch src code.toNat, s.convEnded_parts ch src code.toNat⟩
    · rw [exec_hkConversionDone, hconv]
      rfl
    · rw [State.convEnded_fifo, State.convStored_room _ _ _ _ hroom]
    · rw [State.convEnded_fifo, State.convStored_full _ _ _ _ hfull]
    · exact s.convEnded_lost ch src code.toNat ch.isLt hfull
    · have hstate := s.convEnded_state ch src code.toNat hc ch.isLt
      refine ⟨hstate, ?_⟩
      rw [s.convEnded_evt ch src code.toNat hc ch.isLt, hstate]
      rfl

end
